-- ==== Sys2Proof/Word.lean ====
section
/-!
DEFINITION. The word and byte types of the register space (R9: every register is 32 bits wide).
-/

namespace Sys2Proof

/-- A register word. -/
abbrev Word := BitVec 32

/-- A byte of a frame, a message, a table record or the flash. -/
abbrev Byte := BitVec 8

end Sys2Proof
end

