-- ==== Sys2Proof/Syntax.lean ====
section
/-!
DEFINITION. The commands of the block: one constructor per row of the opcode table, with the operands that the spec's rules name
(an index, a register word, what a receiver heard, what a mate or a terminal sent), and the structures of those operands.
-/

namespace Sys2Proof

/-- A codeword as the burst receiver decoded it (R97): its information bytes, none where it is uncorrectable, and the number of
symbols corrected. -/
structure CwRx where
  info  : Option (List Byte)
  fixed : Nat
  /-- the information bytes as decoded, where the codeword cannot be corrected (R252) -/
  raw   : List Byte := []
  deriving DecidableEq, Repr

/-- The equalizer values that the receiver ended a burst with (R149, R150). -/
structure EqRx where
  ffe  : List Int
  dfe  : Int
  ctle : Nat
  samp : Nat
  vga  : Nat
  mse  : Nat
  deriving DecidableEq, Repr

/-- What the burst receiver heard for one map entry (R107 to R116): whether the preamble lock was reached, the delimiter's position in
symbols after the start of the upstream frame (none: not found), the decoded header bytes (none: uncorrectable), the data codewords in order,
the final equalizer values, and, in compatibility mode, the DBRu reports (Alloc-ID, units) and the XGEM frames of the burst, each joined to a
service data unit as the line carries it (XGEM Port-ID, encrypted bytes). -/
structure RxBurst where
  locked  : Bool
  pos     : Option Int
  header  : Option (List Byte)
  cws     : List CwRx
  eq      : Option EqRx
  reports : List (Nat × Nat)
  sdus    : List (Nat × List Byte)
  deriving DecidableEq, Repr

/-- Decided symbols of a burst (R108, R109): the position of the first in symbols after the start of the upstream frame, the levels (+3, +1, −1, −3), the
position at which the clock recovery locked on the tone, and the final equalizer values. -/
structure RawBurst where
  start  : Int
  levels : List Int
  tone   : Option Int
  eq     : Option EqRx
  deriving DecidableEq, Repr

/-- A burst as it reaches the receiver of a grove: as its front end reports it, or, on a native grove, as decided symbols of the line. -/
inductive BurstIn where
  | heard (rx : RxBurst)
  | line (raw : RawBurst)
  deriving DecidableEq, Repr

/-- What the outside shows the device in the tick that a commit edge closes: the groves that saw light outside their grants (R115), the
uplink lanes and Plaxon ports (64 and 65) whose equalizer clamp acted (R538), the step that the
oscillator trim asks for (R490), and, where the tick ends a window of R484, the deviations from nominal measured in it, in parts per 10^9, by source code. -/
structure EdgeIn where
  light : List Nat
  clamp : List Nat
  trim  : Int
  freq  : List (Nat × Int) := []
  deriving DecidableEq, Repr

/-- A lookup result from the cascade ring (R326): priority, global position and action index, or nothing. -/
structure RingHit where
  prio : Nat
  pos  : Nat
  act  : Nat
  deriving DecidableEq, Repr

/-- The outcomes of the shared memories for one pass (R593): the pass had to wait, a table read was repeated, and what the cascade ring
answered for a cascade lookup, `none` while the answer is out. -/
structure PassIn where
  replays : Nat
  ring    : Option (Option RingHit)
  deriving DecidableEq, Repr

/-- A record of a table descriptor (R314), in the layout of its table. -/
inductive TblRec where
  | bridge (key : Nat) (valid static : Bool) (kind act val : Nat)
  | lpm4 (pfx len act : Nat)
  | lpm6 (pfx len act : Nat)
  | asc (value mask side : Nat)
  deriving DecidableEq, Repr

/-- A table descriptor as the table engine fetched it (R314): its eight 32-bit words, the records of its buffer, and the first record at which the
buffer's host address faults. -/
structure Desc where
  words : List Nat
  recs  : List TblRec
  fault : Option Nat
  deriving DecidableEq, Repr

/-- What reads a near-tier packet (R358): a pipeline, a grove, or another block. -/
inductive UeReader where
  | pipeline (p : Fin 32)
  | grove (g : Fin 64)
  | other
  deriving DecidableEq, Repr

/-- A near-tier packet in error (R358): its number in its queue, and what read it. -/
structure NearHit where
  uid    : Nat
  reader : UeReader
  deriving DecidableEq, Repr

/-- What an uncorrectable HBM2E error lies in (R359): a queue's deep segment, where a packet's number says which one it hit, or a grove's shadow ring, where a place
does, the oldest entry being 0. -/
inductive DeepPart where
  | queue (q : Fin 524800)
  | shadow (g : Fin 64)
  deriving DecidableEq, Repr

/-- One item of a mirror frame (R430). -/
inductive MirrorItem where
  | stand (i st serial flags wake : Nat)
  | delay (i eqd : Nat) (learned precoder : Bool) (preset : List Int)
  | digest (b v : Nat)
  | epoch (i e : Nat) (wrapped : Option Nat)
  | current (i e : Nat)
  | ceiling (slot v : Nat)
  | shared (k epoch : Nat) (wrapped : Option Nat)
  | sharedCur (k epoch : Nat)
  deriving DecidableEq, Repr

/-- A map entry as a mirror frame carries it (R430): the fields of R102 and the leaf runs of R103. -/
structure MirrorEntry where
  stand : Nat
  start : Nat
  len   : Nat
  cls   : Nat
  rpt   : Bool
  msg   : Bool
  runs  : List (Nat × Nat)
  deriving DecidableEq, Repr

/-- The per-grove part of a mirror frame (R430): delivered frame, replay mark, upstream frames committed, and the map entries of
the map sealed for the named frame as (stand, start, length, class, flags, runs). -/
structure MirrorGrove where
  g     : Nat
  d     : Nat
  mark  : Nat
  ud    : Nat
  frame : Nat
  map   : List MirrorEntry
  deriving DecidableEq, Repr

/-- A mirror frame as received over Plaxon west (R430): its tag, the sender's edge and role, the phase error that it measures, the core clock at which
it sealed the frame, its items, its groves, the end of the bulk transfer, the standby's readiness to swap, and the swap edge that the active proposes. -/
structure MirrorFrame where
  tag      : Nat
  n        : Nat
  active   : Bool
  phase    : Nat
  sealedAt : Nat
  items    : List MirrorItem
  groves   : List MirrorGrove
  bulk     : Bool
  ready    : Bool
  swap     : Option Nat
  deriving DecidableEq, Repr

/-- A pairing message from the mate (R428): `fail` says that a step has failed there, with the status. -/
inductive PairMsg where
  | req
  | identity (id grovesLo grovesHi : Nat) (modes : List (Nat × Nat × Nat))
  | publicValue (value : Nat)
  | confirm (tag : Nat) (inService : Bool) (sfc : Nat)
  | fail (status : Nat)
  deriving DecidableEq, Repr

/-- A result of an asynchronous change of a Plaxon port (R543): the port advances one state, or fails and returns to DETECT. -/
inductive PlaxonMove where
  | advance (polFound : Nat) (reversed : Bool)
  | fail
  deriving DecidableEq, Repr

/-- Where a register write of a host lands (R557): BAR0, the MSI-X table of BAR2, or the enables of PCIe configuration space. -/
inductive WriteTarget where
  | bar0
  | vecMask (vector : Fin 64)
  | funcMask
  | msixEnable
  | vfEnable
  deriving DecidableEq, Repr

/-- The causes for which a grove leaves service (R541). -/
inductive LeaveCause where
  | txDisabled | laneLost | safe | quiet | parked
  deriving DecidableEq, Repr

/-- The straps sampled at PORST_N (R499) and what start-up finds outside the device: whether the configuration flash answers (R510), the clock sources that the board
has beside the XO and the recovered lane clock (R480), and
the CXL ports trained at full width, with their capacities in GiB (R549). -/
structure Straps where
  devnum : Fin 64
  xoWait : Fin 8
  cfgSrc : Fin 4
  mateEn : Bool
  flash  : Bool
  cxl    : List (Nat × Bool × Nat)
  refs   : List (Fin 5) := []
  deriving DecidableEq, Repr

/-- A lookup that arrives over the cascade ring (R326): width code, first bank, bank mask, key bits, and the best result so far. -/
structure RingKey where
  width : Nat
  base  : Nat
  banks : Nat
  key   : Nat
  best  : Option RingHit
  deriving DecidableEq, Repr

/-- The commands. -/
inductive Instr where
  | commitEdge (e : EdgeIn)
  | grantComputationDone (g : Fin 64) (clk : Fin 187500)
  | mapFreeze
  | burstReceive (g : Fin 64) (entry : Nat) (rx : BurstIn)
  | discoveryAnswer (g : Fin 64)
  | rangingAttempt (i : Fin 16384)
  | rngFail (i : Fin 16384)
  | standAdmit (i : Fin 16384)
  | keyOffer
  | keyAnswer (g : Fin 64)
  | keyConfirm (g : Fin 64)
  | restRequest (g : Fin 64)
  | dyingGasp (g : Fin 64)
  | hostMsgRx (g : Fin 64)
  | restEntry (i : Fin 16384)
  | restWake (i : Fin 16384)
  | discTicksExpiry (i : Fin 16384)
  | rngTicksExpiry (i : Fin 16384)
  | reacqTicksExpiry (i : Fin 16384)
  | lostTicksExpiry (i : Fin 16384)
  | silenceTicksExpiry (i : Fin 16384)
  | tagSilence (i : Fin 16384)
  | reasmTimeout (b : Fin 65536)
  | pollDue (b : Fin 65536)
  | driftCorrection (i : Fin 16384)
  | presetLearned (i : Fin 16384)
  | presetRelearn (i : Fin 16384)
  | presetPinned (i : Fin 16384)
  | predPinned (b : Fin 65536)
  | queuePinned (q : Fin 524288)
  | offsetPinned (g : Fin 64)
  | trimPinned
  | rxPinned (lane : Fin 66)
  | rogue (g : Fin 64)
  | phaseExcess
  | alignSrcLost
  | tickInEdge (clk : Fin 187500)
  | clearing (g : Fin 64)
  | checkpointWrite (i : Fin 16384)
  | sfcCheckpoint
  | rekeyInterval (i : Fin 16384)
  | keyTicksExpiry (i : Fin 16384)
  | epochRetire (i : Fin 16384)
  | groupKeySwitch (k : Fin 576)
  | deregisterKeyErase (i : Fin 16384)
  | compatKeySwitch (i : Fin 16384)
  | serialNumberOnu (g : Fin 64) (frame : Nat) (pos : Nat) (serial : Nat) (delay : Nat) (mic : Nat)
  | keyReport (i : Fin 16384) (index : Fin 4) (wrapped : Nat) (mic : Nat)
  | ploamUnsupported (g : Fin 64) (ty : Nat)
  | omciRx (i : Fin 16384) (bytes : List Byte) (mic : Nat)
  | uplinkFrameRx (lane : Fin 64) (bytes : List Byte) (fcsOk : Bool)
  | packetPass (p : Fin 32) (inp : PassIn)
  | recircPass (p : Fin 32) (inp : PassIn)
  | cascadeTimeout (p : Fin 32)
  | cascadeKeyRx (k : RingKey)
  | learnEngine
  | stashReturn (bucket : Fin 262144)
  | bridgeAged (pos : Fin 2101248)
  | fragAged (k : Fin 8192)
  | lockExpired (t : Fin 4)
  | bankDrain
  | spillMove (q : Fin 524800)
  | returnMove (q : Fin 524800)
  | holdWrite (q : Fin 524288)
  | sectorFlush (i : Fin 16384)
  | holdReturn (i : Fin 16384) (poisoned : Bool)
  | shadowMove (q : Fin 524288)
  | shadowRelease (g : Fin 64)
  | replayMove (g : Fin 64)
  | bufferFree (tier : Fin 3) (pool : Fin 4) (buf gen : Nat) (source : Fin 64)
  | cacheRefill (tier : Fin 2) (requester : Fin 33) (pool : Fin 4)
  | uplinkPacketTx (lane : Fin 64)
  | flowPacketRx (f : Fin 256) (seq : Nat) (bytes : List Byte)
  | djSlip (f : Fin 256)
  | sliceDefectChange (s : Fin 2048)
  | pgFarRequest (pg : Fin 1024)
  | wtrExpiry (pg : Fin 1024)
  | mirrorFrameRx (m : MirrorFrame)
  | hbInEdge
  | plaxonSilent
  | pinSilent
  | takeover
  | takeoverWithdraw
  | offsetLearn
  | syncDone
  | pairTimeout
  | dsdPropose
  | dsdSwap
  | dsdRevert
  | timeMarkSend (g : Fin 64)
  | domainLost (x : Fin 2)
  | sampleRecord (p : Fin 32)
  | sourceLost (code : Fin 5)
  | sourceReady (code : Fin 5)
  | stoppedSourceEscape
  | linkUp (lane : Fin 64)
  | linkDown (lane : Fin 64)
  | linkRetry (lane : Fin 64)
  | groupMemberJoin (lane : Fin 64)
  | plaxonStateChange (p : Fin 2) (mv : PlaxonMove)
  | elasticErr (p : Fin 2)
  | holdTierDown (port : Fin 2)
  | holdTierUp (port : Fin 2)
  | deepUe (part : DeepPart) (k : Nat)
  | deepWithdrawn
  | hbmTrainDone (ok : Bool)
  | engEccFatal (g : Fin 64)
  | rngHealthFail
  | nearUe (q : Fin 524800) (hit : NearHit)
  | groveEnterService (g : Fin 64)
  | groveLeaveService (g : Fin 64) (cause : LeaveCause)
  | parkQuadrant (q : Fin 4)
  | unparkQuadrant (q : Fin 4)
  | enterQuiet
  | enterStandby
  | wake
  | porstNAssert
  | startUp (st : Straps)
  | perstN
  | functionLevelReset (f : Fin 16)
  | msixMessage (f : Fin 16) (v : Fin 64)
  | registerWrite (m : Fin 20) (target : WriteTarget) (addr : Fin 536870912) (value : Word) (be : Fin 16)
  | latchedRead (m : Fin 20) (addr : Fin 536870912) (be : Fin 16)
  | alignReq (m : Fin 20) (src : Fin 4)
  | stageHold (m : Fin 20)
  | stageRelease (m : Fin 20)
  | loopDelayWrite (m : Fin 20) (g : Fin 64) (t : Fin 16)
  | precoderEnable (m : Fin 20) (g : Fin 64) (value : Word)
  | rssiArm (m : Fin 20) (g : Fin 64) (value : Word)
  | capArm (m : Fin 20) (g : Fin 64) (value : Word)
  | clearNow (m : Fin 20) (g : Fin 64) (value : Word)
  | reRange (m : Fin 20) (g : Fin 64) (stand : Fin 256)
  | forget (m : Fin 20) (g : Fin 64) (stand : Fin 256)
  | relearn (m : Fin 20) (g : Fin 64) (stand : Fin 256)
  | admitCmd (m : Fin 20) (i : Fin 16384)
  | silence (m : Fin 20) (i : Fin 16384)
  | unsilence (m : Fin 20) (i : Fin 16384)
  | deregister (m : Fin 20) (i : Fin 16384)
  | hostMsgTx (m : Fin 20) (g : Fin 64) (stand : Fin 256)
  | msgTxDonePop (m : Fin 20) (g : Fin 64)
  | msgRxPop (m : Fin 20) (g : Fin 64)
  | stdMcastChange (i : Fin 16384)
  | boughBind (m : Fin 20) (b : Fin 65536) (value : Word)
  | forceOvr (m : Fin 20) (g : Fin 64)
  | modeSwitch (m : Fin 20) (g : Fin 64) (value : Word)
  | omciTx (m : Fin 20) (g : Fin 64) (value : Word)
  | omciRxPop (m : Fin 20) (g : Fin 64)
  | sliceEnable (m : Fin 20) (s : Fin 2048) (value : Word)
  | sliceConnect (m : Fin 20) (value : Word)
  | sliceDisconnect (m : Fin 20) (value : Word)
  | swapReq (m : Fin 20)
  | lockout (m : Fin 20) (pg : Fin 1024)
  | force (m : Fin 20) (pg : Fin 1024)
  | manual (m : Fin 20) (pg : Fin 1024)
  | clear (m : Fin 20) (pg : Fin 1024)
  | rsCopy (m : Fin 20)
  | rsSwap (m : Fin 20) (bank : Fin 2)
  | rsCopyDone
  | ringTailWrite (m : Fin 20) (r : Fin 16) (tail : Fin 65536)
  | read (r : Fin 16) (d : Desc)
  | write (r : Fin 16) (d : Desc)
  | delete (r : Fin 16) (d : Desc)
  | flush (r : Fin 16) (d : Desc)
  | insertBefore (r : Fin 16) (d : Desc)
  | search (r : Fin 16) (d : Desc)
  | lockAcquire (m : Fin 20) (t : Fin 4)
  | lockRelease (m : Fin 20) (t : Fin 4)
  | forceRelease (m : Fin 20) (t : Fin 4)
  | deferredDrain
  | winWrite (m : Fin 20) (addr : Fin 1048576)
  | winRead (m : Fin 20) (addr : Fin 1048576)
  | winInsertBefore (m : Fin 20) (addr : Fin 1048576)
  | bankWidthSet (m : Fin 20) (b : Fin 256) (value : Word)
  | casCtrlWrite (m : Fin 20) (value : Word)
  | poolPartition (m : Fin 20) (deep : Bool) (pool : Fin 4) (value : Word)
  | retrain (m : Fin 20)
  | replayMibWrite (m : Fin 20) (value : Word)
  | rekey (m : Fin 20) (i : Fin 16384)
  | unwrap (m : Fin 20) (value : Word)
  | erase (m : Fin 20) (value : Word)
  | seal (m : Fin 20) (value : Word)
  | openCmd (m : Fin 20) (value : Word)
  | hmac (m : Fin 20) (value : Word)
  | pub (m : Fin 20) (value : Word)
  | groupRekey (m : Fin 20) (value : Word)
  | pairReq (m : Fin 20)
  | unpair (m : Fin 20)
  | dsdNow (m : Fin 20)
  | dsdAnswer
  | timeSet (m : Fin 20) (x : Fin 2)
  | timeAdj (m : Fin 20) (x : Fin 2)
  | freqWrite (m : Fin 20) (x : Fin 2) (value : Word)
  | timeTxInject (m : Fin 20) (value : Word)
  | capPop (m : Fin 20)
  | clockSelect (m : Fin 20) (which : Fin 3) (value : Word)
  | resume (m : Fin 20)
  | restart (m : Fin 20)
  | reqStateWrite (m : Fin 20) (st : Fin 4)
  | parkMaskWrite (m : Fin 20) (mask : Fin 16)
  | flashRead (m : Fin 20) (len : Fin 512)
  | flashProgram (m : Fin 20) (len : Fin 512)
  | flashErase (m : Fin 20)
  | cfgCheck (m : Fin 20) (which : Fin 2)
  | portEnable (m : Fin 20) (lane : Fin 64) (value : Word)
  | txEqWrite (m : Fin 20) (lane : Fin 64) (value : Word)
  | loopbackTestWrite (m : Fin 20) (lane : Fin 64) (value : Word)
  | txEnWrite (m : Fin 20) (g : Fin 64) (value : Word)
  | plaxonEnable (m : Fin 20) (p : Fin 2) (value : Word)
  | intClaim (m : Fin 20) (f : Fin 16) (v : Fin 64)
  | intComplete (m : Fin 20) (f : Fin 16) (v : Fin 64) (src : Fin 4096)
  | intSrcWrite (m : Fin 20) (src : Fin 4096) (value : Word)
  | accWrite (m : Fin 20) (off : Fin 2048) (value : Word)
  | cntWinSel (m : Fin 20) (value : Word)
  | smpPop (m : Fin 20) (p : Fin 32)
  | pairingMessageRx (msg : PairMsg)
  | ponTxLaneReady (g : Fin 64)
  | flashOperationDone (ok : Bool)
  | keyCommandDone
  | ascWinCommandDone
  | casMiStateChange (up : Bool)
  | ploamRegistrationRx (i : Fin 16384) (ack : Bool) (mic : Nat)
  deriving DecidableEq, Repr

end Sys2Proof
end

