-- ==== Sys2Proof/Config.lean ====
section
/-!
DEFINITION. What the spec leaves to the implementation or to standards outside it: free values, randomness, ciphers and hashes, and the
counter directory's numbering. None of these has a body, so nothing can be proved about a value of theirs.
-/

namespace Sys2Proof.Config

/-- The free values that the device draws, one after the other: random numbers of the key engine (R397) and values that the spec leaves
undefined. -/
opaque freeValue : Nat → Nat

/-- AES-256-CMAC of RFC 4493 (R175): key, message, 128-bit result. -/
opaque cmac : Nat → List Byte → Nat

/-- AES-256-GCM (R396, R399): key, 96-bit IV, associated data, plaintext; ciphertext and 128-bit tag. -/
opaque gcmSeal : Nat → Nat → List Byte → List Byte → List Byte × Nat

/-- AES-256-GCM decryption (R402): key, IV, associated data, ciphertext; plaintext and the tag that it should carry. -/
opaque gcmOpen : Nat → Nat → List Byte → List Byte → List Byte × Nat

/-- XTS-AES-256 of IEEE 1619 (R349, R355): data key, tweak key, 16-byte tweak, data unit; the encrypted data unit. -/
opaque xts : Nat → Nat → List Byte → List Byte → List Byte

/-- The keystream of AES-256-CTR (R253): key and block number to a byte list of the given length. -/
opaque ctrStream : Nat → Nat → Nat → List Byte

/-- X25519 of RFC 7748 (R406): scalar and point. -/
opaque x25519 : Nat → Nat → Nat

/-- HKDF-SHA-256 of RFC 5869 (R406, R429): input key material, salt, info; 256-bit result. -/
opaque hkdf : List Byte → List Byte → List Byte → Nat

/-- HKDF-Expand with SHA-256 of RFC 5869, 32 bytes of output (R405): secret and info. -/
opaque hkdfExpand : Nat → List Byte → Nat

/-- HMAC-SHA-256 of RFC 2104 (R415, R515): key and message. -/
opaque hmac : Nat → List Byte → Nat

/-- The AES key wrap of RFC 3394 (R414, R430): wrapping key and key data to wrapped data. -/
opaque keyWrap : Nat → Nat → Nat

/-- The AES key unwrap of RFC 3394 (R414, R238): wrapping key and wrapped data to key data, none where the check fails. -/
opaque keyUnwrap : Nat → Nat → Option Nat

/-- The words of the counter directory (R588): family code, item, word 0 to 7. -/
opaque dirEntry : Nat → Nat → Nat → Nat

/-- The counter that an item of a family names (R588): family code and item to the number of a counter name of this model and its instance
inside the device family. -/
opaque itemCounter : Nat → Nat → Option (Nat × Nat)

/-- The device item of a drop counter (R588, R596): a counter name of this model and a pipeline to its item. -/
opaque dropItem : Nat → Nat → Nat

/-- The overhead of a compatibility-mode burst in leaves (R230), a function of the grove's burst profile. -/
opaque burstOverhead : Nat → Nat

/-- The bytes that a mirror frame seals (R430): the spec gives its items and no layout of them. -/
opaque mirrorText : MirrorFrame → List Byte

/-- The confirmation tag of a pairing (R428): the new frame key, the sender's identity, whether it has a grove in service, and its superframe counter. -/
opaque confirmTag : Nat → Nat → Bool → Nat → Nat

/-- The levels of PRBS13Q from its seed on, as IEEE 802.3 defines it (R93): the number of the symbol to +3, +1, −1 or −3. -/
opaque prbs13q : Nat → Int

/-- The tag of a keyed message whose stand's keys have gone, by grove, frame and position (log 97). -/
opaque lostTag : Nat → Nat → Nat → Nat

/-- What a slot of the slice region that no slice claims carries (R69): grove, frame and slot to its 64 bytes. The spec states no content. -/
opaque openSlot : Nat → Nat → Nat → List Byte

/-- A key that G.9804.2 derives from an ONU's master session key (R238): 0 the key-encryption key, 1 the PLOAM and 2 the OMCI integrity key. -/
opaque g9804Key : Nat → Nat → Nat

/-- The same by the default derivation of G.9804.2, from an ONU's serial number (R238). -/
opaque g9804Default : Nat → Nat → Nat

/-- The PLOAM integrity check of G.9804.2 (R231): key, message code, ONU-ID and the message's numbers. -/
opaque ploamMic : Nat → Nat → Nat → List Nat → Nat

/-- The OMCI integrity check (R237): key and message. -/
opaque omciMic : Nat → List Byte → Nat

/-- The XGEM payload encryption of G.9804.2 (R227): key, frame, XGEM Port-ID and payload; it is its own inverse. -/
opaque xgemCipher : Nat → Nat → Nat → List Byte → List Byte

/-- The downstream frame of G.9804.2 with its FEC and line coding (R229): grove, superframe number, allocation structures (Alloc-ID, start, length, burst profile), PLOAM
messages (code, ONU-ID, numbers, check), OMCI message with its Port-ID, and XGEM frames (Port-ID, key index, whether a packet ends, bytes). -/
opaque g9804Frame : Nat → Nat → List (Nat × Nat × Nat × Nat) → List (Nat × Nat × List Nat × Nat) → Option (Nat × List Byte) →
  List (Nat × Nat × Bool × List Byte) → List Byte

/-- What G.9804.2 makes of the symbols of an upstream burst (R227, R230): under a burst profile, which says whether FEC is on, at an upstream rate (true for 24.8832
Gbit/s), for a burst of a superframe that starts at a leaf; none where no burst is found. -/
opaque g9804Burst : Nat → Bool → Nat → Nat → RawBurst → Option RxBurst

/-- Units of the BWmap fields of G.9804.2 in a leaf (R230), for 12.4416 Gbit/s (0) and 24.8832 Gbit/s (1). -/
opaque bwmapUnits : Nat → Nat

/-- Bytes that one unit of a DBRu report of G.9804.2 stands for (R236). -/
opaque dbruBytes : Nat

/-- Payload bytes of a compatibility-mode downstream frame (R229), by its allocation structures and its PLOAM messages: what G.9804.2 leaves beside
its header, its check bits and the frame's own overhead. -/
opaque compatRegion : Nat → Nat → Nat

/-- The subType that IEEE 1914.3 assigns to structure-agnostic data (R266). -/
opaque roeSubType : Nat

/-- The identity of the device's root key, fixed at manufacture (R405): the root scalar. -/
opaque rootScalar : Nat

/-- What the receive equalizer of a lane (0 to 63 uplink) has adapted to in a tick, before its bounds (R538): its two numbers in one. -/
opaque laneEq : Nat → Nat → Nat

/-- Single-bit errors that a grant engine lane has corrected in its working memory during a computation (R216): grove and tick. -/
opaque eccCorr : Nat → Nat → Nat

/-- Symbol errors that a lane's checker has met in a tick up to a core clock (R546): class of lane (0 uplink, 1 PON), lane and core clock since tick 0. -/
opaque laneErr : Nat → Nat → Nat → Nat

/-- How often an event that no command delivers has happened in a tick up to a core clock: the number of its counter's name, what it is counted for, and the
core clock since tick 0. These are corrected bit errors (R358, R359), transmit taps at their limit (R539) and fillers deleted and inserted (R544). -/
opaque ambient : Nat → Nat → Nat → Nat

/-- Whether a grove's burst-receive lane detects signal (R114), by grove and core clock: 1 where it does. -/
opaque sigDetect : Nat → Nat → Nat

/-- The width and speed to which the PCIe link has trained (R548), as LANE_PCIE_STATUS shows them. -/
opaque pcieLink : Nat

end Sys2Proof.Config
end

