-- ==== Sys2Proof/Machine/Line.lean ====
section
/-!
DEFINITION. The line codes of the Siltus layer: bytes and numbers, CRC-32C and CRC-16 (R66, R95), the encapsulation header
and its check (R71, R72), the frame header (R66), the line code RS(1024,928) (R61), the burst header code RS(48,32) (R96),
the scrambler (R62, R97), PAM4 mapping and precoding (R63), the delimiter (R94), and the capacity of a burst (R92).
-/

namespace Sys2Proof.Machine

/-- A number as `n` bytes, most significant byte first. -/
def toBytesBE : Nat → Nat → List Byte
  | 0, _ => []
  | n + 1, v => toBytesBE n (v / 256) ++ [BitVec.ofNat 8 v]

/-- Bytes, most significant first, as a number. -/
def ofBytesBE (bs : List Byte) : Nat := bs.foldl (fun a b => a * 256 + b.toNat) 0

/-- A number as `n` bytes, least significant byte first. -/
def toBytesLE : Nat → Nat → List Byte
  | 0, _ => []
  | n + 1, v => BitVec.ofNat 8 v :: toBytesLE n (v / 256)

/-- Bytes, least significant first, as a number. -/
def ofBytesLE (bs : List Byte) : Nat := bs.foldr (fun b a => a * 256 + b.toNat) 0

/-- `n` zero bytes. -/
def zeroBytes (n : Nat) : List Byte := List.replicate n 0#8

/-- Bytes padded with zeros, or cut, to `n` bytes. -/
def padTo (n : Nat) (bs : List Byte) : List Byte := (bs ++ zeroBytes n).take n

/-- One bit step of the reflected CRC-32C register. -/
def crc32cBit (c : Nat) : Nat :=
  if c % 2 = 1 then Nat.xor (c / 2) 0x82F63B78 else c / 2

/-- One byte through the reflected CRC-32C register. -/
def crc32cByte (c : Nat) (b : Byte) : Nat :=
  let x := Nat.xor c b.toNat
  crc32cBit (crc32cBit (crc32cBit (crc32cBit (crc32cBit (crc32cBit (crc32cBit (crc32cBit x)))))))

/-- CRC-32C as defined for iSCSI in RFC 3720 (R66). -/
def crc32c (bs : List Byte) : Nat :=
  Nat.xor (bs.foldl crc32cByte 0xFFFFFFFF) 0xFFFFFFFF

/-- One bit step of the reflected CRC-32 register of IEEE 802.3. -/
def crc32Bit (c : Nat) : Nat :=
  if c % 2 = 1 then Nat.xor (c / 2) 0xEDB88320 else c / 2

/-- One byte through it. -/
def crc32Byte (c : Nat) (b : Byte) : Nat :=
  let x := Nat.xor c b.toNat
  crc32Bit (crc32Bit (crc32Bit (crc32Bit (crc32Bit (crc32Bit (crc32Bit (crc32Bit x)))))))

/-- The frame check sequence of an Ethernet frame (R276), as IEEE 802.3 defines it. -/
def fcs (bs : List Byte) : Nat := Nat.xor (bs.foldl crc32Byte 0xFFFFFFFF) 0xFFFFFFFF

/-- An Ethernet frame with its FCS behind it, in the order in which its bytes leave. -/
def withFcs (bs : List Byte) : List Byte := bs ++ toBytesLE 4 (fcs bs)

/-- One bit step of the CRC-16 register of R95. -/
def crc16Bit (c : Nat) : Nat :=
  if 0x8000 ≤ c then Nat.xor (c * 2 % 0x10000) 0x1021 else c * 2 % 0x10000

/-- One byte through the CRC-16 register of R95, most significant bit first. -/
def crc16Byte (c : Nat) (b : Byte) : Nat :=
  let x := Nat.xor c (b.toNat * 256)
  crc16Bit (crc16Bit (crc16Bit (crc16Bit (crc16Bit (crc16Bit (crc16Bit (crc16Bit x)))))))

/-- The header CRC of a burst (R95): x^16 + x^12 + x^5 + 1, initial 0xFFFF, no reflection, no final XOR. -/
def crc16 (bs : List Byte) : Nat := bs.foldl crc16Byte 0xFFFF

/-! ### The encapsulation header (R71 to R73) -/

/-- One bit of the division of R72 by x^12 + x^10 + x^8 + x^5 + x^4 + x^3 + 1. -/
def bchStep (r : Nat) (b : Bool) : Nat :=
  let t := r * 2 + b.toNat
  if 0x1000 ≤ t then Nat.xor t 0x1539 else t

/-- The top `n` bits below bit `n` of a number, most significant first. -/
def bitsMSB : Nat → Nat → List Bool
  | 0, _ => []
  | n + 1, v => (v / 2 ^ n % 2 == 1) :: bitsMSB n v

/-- hec_bch of R72: the remainder of i(x)·x^12, where i(x) is the 51 bits 63:13. -/
def hecBch (info : Nat) : Nat :=
  (bitsMSB 63 (info * 2 ^ 12)).foldl bchStep 0

/-- The parity of the ones of a 64-bit word. -/
def parity64 (w : Nat) : Nat := (bitsMSB 64 w).foldl (fun a b => (a + b.toNat) % 2) 0

/-- The fields of an encapsulation header that carry information (R71). -/
structure EncapHdr where
  bough    : Nat
  len      : Nat
  last     : Bool
  keyIndex : Nat
  options  : Nat
  deriving DecidableEq, Repr

/-- The 64-bit word of an encapsulation header (R71, R72). -/
def encapWord (h : EncapHdr) : Nat :=
  let info := h.bough % 2 ^ 16 * 2 ^ 35 + h.len % 2 ^ 14 * 2 ^ 21 + h.last.toNat * 2 ^ 20
    + h.keyIndex % 4 * 2 ^ 18 + h.options % 8 * 2 ^ 15
  let w := info * 2 ^ 13 + hecBch info * 2
  w + parity64 w

/-- A word passes the header check with no error (R72). -/
def hecOk (w : Nat) : Bool :=
  hecBch (w / 2 ^ 13) == w / 2 % 2 ^ 12 && parity64 w == 0

/-- The fields of a header word. -/
def encapOf (w : Nat) : EncapHdr :=
  ⟨w / 2 ^ 48 % 2 ^ 16, w / 2 ^ 34 % 2 ^ 14, w / 2 ^ 33 % 2 == 1, w / 2 ^ 31 % 4, w / 2 ^ 28 % 8⟩

/-- The first single-bit correction of a header word, counting bits down from `n`. -/
def hecFix1 (w : Nat) : Nat → Option Nat
  | 0 => none
  | n + 1 => if hecOk (Nat.xor w (2 ^ n)) then some (Nat.xor w (2 ^ n)) else hecFix1 w n

/-- A correction of a header word by two bits, the higher of them below bit `n`. -/
def hecFix2 (w : Nat) : Nat → Option Nat
  | 0 => none
  | n + 1 =>
    match hecFix1 (Nat.xor w (2 ^ n)) n with
    | some v => some v
    | none => hecFix2 w n

/-- Read a header word: the header and whether bits were corrected (R72 corrects any two errors). -/
def hecRead (w : Nat) : Option (EncapHdr × Bool) :=
  if hecOk w then some (encapOf w, false)
  else match hecFix1 w 64 with
    | some v => some (encapOf v, true)
    | none =>
      match hecFix2 w 64 with
      | some v => some (encapOf v, true)
      | none => none

/-- A fragment on the line: its header, then its payload padded with zeros to a multiple of 8 (R70). -/
def fragBytes (h : EncapHdr) (payload : List Byte) : List Byte :=
  toBytesBE 8 (encapWord h) ++ padTo ((payload.length + 7) / 8 * 8) payload

/-- The data-stream bytes of a fragment with `n` payload bytes (R70). -/
def fragSpan (n : Nat) : Nat := 8 + (n + 7) / 8 * 8

/-- The data-stream bytes of a packet of `s` bytes (R74). -/
def packetSpan (encrypted : Bool) (s : Nat) : Nat :=
  if encrypted then fragSpan (s + 22) else fragSpan s

/-- The header of an idle fragment (R70, R71, R73): bough 0, clear, options 0b001. That it ends its packet is the model's choice (DESIGN CHOICE, log 90). -/
def idleHdr (n : Nat) : EncapHdr := { bough := 0, len := n, last := true, keyIndex := 0, options := 1 }

/-- The idle fragments that fill a gap (R70): the longest ones, then one for the rest, which may carry no payload. -/
def idleChain (gap : Nat) : List EncapHdr :=
  List.replicate (gap / 16392) (idleHdr 16383) ++ (if gap % 16392 < 8 then [] else [idleHdr (gap % 16392 - 8)])

/-- The data-stream bytes of idle fragments. -/
def idleSpan (hs : List EncapHdr) : Nat := (hs.map (fun h => fragSpan h.len)).sum

/-! ### The downstream frame header (R66) -/

/-- psync of R66. -/
def psync : Nat := 0xB4E31D692CF80A57

/-- Bytes 8 to 27 of the data stream of a frame (R66). -/
def frameHeaderBody (n mapWords msgCount : Nat) (precoder : Bool) (slots grove : Nat) : List Byte :=
  toBytesBE 6 (Nat.xor (n % 2 ^ 48) 0xA5C396F05A3C) ++ toBytesBE 2 mapWords ++ toBytesBE 1 msgCount
    ++ toBytesBE 1 (precoder.toNat * 128) ++ toBytesBE 2 slots ++ toBytesBE 1 grove ++ toBytesBE 1 1
    ++ zeroBytes 6

/-- The first 32 data-stream bytes of a frame (R66). -/
def frameHeader (n mapWords msgCount : Nat) (precoder : Bool) (slots grove : Nat) : List Byte :=
  let body := frameHeaderBody n mapWords msgCount precoder slots grove
  toBytesBE 8 psync ++ body ++ toBytesBE 4 (crc32c body)

/-- Offset M of the line messages (R65). -/
def offsetM (mapWords : Nat) : Nat := 32 + 8 * ((mapWords + 1) / 2)

/-- Offset S of the slice region (R65). -/
def offsetS (mapWords msgCount : Nat) : Nat := offsetM mapWords + 64 * msgCount

/-- Offset P of the payload region (R65). -/
def offsetP (mapWords msgCount slots : Nat) : Nat := offsetS mapWords msgCount + 64 * slots

/-- The data stream of a frame in bytes (R60). -/
def dataStreamBytes : Nat := 2900000

/-! ### Reed-Solomon codes (R61, R96) -/

/-- Multiplication by α in GF(2^m) with the given reduction polynomial. -/
def gfDouble (m poly a : Nat) : Nat :=
  if 2 ^ m ≤ a * 2 then Nat.xor (a * 2) poly else a * 2

/-- Multiplication in GF(2^m), by the low `k` bits of `b`. -/
def gfMulAux (m poly : Nat) : Nat → Nat → Nat → Nat
  | 0, _, _ => 0
  | k + 1, a, b =>
    Nat.xor (if b % 2 = 1 then a else 0) (gfMulAux m poly k (gfDouble m poly a) (b / 2))

/-- Multiplication in GF(2^m). -/
def gfMul (m poly a b : Nat) : Nat := gfMulAux m poly m a b

/-- α^k in GF(2^m). -/
def gfPow (m poly : Nat) : Nat → Nat
  | 0 => 1
  | k + 1 => gfDouble m poly (gfPow m poly k)

/-- A polynomial, highest coefficient first, times (x − α^i). -/
def polyMulRoot (m poly root : Nat) (p : List Nat) : List Nat :=
  List.zipWith Nat.xor (p ++ [0]) (0 :: p.map (gfMul m poly root))

/-- g(x) = (x − α^0)…(x − α^(n−1)), highest coefficient first. -/
def rsGenerator (m poly : Nat) : Nat → List Nat
  | 0 => [1]
  | n + 1 => polyMulRoot m poly (gfPow m poly n) (rsGenerator m poly n)

/-- One message symbol through the systematic encoder; `g` is the generator without its leading 1. -/
def rsStep (m poly : Nat) (g : List Nat) (r : List Nat) (s : Nat) : List Nat :=
  let f := Nat.xor s (r.headD 0)
  List.zipWith Nat.xor (r.tail ++ [0]) (g.map (gfMul m poly f))

/-- The parity symbols of a message. -/
def rsParity (m poly n : Nat) (msg : List Nat) : List Nat :=
  msg.foldl (rsStep m poly (rsGenerator m poly n).tail) (List.replicate n 0)

/-- Split bits into groups of `m`, each a number, most significant bit first. -/
def groupBits (m : Nat) : Nat → List Bool → List Nat
  | 0, _ => []
  | k + 1, bs => ((bs.take m).foldl (fun a b => a * 2 + b.toNat) 0) :: groupBits m k (bs.drop m)

/-- The 1,280-byte line codeword of 1,160 data bytes, as bits (R61). -/
def codewordBits (data : List Byte) : List Bool :=
  let bits := data.flatMap (fun b => bitsMSB 8 b.toNat)
  bits ++ (rsParity 10 0x409 96 (groupBits 10 928 bits)).flatMap (bitsMSB 10)

/-- The 16 parity bytes of the burst header code RS(48,32) (R96). -/
def headerParity (info : List Byte) : List Byte :=
  (rsParity 8 0x11D 16 (info.map BitVec.toNat)).map (BitVec.ofNat 8)

/-! ### Scrambling, PAM4 and the delimiter (R62, R63, R94, R97) -/

/-- One output bit of the generator x^58 + x^39 + 1 and the next state (R62). -/
def scrambleBit (st : Nat) : Bool × Nat :=
  let out := st / 2 ^ 57 % 2
  let fb := Nat.xor out (st / 2 ^ 38 % 2)
  (out == 1, (st * 2 + fb) % 2 ^ 58)

/-- Scramble bits from a state. -/
def scramble : Nat → List Bool → List Bool
  | _, [] => []
  | st, b :: t => let p := scrambleBit st; (Bool.xor b p.1) :: scramble p.2 t

/-- The seed of downstream frame n (R62). -/
def downSeed (n : Nat) : Nat := 0x2B3 * 2 ^ 48 + n % 2 ^ 48

/-- The seed of a burst at `start` of upstream frame k (R97). -/
def upSeed (k start : Nat) : Nat := 0x3C6 * 2 ^ 48 + k % 2 ^ 32 * 2 ^ 16 + start % 2 ^ 16

/-- The Gray index of a pair of bits, the earlier first (R63). -/
def grayIndex (a b : Bool) : Nat :=
  match a, b with
  | false, false => 0
  | false, true => 1
  | true, true => 2
  | true, false => 3

/-- Bits to PAM4 levels, precoded or not, from the previous symbol index (R63). -/
def pam4 (precoder : Bool) : Nat → List Bool → List Int
  | prev, a :: b :: t =>
    let g := grayIndex a b
    let p := if precoder then (g + 4 - prev) % 4 else g
    (2 * (p : Int) - 3) :: pam4 precoder p t
  | _, _ => []

/-- Cut a data stream into blocks of 1,160 bytes. -/
def blocks1160 : Nat → List Byte → List (List Byte)
  | 0, _ => []
  | k + 1, bs => bs.take 1160 :: blocks1160 k (bs.drop 1160)

/-- The transmit chain of R63: the PAM4 levels of frame n from its data stream. -/
def transmitChain (n : Nat) (precoder : Bool) (data : List Byte) : List Int :=
  let bits := (blocks1160 2500 data).flatMap codewordBits
  pam4 precoder 0 (bits.take 112 ++ scramble (downSeed n) (bits.drop 112))

/-- The delimiter pattern of R94, bit 0 leftmost. -/
def delimiterPattern : Nat := 0x8218A7A392DD9ABE

/-- Bytes of a part of the line, cut to whole bytes, from its bits. -/
def bytesOfBits (k : Nat) (bs : List Bool) : List Byte := (groupBits 8 k bs).map (BitVec.ofNat 8)

/-! ### Burst arithmetic (R91 to R93, R98, R99) -/

/-- Preamble leaves of a class (R93). -/
def preambleLeaves (cls : Nat) : Nat :=
  if cls = 0 then 4 else if cls = 1 then 16 else if cls = 2 then 32 else 64

/-- Leaves of a twig outside its payload: guard, delimiter leaf and preamble (R91). -/
def twigOverhead (cls : Nat) : Nat := 3 + preambleLeaves cls

/-- The data capacity D of a payload of `p` leaves (R92). -/
def burstCapacity (p : Nat) : Nat :=
  1160 * (p / 20) + (if p % 20 = 0 then 0 else 64 * (p % 20) - 120)

/-- A payload length that R92 allows: 0 or at least 2, with no shortened codeword of one leaf. -/
def payloadOk (p : Nat) : Bool := p == 0 || (decide (2 ≤ p) && !(p % 20 == 1))

end Sys2Proof.Machine
end

