-- ==== Sys2Proof/Machine/Receive.lean ====
section
/-!
DEFINITION. The burst receiver from decided symbols on (R92 to R97, R108, R109): Reed-Solomon decoding, preamble lock, the delimiter search, descrambling, and the
header and codewords of a burst.
-/

namespace Sys2Proof.Machine

/-! ### Reed-Solomon decoding (R61, R92, R96) -/

/-- The inverse in GF(2^m): a^(2^m − 2), the product of a^2, a^4, … a^(2^(m−1)). -/
def gfInv (m poly a : Nat) : Nat :=
  ((List.range (m - 1)).foldl (fun (p : Nat × Nat) _ => let q := gfMul m poly p.2 p.2; (gfMul m poly p.1 q, q)) (1, a)).1

/-- The value of a polynomial, highest coefficient first, at a point. -/
def polyEval (m poly : Nat) (p : List Nat) (x : Nat) : Nat := p.foldl (fun a s => Nat.xor (gfMul m poly a x) s) 0

/-- The syndromes of a received word at α^0 to α^(n−1). -/
def rsSyndromes (m poly n : Nat) (word : List Nat) : List Nat := (List.range n).map (fun i => polyEval m poly word (gfPow m poly i))

/-- The state of the Berlekamp-Massey iteration: the locator and the former one, lowest coefficient first, its length, the shift and the former discrepancy. -/
structure Massey where
  c : List Nat
  b : List Nat
  l : Nat
  m : Nat
  d : Nat
  deriving DecidableEq, Repr

/-- c + f·x^k·b. -/
def polyAddShift (m poly : Nat) (c b : List Nat) (f k : Nat) : List Nat :=
  let s := List.replicate k 0 ++ b.map (gfMul m poly f)
  (List.range (max c.length s.length)).map (fun i => Nat.xor (c.getD i 0) (s.getD i 0))

/-- One syndrome more; `past` lists those taken, the newest first. -/
def masseyStep (m poly : Nat) (x : Massey × List Nat) (s : Nat) : Massey × List Nat :=
  let y := x.1
  let past := s :: x.2
  let d := ((y.c.take (y.l + 1)).zip past).foldl (fun a p => Nat.xor a (gfMul m poly p.1 p.2)) 0
  let next := if d = 0 then { y with m := y.m + 1 }
    else
      let c := polyAddShift m poly y.c y.b (gfMul m poly d (gfInv m poly y.d)) y.m
      if 2 * y.l ≤ x.2.length then { c := c, b := y.c, l := x.2.length + 1 - y.l, m := 1, d := d } else { y with c := c, m := y.m + 1 }
  (next, past)

/-- The error locator of some syndromes, lowest coefficient first, and its length. -/
def rsLocator (m poly : Nat) (syn : List Nat) : List Nat × Nat :=
  let y := (syn.foldl (masseyStep m poly) ({ c := [1], b := [1], l := 0, m := 1, d := 1 }, [])).1
  (y.c.take (y.l + 1), y.l)

/-- The value of a polynomial, lowest coefficient first. -/
def polyEvalLow (m poly : Nat) (p : List Nat) (x : Nat) : Nat := polyEval m poly p.reverse x

/-- The error at the symbol whose locator is `x`: x·Ω(1/x)/Λ'(1/x). -/
def rsErrorAt (m poly : Nat) (loc omega : List Nat) (x : Nat) : Nat :=
  let y := gfInv m poly x
  let deriv := loc.tail.zipIdx.map (fun p => if p.2 % 2 = 0 then p.1 else 0)
  gfMul m poly (gfMul m poly x (polyEvalLow m poly omega y)) (gfInv m poly (polyEvalLow m poly deriv y))

/-- Decode a word of a Reed-Solomon code with `n` parity symbols, the highest coefficient first: the corrected word and how many symbols were corrected; none
where more than half of `n` symbols are wrong. -/
def rsDecode (m poly n : Nat) (word : List Nat) : Option (List Nat × Nat) :=
  let syn := rsSyndromes m poly n word
  if syn.all (· == 0) then some (word, 0)
  else
    let (loc, l) := rsLocator m poly syn
    let omega := (List.range n).map (fun i => (List.range (i + 1)).foldl (fun a j => Nat.xor a (gfMul m poly (loc.getD j 0) (syn.getD (i - j) 0))) 0)
    let err := word.zipIdx.map (fun p =>
      let x := gfPow m poly (word.length - 1 - p.2)
      if polyEvalLow m poly loc (gfInv m poly x) = 0 then rsErrorAt m poly loc omega x else 0)
    let fixed := List.zipWith Nat.xor word err
    if 2 * l ≤ n ∧ err.countP (fun e => e != 0) = l ∧ (rsSyndromes m poly n fixed).all (· == 0) then some (fixed, l) else none

/-- Decode the 48 bytes of a burst header (R96): its 32 information bytes, where at most 8 bytes are wrong. -/
def headerDecode (bs : List Byte) : Option (List Byte) :=
  (rsDecode 8 0x11D 16 (bs.map BitVec.toNat)).map (fun r => (r.1.take 32).map (BitVec.ofNat 8))

/-- A codeword as sent, from its data (R92): the last 512·L bits of a full codeword whose first bits are zero; L is 20 for a full one. -/
def codewordSent (l : Nat) (data : List Byte) : List Bool :=
  (codewordBits (zeroBytes (1280 - 64 * l) ++ data)).drop (8 * (1280 - 64 * l))

/-- Decode a codeword of L leaves (R61, R92): up to 48 symbols are corrected. A correction that falls into the bits that were not sent is none (DEDUCED, log 91).
What cannot be corrected keeps its bits as they were received (R252). -/
def codewordDecode (l : Nat) (bits : List Bool) : CwRx :=
  let unsent := 8 * (1280 - 64 * l)
  let lost : CwRx := { info := none, fixed := 0, raw := (bytesOfBits (64 * l) bits).take (64 * l - 120) }
  match rsDecode 10 0x409 96 (groupBits 10 1024 (List.replicate unsent false ++ bits)) with
  | some (word, n) =>
    let info := bytesOfBits 1160 ((word.take 928).flatMap (bitsMSB 10))
    if (info.take (1280 - 64 * l)).all (· == 0#8) then { info := some (info.drop (1280 - 64 * l)), fixed := n } else lost
  | none => lost

/-! ### What a burst consists of (R91, R93, R94) -/

/-- The leaves of the codewords of a payload of `p` leaves (R92). -/
def cwLeaves (p : Nat) : List Nat := List.replicate (p / 20) 20 ++ (if p % 20 = 0 then [] else [p % 20])

/-- Symbol `i` of a preamble of `n` leaves (R93): the tone of leaves 0 and 1, then PRBS13Q. -/
def preambleSymbol (i : Nat) : Int :=
  if i < 512 then (if i % 4 < 2 then 3 else -3) else Config.prbs13q (i - 512)

/-- The symbols of a preamble of a class (R93). -/
def preamble (cls : Nat) : List Int := (List.range (256 * preambleLeaves cls)).map preambleSymbol

/-- Symbol `i` of the delimiter pattern (R94): bit 0 is the leftmost. -/
def delimiterSymbol (i : Nat) : Int := if delimiterPattern.testBit (63 - i) then 3 else -3

/-- The delimiter's symbols. -/
def delimiter : List Int := (List.range 64).map delimiterSymbol

/-- A burst as its terminal builds it, from the first preamble symbol on (R91 to R97): upstream frame, start leaf, class, information bytes of the header with
its CRC, payload leaves and the data of each codeword. -/
def burstLine (k start cls : Nat) (precoder : Bool) (info : List Byte) (p : Nat) (data : List (List Byte)) : List Int :=
  let bits := (info ++ headerParity info).flatMap (fun b => bitsMSB 8 b.toNat) ++ ((cwLeaves p).zip data).flatMap (fun x => codewordSent x.1 x.2)
  preamble cls ++ delimiter ++ pam4 precoder 0 (scramble (upSeed k start) bits)

/-! ### Lock, search and decoding (R108, R109, R97) -/

/-- The decided symbol at a position. -/
def rawAt (r : RawBurst) (x : Int) : Option Int := if r.start ≤ x then r.levels[(x - r.start).toNat]? else none

/-- How many of the symbols from a position on are not the expected ones. -/
def rawDiffer (r : RawBurst) (x : Int) (want : Nat → Int) (n : Nat) : Nat := (List.range n).countP (fun (i : Nat) => !(rawAt r (x + (i : Int)) == some (want i)))

/-- Where the preamble locks, if the delimiter leaf begins at `s` (R108): behind the first 128 PRBS13Q symbols with at most 4 errors after the clock recovery has
locked on the tone. `fresh` is where a suspension ends, behind which the whole lock has to be reached (R134). -/
def rawLockFor (fresh : Option Int) (r : RawBurst) (cls : Nat) (s : Int) : Option Int :=
  let n := 256 * (preambleLeaves cls - 2)
  match r.tone.filter (fun t => match fresh with | some f => decide (f ≤ t) | none => true) with
  | none => none
  | some t =>
    ((List.range (n - 127)).find? (fun (j : Nat) => decide (t ≤ s - n + j) && decide (rawDiffer r (s - n + (j : Int)) (fun (i : Nat) => Config.prbs13q (j + i)) 128 ≤ 4))).map
      (fun (j : Nat) => s - n + j + 128)

/-- The positions of a window. -/
def searchAt (lo : Int) (n : Nat) : List Int := (List.range n).map (fun (k : Nat) => lo + k)

/-- Where the preamble locks within a window of delimiter positions. The expected sequence of R108 is laid to the positions that the search covers: a burst that is well
formed but lies outside its window reaches no lock, and ends as no_lock and not as delim_miss (DESIGN CHOICE, log 91). -/
def rawLock (fresh : Option Int) (r : RawBurst) (cls : Nat) (ws : List Int) : Option Int := (ws.filterMap (rawLockFor fresh r cls)).min?

/-- A position matches the delimiter: at most 6 decided symbols differ (R109). -/
def rawDelim (r : RawBurst) (x : Int) : Bool := decide (rawDiffer r x delimiterSymbol 64 ≤ 6)

/-- The bits of decided levels (R63): the Gray pair of each index, behind the precoder's inverse where it is on. -/
def levelBits (precoder : Bool) : Nat → List Int → List Bool
  | _, [] => []
  | prev, v :: vs =>
    let p := ((v + 3) / 2).toNat % 4
    let g := if precoder then (p + prev) % 4 else p
    (if g = 0 then [false, false] else if g = 1 then [false, true] else if g = 2 then [true, true] else [true, false]) ++ levelBits precoder p vs

/-- Cut a burst's payload bits into its codewords and decode them. -/
def decodeCws : List Nat → List Bool → List CwRx
  | [], _ => []
  | l :: ls, bits => codewordDecode l (bits.take (512 * l)) :: decodeCws ls (bits.drop (512 * l))

/-- What a burst receiver makes of decided symbols, for a twig of upstream frame `k` that starts at leaf `start`, of a class and `p` payload leaves, whose
delimiter is searched at the positions `ws` (R97, R108, R109), with the lock reached behind `fresh` where that is given (R134). -/
def rawReceive (fresh : Option Int) (r : RawBurst) (k start cls p : Nat) (precoder : Bool) (ws : List Int) : RxBurst :=
  let none_ : RxBurst := { locked := false, pos := none, header := none, cws := [], eq := none, reports := [], sdus := [] }
  match rawLock fresh r cls ws with
  | none => none_
  | some at_ =>
    match ws.find? (fun x => decide (at_ ≤ x) && rawDelim r x) with
    | none => { none_ with locked := true }
    | some x =>
      let levels := (List.range (192 + 256 * p)).map (fun (i : Nat) => (rawAt r (x + 64 + i)).getD 0)
      let bits := scramble (upSeed k start) (levelBits precoder 0 levels)
      { none_ with locked := true, pos := some x, eq := r.eq
                   header := headerDecode (bytesOfBits 48 (bits.take 384)), cws := decodeCws (cwLeaves p) (bits.drop 384) }

end Sys2Proof.Machine
end

