-- ==== Sys2Proof/Machine/MapTypes.lean ====
section
/-!
DEFINITION. The types of upstream maps (R102, R103): entries, leaf runs, sealed and computed maps.
-/

namespace Sys2Proof.Machine

/-! ### Upstream maps (spec files 04 and 07) -/

/-- The kinds of map entry. -/
inductive TwigKind where
  /-- an ordinary twig of R211 -/
  | ordinary
  /-- a ranging grant of R140 -/
  | rangingGrant
  /-- a ranging twig of R148 -/
  | rangingTwig
  /-- a slice twig of an upstream slice -/
  | slice (s : Nat)
  /-- the discovery entry of R127, or the serial-number grant of R233 -/
  | discovery
  deriving DecidableEq, Repr

/-- A leaf run (R103): the bough index, its payload leaves with the pad, the bough the engine granted and the leaves granted. -/
structure Run where
  idx     : Nat
  len     : Nat
  bough   : Nat
  granted : Nat
  deriving DecidableEq, Repr

/-- An entry of an upstream map (R102). -/
structure MapEntry where
  kind  : TwigKind
  stand : Nat
  start : Nat
  len   : Nat
  cls   : Nat
  rpt   : Bool
  msg   : Bool
  runs  : List Run
  /-- a later part of a twig split at a slice twig (R214) -/
  part  : Bool := false
  deriving DecidableEq, Repr

/-- How a sealed map came about. -/
inductive MapKind where
  | engine | fallback | clearing | empty | mirror
  deriving DecidableEq, Repr

/-- A map sealed for an upstream frame (R49). `got` lists the entries whose burst has ended in an outcome. -/
structure SealedMap where
  frame   : Nat
  kind    : MapKind
  entries : List MapEntry
  got     : List Nat
  /-- T_loop in force for the frame (R44) -/
  tloop   : Nat
  /-- the precoder is on for the frame's bursts (R63, R97) -/
  precoder : Bool
  deriving DecidableEq, Repr

/-- What the engine keeps with a computed map until it is sealed: the entries, per-bough grants and counts. -/
structure BuiltMap where
  frame   : Nat
  entries : List MapEntry
  deriving DecidableEq, Repr

end Sys2Proof.Machine
end

