-- ==== Sys2Proof/Machine/Engine.lean ====
section
/-!
DEFINITION. The grant engine as pure functions (spec file 07, R200 to R214): twig wants and rotation, the six allocation
steps, the building of twigs, and their placement in the frame. The state is read and written in Grant.lean.
-/

namespace Sys2Proof.Machine

/-- The four types of R194. -/
inductive BoughType where
  | fixed | assured | surplus | best
  deriving DecidableEq, Repr

/-- A code of BGH_CTRL.type. -/
def BoughType.ofCode (n : Nat) : BoughType :=
  if n = 0 then .fixed else if n = 1 then .assured else if n = 2 then .surplus else .best

/-- What the engine reads of one bough, and what it has granted to it in this tick by steps. -/
structure EngBough where
  id       : Nat
  idx      : Nat
  ty       : BoughType
  cls      : Nat
  weight   : Nat
  spread   : Nat
  fixedPos : Bool
  entFixed : Nat
  entAssur : Nat
  entMax   : Nat
  request  : Nat
  pollDue  : Bool
  pollLv   : Nat
  predEn   : Bool
  predCeil : Nat
  rateE    : Nat
  hadGrant : Bool
  g1 : Nat
  g2 : Nat
  g3 : Nat
  g4 : Nat
  g5 : Nat
  g6 : Nat
  /-- step 6 visited the bough -/
  seen6 : Bool
  /-- pred_ceiling cut its top-up (R207) -/
  cut6  : Bool
  deriving DecidableEq, Repr

/-- Leaves granted to a bough so far in the tick. -/
def EngBough.granted (b : EngBough) : Nat := b.g1 + b.g2 + b.g3 + b.g4 + b.g5 + b.g6

/-- ⌈E⌉ of a rate estimate with 8 fractional bits. -/
def EngBough.ceilE (b : EngBough) : Nat := (b.rateE + 255) / 256

/-- What the engine reads of one stand: stand-in-grove, preamble class, dues, slice twigs, its boughs, and the
ordinary twigs it has been given. -/
structure EngStand where
  sig       : Nat
  active    : Bool
  cls       : Nat
  overhead  : Nat
  rngGrant  : Bool
  rngTwig   : Bool
  msgDue    : Bool
  sliceTw   : Nat
  boughs    : List EngBough
  twigs     : Nat
  deriving DecidableEq, Repr

/-- The frame the engine works on: leaves per frame, first free leaf, slice twigs in force, twig limit, committed sum U,
fairness and rotation pointers, whether twigs pay the native pad and capacity rules. -/
structure EngFrame where
  leaves   : Nat
  start    : Nat
  slices   : List MapEntry
  twigMax  : Nat
  used     : Nat
  fair     : Nat
  rot      : Nat
  compat   : Bool
  deriving DecidableEq, Repr

/-- Total length L_s of the slice twigs. -/
def sliceLeaves (f : EngFrame) : Nat := f.slices.foldl (fun a e => a + e.len) 0

/-! ### Twig wants (R209, R210) -/

/-- A bough asks for leaves in ordinary twigs (R209). -/
def EngBough.wants (b : EngBough) : Bool :=
  !b.fixedPos &&
    ((b.ty == .fixed && decide (0 < b.entFixed)) ||
     (!(b.ty == .fixed) && (decide (0 < b.request) || b.pollDue || (b.predEn && decide (0 < b.rateE)))))

/-- An ACTIVE stand wants an ordinary twig (R209). -/
def EngStand.wants (s : EngStand) : Bool :=
  s.active && (s.msgDue || s.rngTwig || s.boughs.any EngBough.wants)

/-- The ordinary twigs a stand wants in all: the largest spread among its boughs granted in the previous map, at
least one, cut so that it holds at most 4 twigs (R209). -/
def EngStand.wantCount (s : EngStand) : Nat :=
  if s.wants then
    let sp := s.boughs.foldl (fun a b => if b.hadGrant then max a b.spread else a) 1
    max 1 (min sp (4 - s.sliceTw - (if s.rngGrant then 1 else 0)))
  else 0

/-- The overhead that one ordinary twig of a stand reserves (R200): 6 + preamble leaves. -/
def EngStand.reserve (s : EngStand) : Nat := s.overhead + 3

/-- The allocatable capacity C of R200 under the ordinary twigs given so far. -/
def capacityC (f : EngFrame) (ss : List EngStand) : Nat :=
  let ordinary := ss.foldl (fun a s => a + s.twigs * s.reserve) 0
  let rtw := ss.foldl (fun a s => if s.rngTwig && s.active then a + 18 else a) 0
  let rgr := ss.foldl (fun a s => if s.rngGrant then a + 40 else a) 0
  f.leaves - sliceLeaves f - f.start - ordinary - rtw - rgr - 24 * f.slices.length

/-- All twigs the frame would hold: slice twigs, ranging grants and ordinary twigs, with one split allowance a slice twig. -/
def twigTotal (f : EngFrame) (ss : List EngStand) : Nat :=
  ss.foldl (fun a s => a + s.twigs + (if s.rngGrant then 1 else 0)) (2 * f.slices.length)

/-- The allocation structures that a stand's twigs may hold (R236): one for each part of each bough that asks for leaves, and the default Alloc-ID's. -/
def EngStand.structs (s : EngStand) : Nat :=
  let part := fun (b : EngBough) => if b.wants then (if b.spread ≤ 1 then min s.twigs 1 else s.twigs) else 0
  (s.boughs.map part).sum + (if (s.msgDue || s.rngTwig) && decide (0 < s.twigs) then 1 else 0) + s.rngGrant.toNat

/-- Both conditions of R210; on a compatibility grove the map holds at most 1,024 allocation structures as well (R236), counted before the leaves are
handed out (DESIGN CHOICE, log 93). -/
def twigsFit (f : EngFrame) (ss : List EngStand) : Bool :=
  decide (twigTotal f ss ≤ f.twigMax) && decide (f.used ≤ capacityC f ss)
    && (!f.compat || decide ((ss.map EngStand.structs).sum ≤ 1024))

/-- Give one more ordinary twig to a stand. -/
def giveTwig (sig : Nat) (ss : List EngStand) : List EngStand :=
  ss.map (fun s => if s.sig = sig then { s with twigs := s.twigs + 1 } else s)

/-- Rotate a list of stands so that it starts at the first stand at or after `p`. -/
def rotateAt (p : Nat) (ss : List EngStand) : List EngStand :=
  ss.filter (fun s => decide (p ≤ s.sig)) ++ ss.filter (fun s => decide (s.sig < p))

/-- One round of the rotation of R210 over the stands in visiting order: the stands after it, and the first
stand refused. -/
def extraRound (f : EngFrame) : List Nat → List EngStand → List EngStand × Option Nat
  | [], ss => (ss, none)
  | v :: vs, ss =>
    match ss.find? (fun s => s.sig == v) with
    | none => extraRound f vs ss
    | some s =>
      if s.wantCount ≤ s.twigs then extraRound f vs ss
      else
        let ss' := giveTwig v ss
        if twigsFit f ss' then extraRound f vs ss' else (ss, some v)

/-- The rounds of R210, at most three since a stand has at most three extra twigs. -/
def extraRounds (f : EngFrame) : Nat → List Nat → List EngStand → List EngStand × Option Nat
  | 0, _, ss => (ss, none)
  | k + 1, order, ss =>
    match extraRound f order ss with
    | (ss', none) => extraRounds f k order ss'
    | r => r

/-- The stands, in rotation order, whose first twigs keep within some allocation structures, and the first stand that does not (R236). -/
def firstStands : Nat → List EngStand → List Nat × Option Nat
  | _, [] => ([], none)
  | left, s :: t =>
    let n := s.structs - s.rngGrant.toNat
    if n ≤ left then let r := firstStands (left - n) t; (s.sig :: r.1, r.2) else ([], some s.sig)

/-- On a compatibility grove, the stands whose first twigs the 1,024 allocation structures of a map have room for, from the rotation pointer on, as for extra twigs: the
others take no part in this map, and the rotation goes on at the first of them (R236; DESIGN CHOICE, log 93). -/
def fitFirst (f : EngFrame) (base : List EngStand) : List EngStand × Option Nat :=
  if f.compat then
    let r := firstStands (1024 - base.countP EngStand.rngGrant) (rotateAt f.rot base)
    (base.map (fun s => if r.1.contains s.sig then s else { s with active := false, twigs := 0 }), r.2)
  else (base, none)

/-- Ordinary twigs of the frame (R209, R210): stands with their twigs, the new rotation pointer, and the extra twigs denied. -/
def fixTwigs (f : EngFrame) (ss : List EngStand) : List EngStand × Nat × Nat :=
  let base := ss.map (fun s => { s with twigs := if s.wants then 1 else 0 })
  let all := ss.map (fun s => { s with twigs := s.wantCount })
  if twigsFit f all then (all, f.rot, 0)
  else
    let first := fitFirst f base
    let order := (rotateAt f.rot first.1).map (fun s => s.sig)
    let r := extraRounds f 3 order first.1
    let denied := (all.map EngStand.twigs).sum - (r.1.map EngStand.twigs).sum
    (r.1, (first.2 <|> r.2).getD f.rot, denied)

/-! ### The six steps (R201 to R206) -/

/-- Change the boughs of the ACTIVE stands. -/
def mapActive (g : EngBough → EngBough) (ss : List EngStand) : List EngStand :=
  ss.map (fun s => if s.active then { s with boughs := s.boughs.map g } else s)

/-- The leaves a function reads off the boughs of all stands. -/
def sumBoughs (g : EngBough → Nat) (ss : List EngStand) : Nat :=
  ss.foldl (fun a s => a + s.boughs.foldl (fun x b => x + g b) 0) 0

/-- Step 1: the fixed entitlement of FIXED boughs that carry no slice. -/
def step1 (ss : List EngStand) : List EngStand :=
  mapActive (fun b => if b.ty = .fixed && !b.fixedPos then { b with g1 := b.entFixed } else b) ss

/-- Step 2: min(request, assured entitlement, e_max) for the other types. -/
def step2 (ss : List EngStand) : List EngStand :=
  mapActive (fun b => if b.ty = .fixed then b
    else { b with g2 := min b.request (min b.entAssur b.entMax) }) ss

/-- The demand of a bough in step 3 or 4: min(request, e_max) − granted. -/
def EngBough.demand (b : EngBough) : Nat := min b.request b.entMax - b.granted

/-- The boughs of a step and class. -/
def EngBough.inShare (t : BoughType) (c : Nat) (b : EngBough) : Bool := b.ty == t && b.cls == c

/-- A stand's demand in a step and class (R202). -/
def EngStand.demand (t : BoughType) (c : Nat) (s : EngStand) : Nat :=
  if s.active then s.boughs.foldl (fun a b => if b.inShare t c then a + b.demand else a) 0 else 0

/-- The largest level in [lo, lo + 2^k) at which `sum` stays within `cap`, given that it does at lo. -/
def bisect (sum : Nat → Nat) (cap : Nat) : Nat → Nat → Nat
  | 0, lo => lo
  | k + 1, lo => if sum (lo + 2 ^ k) ≤ cap then bisect sum cap k (lo + 2 ^ k) else bisect sum cap k lo

/-- One leaf each, in visiting order, to stands whose demand is not met (R202). -/
def handOut : Nat → List (Nat × Nat × Nat) → List (Nat × Nat × Nat)
  | _, [] => []
  | left, (sig, d, g) :: t =>
    if 0 < left ∧ g < d then (sig, d, g + 1) :: handOut (left - 1) t
    else (sig, d, g) :: handOut left t

/-- The shares of the stands in one class of step 3 or 4 (R202), as (stand, share), for `left` leaves. -/
def standShares (t : BoughType) (c fair left : Nat) (ss : List EngStand) : List (Nat × Nat) :=
  let ds := (rotateAt fair ss).map (fun s => (s.sig, s.demand t c))
  let total := ds.foldl (fun a p => a + p.2) 0
  if total ≤ left then ds
  else
    let sum := fun l => ds.foldl (fun a p => a + min p.2 l) 0
    let lam := bisect sum left 17 0
    (handOut (left - sum lam) (ds.map (fun p => (p.1, p.2, min p.2 lam)))).map (fun q => (q.1, q.2.2))

/-- Insert by descending weight, ties in ascending bough index. -/
def insertByWeight (x : Nat × Nat) : List (Nat × Nat) → List (Nat × Nat)
  | [] => [x]
  | y :: t => if y.1 < x.1 then x :: y :: t else y :: insertByWeight x t

/-- The leaves left of a share go to boughs by descending weight, each up to its unmet demand (R203): a list of
(bough index, unmet demand) in that order, and the answers (bough index, leaves). -/
def spillShare : Nat → List (Nat × Nat) → List (Nat × Nat)
  | _, [] => []
  | left, (i, u) :: t => (i, min left u) :: spillShare (left - min left u) t

/-- A stand's share divided among its boughs of the class by weight (R203). `put` adds the leaves to the step's field. -/
def divideShare (t : BoughType) (c share : Nat) (put : EngBough → Nat → EngBough) (bs : List EngBough) : List EngBough :=
  let mine := bs.filter (fun b => b.inShare t c)
  let sum := fun m => mine.foldl (fun a b => a + min b.demand (b.weight * m)) 0
  let mu := bisect sum share 17 0
  let order := mine.foldl (fun l b => insertByWeight (b.weight, b.idx) l) []
  let unmet := order.map (fun p =>
    (p.2, ((mine.find? (fun b => b.idx == p.2)).map (fun b => b.demand - min b.demand (b.weight * mu))).getD 0))
  let extra := spillShare (share - sum mu) unmet
  bs.map (fun b => if b.inShare t c then
      put b (min b.demand (b.weight * mu) + ((extra.find? (fun p => p.1 == b.idx)).map (fun p => p.2)).getD 0)
    else b)

/-- One class of step 3 or step 4, on `left` leaves: the stands and the leaves left. -/
def shareClass (t : BoughType) (put : EngBough → Nat → EngBough) (fair c : Nat) (x : List EngStand × Nat) :
    List EngStand × Nat :=
  let sh := standShares t c fair x.2 x.1
  (x.1.map (fun s => match sh.find? (fun p => p.1 == s.sig) with
    | some p => { s with boughs := divideShare t c p.2 put s.boughs }
    | none => s),
   x.2 - sh.foldl (fun a p => a + p.2) 0)

/-- Step 3: SURPLUS boughs by class. -/
def step3 (fair : Nat) (x : List EngStand × Nat) : List EngStand × Nat :=
  [0, 1, 2, 3].foldl (fun y c => shareClass .surplus (fun b n => { b with g3 := n }) fair c y) x

/-- Step 4: BEST boughs by class. -/
def step4 (fair : Nat) (x : List EngStand × Nat) : List EngStand × Nat :=
  [0, 1, 2, 3].foldl (fun y c => shareClass .best (fun b n => { b with g4 := n }) fair c y) x

/-- Visit the boughs of a stand in ascending index, threading the leaves left. -/
def visitBoughs (g : EngBough → Nat → EngBough × Nat) : List EngBough → Nat → List EngBough × Nat
  | [], left => ([], left)
  | b :: t, left =>
    let r := g b left
    let q := visitBoughs g t r.2
    (r.1 :: q.1, q.2)

/-- Visit the boughs of the ACTIVE stands in list order, threading the leaves left. -/
def visitStands (g : EngBough → Nat → EngBough × Nat) : List EngStand → Nat → List EngStand × Nat
  | [], left => ([], left)
  | s :: t, left =>
    if s.active then
      let r := visitBoughs g s.boughs left
      let q := visitStands g t r.2
      ({ s with boughs := r.1 } :: q.1, q.2)
    else
      let q := visitStands g t left
      (s :: q.1, q.2)

/-- Visit all boughs by class, then stands from the fairness pointer, then ascending bough index (R204, R206). -/
def visitAll (fair : Nat) (g : Nat → EngBough → Nat → EngBough × Nat) (x : List EngStand × Nat) : List EngStand × Nat :=
  [0, 1, 2, 3].foldl (fun y c => visitStands (g c) (rotateAt fair y.1) y.2) x

/-- Step 5 for one bough: a poll-due bough whose request is met receives min(poll_leaves, e_max − granted). -/
def pollBough (c : Nat) (b : EngBough) (left : Nat) : EngBough × Nat :=
  if b.cls = c ∧ !(b.ty = .fixed) ∧ b.pollDue ∧ b.request ≤ b.granted then
    let n := min (min b.pollLv (b.entMax - b.granted)) left
    ({ b with g5 := n }, left - n)
  else (b, left)

/-- Step 6 for one bough: the predictive top-up of R206 and the cut of R207. -/
def predBough (c : Nat) (b : EngBough) (left : Nat) : EngBough × Nat :=
  if b.cls = c ∧ !(b.ty = .fixed) ∧ b.predEn ∧ 0 < left then
    let want := b.ceilE - b.granted
    let n := min (min want b.predCeil) (min (b.entMax - b.granted) left)
    ({ b with g6 := n, seen6 := true, cut6 := decide (b.predCeil < want ∧ n = b.predCeil) }, left - n)
  else (b, left)

/-- The six steps on capacity C (R201): the stands with their grants. -/
def allocate (f : EngFrame) (ss : List EngStand) : List EngStand :=
  let c := capacityC f ss
  let s1 := step1 ss
  let s2 := step2 s1
  let left := c - sumBoughs (fun b => b.g1 + b.g2) s2
  let x4 := step4 f.fair (step3 f.fair (s2, left))
  let x6 := visitAll f.fair predBough (visitAll f.fair pollBough x4)
  x6.1

/-! ### Building twigs (R211) -/

/-- The payload of a twig with `a` data leaves and a message slot or not: the smallest allowed p ≥ a with
D(p) ≥ 58·a + 64·m (R211), three leaves for a message slot alone. -/
def payloadFor (a : Nat) (m : Bool) : Nat :=
  if a = 0 then (if m then 3 else 0)
  else
    let need := 58 * a + 64 * m.toNat
    let ok := fun p => payloadOk p && decide (need ≤ burstCapacity p)
    if ok a then a else if ok (a + 1) then a + 1 else if ok (a + 2) then a + 2 else a + 3

/-- On a compatibility grove a twig needs no pad (R236). -/
def twigPayload (compat : Bool) (a : Nat) (m : Bool) : Nat :=
  if compat then max a (if m then 1 else 0) else payloadFor a m

/-- The part of a grant that twig j of t carries (R211). -/
def partOf (b : EngBough) (t j : Nat) : Nat :=
  let g := b.granted
  if b.spread ≤ 1 then (if j = 0 then g else 0)
  else g / t + (if j < g % t then 1 else 0)

/-- A twig before its placement. -/
structure Twig where
  sig    : Nat
  kind   : TwigKind
  cls    : Nat
  ovh    : Nat
  rpt    : Bool
  msg    : Bool
  /-- runs before the pad, as (bough index, bough, leaves) -/
  parts  : List (Nat × Nat × Nat)
  target : Nat
  /-- a later part of a split twig (R214) -/
  part   : Bool := false
  deriving DecidableEq, Repr

/-- The data leaves of a twig. -/
def Twig.data (t : Twig) : Nat := t.parts.foldl (fun a p => a + p.2.2) 0

/-- The payload leaves of a twig. -/
def Twig.payload (compat : Bool) (t : Twig) : Nat := twigPayload compat t.data t.msg

/-- The length of a twig (R211). -/
def Twig.len (compat : Bool) (t : Twig) : Nat := t.payload compat + t.ovh

/-- Add the pad to the last run. -/
def padRuns (pad : Nat) : List Run → List Run
  | [] => []
  | [r] => [{ r with len := r.len + pad }]
  | r :: t => r :: padRuns pad t

/-- The runs of a twig: one for each non-empty part, the pad in the last; the shape of R140 when no bough has a part. -/
def Twig.runs (compat : Bool) (t : Twig) : List Run :=
  let p := t.payload compat
  if t.data = 0 then (if p = 0 then [] else [⟨0, p, 65536, 0⟩])
  else padRuns (p - t.data) ((t.parts.filter (fun q => decide (0 < q.2.2))).map (fun q => ⟨q.1, q.2.2, q.2.1, q.2.2⟩))

/-- The ordinary twigs of a stand (R211): empty twigs without a message slot are not issued. -/
def standTwigs (f : EngFrame) (s : EngStand) : List Twig :=
  ((List.range s.twigs).map (fun j =>
    ({ sig := s.sig, kind := if s.rngTwig && j == 0 then .rangingTwig else .ordinary, cls := s.cls, ovh := s.overhead
       rpt := true, msg := (s.msgDue || s.rngTwig) && j == 0
       parts := (s.boughs.filter (fun b => !b.fixedPos)).map (fun b => (b.idx, b.id, partOf b s.twigs j))
       target := j * f.leaves / s.twigs } : Twig))).filter (fun t => t.msg || decide (0 < t.data))

/-- The ranging grant of a stand (R140): one run of bough index 0 and length 3, a message slot, no reports. -/
def rangingGrantTwig (s : EngStand) : Twig :=
  { sig := s.sig, kind := .rangingGrant, cls := s.cls, ovh := s.overhead, rpt := false, msg := true, parts := [], target := 0 }

/-- Insert by ascending target, equal targets in ascending stand-in-grove (R212). -/
def insertByTarget (x : Twig) : List Twig → List Twig
  | [] => [x]
  | y :: t =>
    if x.target < y.target ∨ (x.target = y.target ∧ x.sig < y.sig) then x :: y :: t else y :: insertByTarget x t

/-! ### Placement (R212, R214) -/

/-- The first slice twig that ends after a leaf. -/
def nextSlice (slices : List MapEntry) (x : Nat) : Option MapEntry :=
  slices.find? (fun e => decide (x < e.start + e.len))

/-- The most data leaves whose payload fits `p` leaves. -/
def dataFitting (compat : Bool) (m : Bool) (p : Nat) : Nat → Nat
  | 0 => 0
  | a + 1 => if twigPayload compat (a + 1) m ≤ p then a + 1 else dataFitting compat m p a

/-- Cut the parts of a twig after `n` data leaves. -/
def cutParts : Nat → List (Nat × Nat × Nat) → List (Nat × Nat × Nat) × List (Nat × Nat × Nat)
  | _, [] => ([], [])
  | n, (i, b, l) :: t =>
    if l ≤ n then let r := cutParts (n - l) t; ((i, b, l) :: r.1, r.2)
    else ([(i, b, n)], (i, b, l - n) :: t)

/-- The entry of a twig at a leaf. -/
def Twig.entry (compat : Bool) (t : Twig) (x : Nat) : MapEntry :=
  { kind := t.kind, stand := t.sig, start := x, len := t.len compat, cls := t.cls, rpt := t.rpt, msg := t.msg, runs := t.runs compat, part := t.part }

/-- Place a twig at the earliest leaf from `x`, split at slice twigs (R214): its entries, the leaf after its last, and
the splits made. -/
def placeTwig (compat : Bool) (slices : List MapEntry) : Nat → Nat → Twig → List MapEntry × Nat × Nat
  | 0, x, t => ([t.entry compat x], x + t.len compat, 0)
  | k + 1, x, t =>
    match nextSlice slices x with
    | none => ([t.entry compat x], x + t.len compat, 0)
    | some e =>
      if e.start ≤ x then placeTwig compat slices k (e.start + e.len) t
      else if x + t.len compat ≤ e.start then ([t.entry compat x], x + t.len compat, 0)
      else
        let free := e.start - x
        let p := free - t.ovh
        let a := dataFitting compat t.msg p t.data
        if free < t.ovh + (if t.msg then 3 else 2) ∨ (a = 0 ∧ t.msg = false) then
          placeTwig compat slices k (e.start + e.len) t
        else
          let c := cutParts a t.parts
          let first : Twig := { t with parts := c.1 }
          let second : Twig := { t with parts := c.2, msg := false, part := true }
          let r := placeTwig compat slices k (e.start + e.len) second
          (first.entry compat x :: r.1, r.2.1, r.2.2 + 1)

/-- Where a ranging grant or ranging twig goes: the lowest leaf from `x` that leaves 9 free leaves on either side (R212). -/
def rangingSpot (slices : List MapEntry) (len : Nat) : Nat → Nat → Nat
  | 0, x => x + 9
  | k + 1, x =>
    match slices.find? (fun e => decide (e.start < x + 9 + len + 9 ∧ x < e.start + e.len)) with
    | none => x + 9
    | some e => rangingSpot slices len k (e.start + e.len)

/-- Where the twigs of a list end when laid end to end from `x` in placement order (R212). -/
def layEnd (compat : Bool) (slices : List MapEntry) (x : Nat) (ts : List Twig) : Nat :=
  ts.foldl (fun y t =>
    match t.kind with
    | .rangingGrant => rangingSpot slices (t.len compat) slices.length y + t.len compat + 9
    | .rangingTwig => rangingSpot slices (t.len compat) slices.length y + t.len compat + 9
    | _ => (placeTwig compat slices (slices.length + 1) y t).2.1) x

/-- The latest leaf from which the twigs still fit before the end of the frame (R212). -/
def latestStart (f : EngFrame) (ts : List Twig) : Nat :=
  bisect (fun x => layEnd f.compat f.slices x ts) f.leaves 17 0

/-- Place the ordinary twigs in order, then the ranging ones: entries, end and splits. -/
def placeAll (f : EngFrame) : List Twig → List Twig → Nat → List MapEntry × Nat × Nat
  | [], rs, x =>
    rs.foldl (fun (acc : List MapEntry × Nat × Nat) t =>
      let y := rangingSpot f.slices (t.len f.compat) f.slices.length acc.2.1
      (acc.1 ++ [t.entry f.compat y], y + t.len f.compat, acc.2.2)) ([], x, 0)
  | t :: ts, rs, x =>
    let late := latestStart f (t :: ts ++ rs)
    let st := max x (min t.target late)
    let r := placeTwig f.compat f.slices (f.slices.length + 1) st t
    let q := placeAll f ts rs r.2.1
    (r.1 ++ q.1, q.2.1, r.2.2 + q.2.2)

/-- Insert an entry by ascending start leaf (R104). -/
def insertEntry (x : MapEntry) : List MapEntry → List MapEntry
  | [] => [x]
  | y :: t => if x.start < y.start then x :: y :: t else y :: insertEntry x t

/-- Entries in ascending start leaf. -/
def sortEntries (es : List MapEntry) : List MapEntry := es.foldl (fun l e => insertEntry e l) []

/-- What a computation yields: the entries, the stands with their grants, the rotation pointer, extra twigs denied, splits. -/
structure EngResult where
  entries : List MapEntry
  stands  : List EngStand
  rot     : Nat
  denied  : Nat
  splits  : Nat
  deriving DecidableEq, Repr

/-- The whole computation of one grove's map (R200 to R214). -/
def engine (f : EngFrame) (ss : List EngStand) : EngResult :=
  let w := fixTwigs f ss
  let al := allocate f w.1
  let byStand := rotateAt 0 (al.foldl (fun l s => (l.filter (fun q => decide (q.sig < s.sig))) ++ [s] ++
    (l.filter (fun q => decide (s.sig < q.sig)))) [])
  let tw := byStand.flatMap (standTwigs f)
  let ord := (tw.filter (fun t => !(t.kind == .rangingTwig))).foldl (fun l t => insertByTarget t l) []
  let rng := byStand.flatMap (fun s =>
    (if s.rngGrant then [rangingGrantTwig s] else []) ++ (standTwigs f s).filter (fun t => t.kind == .rangingTwig))
  let pl := placeAll f ord rng f.start
  ⟨sortEntries (f.slices ++ pl.1), byStand, w.2.1, w.2.2, pl.2.2⟩

/-- The map words of entries: two words each and one per run (R67). -/
def mapWords (es : List MapEntry) : Nat := es.foldl (fun a e => a + 2 + e.runs.length) 0

/-- The leaves of entries. -/
def entryLeaves (es : List MapEntry) : Nat := es.foldl (fun a e => a + e.len) 0

/-- The allocation structures of an entry of a compatibility grove (R234, R236), as (Alloc-ID, start leaf, leaves): the default Alloc-ID's, which takes the message
slot and has no leaves of its own beside data (DESIGN CHOICE, log 93), and one of its Alloc-ID for each run of a bough. -/
def allocStructs (e : MapEntry) : List (Nat × Nat × Nat) :=
  let first := e.start + (e.len - (e.runs.map Run.len).sum)
  let starts := e.runs.map (fun r => (r, first + ((e.runs.takeWhile (fun q => !(q == r))).map Run.len).sum))
  (if e.msg && e.runs.all (fun r => decide (r.bough < 65536)) then [(e.stand, first, 0)] else []) ++
    starts.map (fun p => (if p.1.bough < 65536 then 1024 + 16 * e.stand + p.1.idx else e.stand, p.2, p.1.len))

/-- The words of an entry on the line (R102, R103): its 64-bit word as two, then its leaf runs. -/
def entryWords (e : MapEntry) : List Nat :=
  let w := e.stand % 512 * 2 ^ 55 + e.start % 2 ^ 16 * 2 ^ 39 + e.len % 2 ^ 16 * 2 ^ 23 + e.cls % 4 * 2 ^ 21
    + e.rpt.toNat * 2 ^ 20 + e.msg.toNat * 2 ^ 19 + e.runs.length % 32 * 2 ^ 14
  [w / 2 ^ 32, w % 2 ^ 32] ++ e.runs.map (fun r => r.idx % 16 * 2 ^ 28 + r.len % 2 ^ 20 * 2 ^ 8)

end Sys2Proof.Machine
end

