-- ==== Sys2Proof/Machine/Maps.lean ====
section
/-!
DEFINITION. Sparse maps from numbers to data, held as lists of pairs in rising key order, one pair per key.
-/

namespace Sys2Proof.Machine

/-- A sparse map: pairs of a key and a value, keys strictly rising. -/
abbrev SMap (α : Type) := List (Nat × α)

/-- The value listed for a key. -/
def SMap.get? {α : Type} : SMap α → Nat → Option α
  | [], _ => none
  | (k, v) :: t, q => if k = q then some v else SMap.get? t q

/-- List a value for a key, in key order. -/
def SMap.put {α : Type} : SMap α → Nat → α → SMap α
  | [], q, v => [(q, v)]
  | (k, w) :: t, q, v =>
    if q < k then (q, v) :: (k, w) :: t
    else if q = k then (q, v) :: t
    else (k, w) :: SMap.put t q v

/-- Take a key out. -/
def SMap.erase {α : Type} (m : SMap α) (q : Nat) : SMap α :=
  m.filter (fun p => !(p.1 == q))

/-- The value for a key, `d` where none is listed. -/
def SMap.getD {α : Type} (m : SMap α) (q : Nat) (d : α) : α :=
  (m.get? q).getD d

/-- Set a key to a value, where `d` is what an unlisted key reads as: writing `d` removes the entry. -/
def SMap.setD {α : Type} [DecidableEq α] (m : SMap α) (q : Nat) (v d : α) : SMap α :=
  if v = d then m.erase q else m.put q v

/-- Of an ascending list of keys, those that a map does not list. -/
def SMap.absent {α : Type} : SMap α → List Nat → List Nat
  | [], ks => ks
  | (k, _) :: t, ks => ks.takeWhile (fun q => decide (q < k)) ++ SMap.absent t (ks.dropWhile (fun q => decide (q ≤ k)))

/-- List a value for those of an ascending list of keys that a map does not list. -/
def SMap.putAbsent {α : Type} (v : Nat → α) : SMap α → List Nat → SMap α
  | [], ks => ks.map (fun q => (q, v q))
  | (k, x) :: t, ks =>
    (ks.takeWhile (fun q => decide (q < k))).map (fun q => (q, v q)) ++ (k, x) :: SMap.putAbsent v t (ks.dropWhile (fun q => decide (q ≤ k)))

/-- The keys are strictly rising. -/
def SMap.sorted {α : Type} : SMap α → Bool
  | [] => true
  | [_] => true
  | (k, _) :: (k', v') :: t => decide (k < k') && SMap.sorted ((k', v') :: t)

end Sys2Proof.Machine
end

