-- ==== Sys2Proof/Machine/Counters.lean ====
section
/-!
DEFINITION. The event counters (R14, R586, R587): their names as the chapters give them, and the families that hold them.
-/

namespace Sys2Proof.Machine

/-- The counter families of R587, in the order of their codes. The device family also holds the counters that are
kept per pipeline, lane, port, pool, tier, master, function and so on, under their instance numbers. -/
inductive Fam where
  | device | grove | stand | bough | meter | slice | flow | pgroup | vector
  deriving DecidableEq, Repr

/-- The counter names. -/
inductive Ctr where
  | framesSent | payloadBytes | idleBytes | fragmentsSplit | contDiscarded | sduOversize | msgSent
  | msgRefused | msgFullTicks | burstsGranted | burstsReceived | noLock | delimMiss | hdrFail | standInvalid
  | standMismatch | silencedDiscard | seqGap | cwDecoded | cwCorrected | symbolsCorrected | cwUncorrectable
  | hecCorrected | hecFailed | reasmDiscard | reasmTimeout | rptUnrequested | lightTicks | clearings
  | clrSkipped | clrSliceLoss | discAnswers | discBad | discDup | discNoRoom | discEarly | discExpired
  | rngTimeout | reacqFail | rngAttempts | rngFail | driftCorr | eqdRange | presetLearned | presetRelearn
  | presetPinned | keepBad | standLost | absentDrop | flushedPkts | silencedDrop | isoDrop | holdDrop
  | restsGranted | restsDenied | msgTx | msgRx | msgAuthFail | msgReplay | msgRejected | msgBadType
  | doneOverflow | rxOverflow | mapsBuilt | overrun | leavesStep1 | leavesStep2 | leavesStep3 | leavesStep4
  | leavesStep5 | leavesStep6 | unusedLeaves | twigsIssued | twigsDenied | packSplit | livenessGrants
  | unboundShare | engEccCorr | engEccFatal | leavesGranted | predLeaves | pollGrants | reportsTaken
  | predPinned | ploamTx | ploamRx | ploamMicFail | ploamUnsupported | omciTx | omciRx | omciMicFail
  | omciRxOverflow | omciTxDiscard | keySwitches | bwmapStructures | jDisagree | bipErrors | aisFramesSent
  | missedFrames | defectGroveLos | defectStandLost | defectLod | defectAis | defectDeg | pgSwitches
  | pgBadCode | djLate | djOverflow | djSlip | roeUnsupported | pktsTx | pktsRx | pktsFirst | pktsSecond
  | ingressDrop | recircFull | recircExcess | shortKey | noDest | destInvalid | parkedDrop | actionDrop
  | fragMiss | fragMissDrop | fragInserts | fragHits | fragFull | fragAged | floodEmpty | learnMove
  | moveRefused | staticViolation | learnFail | learnFifoDrop | dmaDescriptors | dmaErrors | stashReturn
  | aged | deferOverflow | lockExpired | casTimeout | casLocal | nearEmptyDrop | poolPromote | moveStall
  | doubleFree | qPinned | deepFull | spillBytes | returnBytes | shadowDrop | shadowOverwrite | holdFull
  | holdLost | holdUe | holdWriteBytes | holdReadBytes | nearCe | nearUe | deepCe | deepUe | trainFail
  | dsTwigs | standsDeferred | mcBytes | mcCapped | mcReplicaDrop | mcNoMember | txBytes | txPkts
  | admDropGreen | admDropYellow | admDropRed | upAdmDrop | wheelOverflow | polGreen | polYellow | polRed
  | polRedDrop | tagFail | epochAbsent | ctrReplay | ctrStopped | agreements | keyFail | keyBadPoint | rekeys
  | groupRekeys | unwraps | unwrapFail | seals | opens | openFail | slotBad | mirrorTx | mirrorRx
  | mirrorAuthFail | plaxonSilentEvents | pinSilentEvents | pathAlarms | splitAlarms | takeovers
  | takeoverWithdrawn | dsdDone | dsdDeclined | dsdRevert | digestMismatch | replayPkts | replayShort
  | standbyDiscard | usHoldDrop | ofsPinned | timeSwitch | syncRx | domainLost | capRecords | capOverflow
  | txSent | txLost | onestepEdits | tcEdits | tcSaturate | marksSent | srcLost | escape | safeEntries
  | resumeRefused | aonPinned | parks | unparks | wakes | restarts | cfgWriteErr | sectSkipped | flashCmds
  | flashErrors | linkRetry | linkDown | rxFramesRunt | rxFramesOversize | rxFcsErr | pauseRx | linkDownDrop
  | txTruncated | grpEmptyDrop | rxPinned | txEqLimit | plxRetry | elasticErr | fillersDeleted
  | fillersInserted | cxlNarrow | tickSrcLost | accDenied | flrDiscard | msixSent | msixMasked | claims
  | claimEmpty | spurious | completeStray | unassignedAccess | stagingFull | phaseExcess | retired
  | wastedRecirc | wastedReplay | wastedDrop | frontStarved | backStarved | sampleLost | samplesTaken
  deriving DecidableEq, Repr

/-- The key of a counter: family, name and instance. -/
def ctrKey (f : Fam) (c : Ctr) (i : Nat) : Nat :=
  (f.ctorIdx * 2 ^ 10 + c.ctorIdx) * 2 ^ 20 + i % 2 ^ 20

end Sys2Proof.Machine
end

