-- ==== Sys2Proof/Machine/Regs.lean ====
section
/-!
DEFINITION. The register map of the TZ7064 (spec file 22, R604 to R606, and the register tables of the owning chapters):
every register name, its block, its offset, its index strides and its fields with their types (R10), reset values and legal ranges.
-/

namespace Sys2Proof.Machine

/-- The field types of R10. `view` and `w1cv` are RO and W1C fields that the model computes from
typed state instead of storing them in the status file. -/
inductive FieldTy where
  | rw | rws | ro | w1c | wo | view | w1cv
  deriving DecidableEq, Repr

/-- One field of a register: its lowest bit, its width, its type, its reset value and its legal range. -/
structure FieldDesc where
  lo    : Nat
  width : Nat
  ty    : FieldTy
  reset : Nat
  min   : Nat
  max   : Nat
  deriving DecidableEq, Repr

/-- The names of the registers, in the order of the address map (R606). -/
inductive Reg where
  | TOP_ID | TOP_MASTER | TOP_SCRATCH | TOP_LAST_STAT | TOP_LAST_ADDR | TOP_FIRST_ADDR | TOP_LAST_SFC
  | TICK_CTRL | TICK_STATUS | TICK_PHASE | TICK_TICKIN_OFFSET | TICK_SFC_LO | TICK_SFC_HI | TICK_PHASE_ERR
  | TICK_PHASE_LIMIT | TICK_SFC_CKPT_LO | TICK_SFC_CKPT_HI | TICK_STAGE_FILL | TICK_STAGE_CTL
  | TICK_STAGE_STAT | TICK_STAGE_SFC_LO | TICK_STAGE_SFC_HI | TICK_LOOP_DELAY | CLK_CORE_SEL | CLK_UP_SEL
  | CLK_PLX_SEL | CLK_READY_TOL | CLK_STATUS | CLK_CTRL | CLK_AON_TRIM | CLK_PWR | CLK_PWR_STAT | CLK_STRAP
  | CLK_BOOT | INT_SRC | INT_CLAIM | INT_COMPLETE | INT_VEC_STAT | INT_GRV_STANDS | INT_GRV_CAUSE
  | INT_DEV_CAUSE | INT_LINK_CAUSE0 | INT_LINK_CAUSE1 | INT_LINK_CAUSE2 | INT_SLC_CAUSE | ACC_RGN_LO
  | ACC_RGN_HI | ACC_VF_GROVE_LO | ACC_VF_GROVE_HI | ACC_VF_BOUGH | ACC_VF_CTRL | ACC_VIOL | CFG_STATUS
  | CFG_A_RESULT | CFG_B_RESULT | CFG_IMG_BUILD | CFG_IMG_VER | CFG_ERR_COUNT | CFG_ERR_ADDR | CFG_ERR_STAT
  | CFG_POLICY | CFG_FLASH_CMD | CFG_FLASH_ADDR | CFG_FLASH_STAT | CFG_CHECK | CFG_FLASH_BUF | TIME_CTRL
  | TIME_STATUS | TIME_SIGMA_LO | TIME_SIGMA_HI | TIME_MARK_CTRL | TIME_EDGE_SFC_LO | TIME_EDGE_SFC_HI
  | TIME_EDGE_SEC_LO | TIME_EDGE_SEC_HI | TIME_EDGE_NS | TIME_EDGE_FRAC | TIME_X_SEC_LO | TIME_X_SEC_HI
  | TIME_X_NS | TIME_X_FRAC | TIME_X_SET_SEC_LO | TIME_X_SET_SEC_HI | TIME_X_SET_NS | TIME_X_SET_FRAC
  | TIME_X_CMD | TIME_X_FREQ | TIME_X_ADJ | TIME_X_ADJ_RATE | TIME_X_ADJ_LEFT | TIME_X_SYNC | TIME_X_SRC
  | TIME_LANE_DLY | TIME_LANE_CTRL | TIME_GRV_SHARE | TIME_CAP_STAT | TIME_CAP0 | TIME_CAP1 | TIME_CAP2
  | TIME_CAP3 | TIME_CAP4 | TIME_CAP5 | TIME_TX_CTRL | TIME_TX_STAT | TIME_TX_BUF | TIME_FL_TX_FRAME
  | TIME_FL_TX_SEC | TIME_FL_TX_NS | TIME_FL_RX_FRAME | TIME_FL_RX_SEC | TIME_FL_RX_NS | KEY_ID_PUB
  | KEY_CTRL | KEY_REKEY_INT | KEY_TF | KEY_TIMERS | KEY_QUEUE | KEY_CMD | KEY_CMD_LEN | KEY_CMD_STAT
  | KEY_NONCE | KEY_TAG | KEY_PUB | KEY_BLOB | KEY_BUF | KEY_GRP_CTRL | KEY_STD_STATE | KEY_STD_CTR_DS_LO
  | KEY_STD_CTR_DS_HI | KEY_STD_CTR_US_LO | KEY_STD_CTR_US_HI | KEY_STD_TF | MATE_CTRL | MATE_STATUS
  | MATE_GRV_EN_LO | MATE_GRV_EN_HI | MATE_DSD_TIME | MATE_DSD_INT | MATE_REVERT | MATE_HOLD | MATE_TKO_WIN
  | MATE_OFS_MAX | MATE_LAST_SFC_LO | MATE_LAST_SFC_HI | MATE_LAST_CAUSE | MATE_PAIR_STAT | MATE_DIG_STAT
  | MATE_DIG_FIRST | MATE_PEER_ID | MATE_OFS_DS | MATE_OFS_US | MATE_DLV_LO | MATE_DLV_HI | CNT_DEV_LO
  | CNT_DEV_HI | CNT_DIR_DEV | CNT_DIR_SET | CNT_WIN_SEL | CNT_WIN_LO | CNT_WIN_HI | CNT_SNAP_CTRL
  | CNT_SNAP_SFC_LO | CNT_SNAP_SFC_HI | CNT_SNAP_LIST0 | CNT_SNAP_LIST1 | CNT_SNAP_BUF_LO | CNT_SNAP_BUF_HI
  | CNT_SMP_CTRL | CNT_SMP_STAT | CNT_SMP_POP | CNT_SMP_REC | LANE_UP_CFG | LANE_UP_STATUS | LANE_TX_EQ
  | LANE_TX_BOUND | LANE_RX_BOUND | LANE_RX_EQ | LANE_TEST | LANE_PRBS_ERR | LANE_PON_CTRL | LANE_PON_STATUS
  | LANE_PON_TX_EQ | LANE_PON_PRBS_ERR | LANE_PLX_CTRL | LANE_PLX_STATUS | LANE_PLX_RX_BOUND | LANE_PLX_TEST
  | LANE_GRP_LO | LANE_GRP_HI | LANE_GRP_STAT | LANE_PCIE_STATUS | LANE_CXL_STATUS | GRV_DS_CTRL
  | GRV_DS_STATUS | GRV_DS_HDR_CAP0 | GRV_DS_HDR_CAP1 | GRV_DS_PAYLOAD_START | GRV_DS_SFC_LO | GRV_DS_SFC_HI
  | GRV_US_CTRL | GRV_US_STATUS | GRV_US_RSSI_CTRL | GRV_US_CAP_CTRL | GRV_US_CAP_SFC_LO | GRV_US_CAP_SFC_HI
  | GRV_US_CAP_WORDS | GRV_CLEARING_CTRL | GRV_CLR_FAST | GRV_CLR_SLOW | GRV_CLR_HOLD | GRV_RNG_CTRL
  | GRV_RNG_DISC_T | GRV_RNG_RNG_T | GRV_RNG_REACQ_T | GRV_CLR_STATUS | GRV_CLR_NEXT_LO | GRV_CLR_NEXT_HI
  | GRV_RNG_CMD | GRV_PRESET_BOUND | GRV_PRESET_MSE | GRV_PRESET_DEF | GRV_STD_CTRL | GRV_STD_SILENCE_T
  | GRV_MSG_TX_BODY | GRV_MSG_TX_CMD | GRV_MSG_TX_DONE0 | GRV_MSG_TX_DONE1 | GRV_MSG_TX_DONE2 | GRV_MSG_RX
  | GRV_MSG_RX_STAT | GRV_MODE | GRV_CPT_CTRL | GRV_CPT_QUIET | GRV_CPT_PROFILE | GRV_CPT_OMCI_TXCTL
  | GRV_CPT_OMCI_RXSTAT | GRV_CPT_OMCI_TXBUF | GRV_CPT_OMCI_RXBUF | GRV_RNG_EQD | GRV_RNG_LOOP
  | GRV_RNG_PHASE | GRV_RNG_FLAGS | GRV_RNG_DRIFT | GRV_RNG_PRESET0 | GRV_RNG_PRESET1 | GRV_RNG_PRESET2
  | GRV_US_CAP_BUF | STD_STATE | STD_CTRL | STD_SERIAL_LO | STD_SERIAL_HI | STD_ADMIT_SERIAL_LO
  | STD_ADMIT_SERIAL_HI | STD_ADMIT | STD_REST_RATE | STD_REST_MAX | STD_CMD | STD_WAKE_LO | STD_WAKE_HI
  | STD_MCAST | BGH_BIND | BGH_CTRL | BGH_FIXED | BGH_ASSURED | BGH_MAX | BGH_POLL | BGH_PRED | BGH_STATUS
  | BGH_REQUEST | BGH_GRANT | BGH_RATE | BGH_DIGEST | GNT_LANE_BOUGHS | GNT_LANE_FINISH | GNT_LANE_WORST
  | GNT_LANE_ECC | GNT_GRV_CTRL | GNT_GRV_ASSURE | GNT_GRV_CAP | GNT_GRV_PTR | GNT_GRV_LAST | GNT_GRV_STATUS
  | PIPE_RS_CTRL | PIPE_RS_STATUS | PIPE_TPID | PIPE_HASH_SEED | PIPE_FRAG_CTRL | PIPE_FRAG_STATUS
  | PIPE_SVID_BASE | PIPE_P_FILL | PIPE_SEL_W0 | PIPE_SEL_W1 | PIPE_PRF_EXT | PIPE_PRF_LKP0 | PIPE_PRF_LKP1
  | PIPE_PRF_L3 | PIPE_ACT_W0 | PIPE_ACT_W1 | PIPE_ACT_W2 | PIPE_ACT_W3 | PIPE_FLOOD_PORTS_LO
  | PIPE_FLOOD_PORTS_HI | PIPE_FLOOD_GRP | TBL_BR_SEED | TBL_BR_AGE | TBL_BR_LEARN_ACT | TBL_BR_STATUS
  | TBL_BR_STASH | TBL_BR_DEFER | TBL_LOCK | TBL_LOCK_T | TBL_RING_BASE_LO | TBL_RING_BASE_HI | TBL_RING_SIZE
  | TBL_RING_TAIL | TBL_RING_HEAD | TBL_RING_CTRL | TBL_BR_DOM | ASC_BANK_CFG | ASC_WIN_VALUE | ASC_WIN_MASK
  | ASC_WIN_SIDE | ASC_WIN_CMD | ASC_WIN_STAT | ASC_CAS_CTRL | ASC_CAS_STATUS | ASC_CAS_TIMEOUT
  | BUF_POOL_NEAR | BUF_POOL_DEEP | BUF_POOL_NFREE | BUF_POOL_DFREE | BUF_DEEP_CTRL | BUF_DEEP_STATUS
  | BUF_DEEP_WD | BUF_DEEP_USED | BUF_HOLD_STATUS | BUF_HOLD_CTRL | BUF_DFREE_CAP | BUF_DFREE_CAP1
  | BUF_SHADOW_FILL | BUF_SHADOW_OVF | BUF_PRF_SPILL | BUF_PRF_KEEP | BUF_PRF_DEEP | BUF_Q_CFG | BUF_Q_NEAR
  | BUF_Q_DEEP | BUF_HOLD_QUOTA | BUF_HOLD_USED | SCH_GRV_MC | SCH_GRV_ASSURE | SCH_GRV_LAST | SCH_WHEEL
  | SCH_UP_GLIM | SCH_UP_YLIM | SCH_UP_RLIM | SCH_UP_PLACE | SCH_UP_PORT | SCH_STD_MAX | SCH_STD_BURST
  | SCH_STD_WEIGHT | SCH_STD_BKT | SCH_STD_NET | SCH_STD_NEXT_LO | SCH_STD_NEXT_HI | SCH_BGH_MAX
  | SCH_BGH_BURST | SCH_BGH_ASSURED | SCH_BGH_WEIGHT | SCH_BGH_MAX_BKT | SCH_BGH_ASR_BKT | SCH_BGH_LAST
  | SCH_POL_CTRL | SCH_POL_CIR | SCH_POL_PIR | SCH_POL_CBS | SCH_POL_PBS | SCH_POL_TC | SCH_POL_TP
  | SCH_Q_GLIM | SCH_Q_YLIM | SCH_Q_RLIM | SCH_Q_DEPTH | SLC_PAGE_CTRL | SLC_PAGE_STAT | SLC_CONN_CMD
  | SLC_DEG_CTRL | SLC_DEG_INT | SLC_GRV_REGION | SLC_SL_CTRL | SLC_SL_SLOTS | SLC_SL_UP | SLC_SL_FILL
  | SLC_SL_STATUS | SLC_SL_LEN | SLC_PG_CTRL | SLC_PG_WTR | SLC_PG_CMD | SLC_PG_STATUS | SLC_FL_CTRL
  | SLC_FL_DST | SLC_FL_PKT | SLC_FL_VLAN | SLC_FL_DMAC_LO | SLC_FL_DMAC_HI | SLC_FL_SMAC_LO | SLC_FL_SMAC_HI
  | SLC_FL_STATUS | SLC_CONN_PAGE
  deriving DecidableEq, Repr

/-- One register of the map: its region r of R604, its offset in the block, the (count, stride) pairs of
its indices, outermost first, and its fields. -/
structure RegDesc where
  reg    : Reg
  region : Nat
  off    : Nat
  dims   : List (Nat × Nat)
  fields : List FieldDesc
  deriving DecidableEq, Repr

/-- The number that keys a register in a register file. -/
def Reg.id (r : Reg) : Nat := r.ctorIdx

/-- Registers of block TOP. -/
def regsOfTop : List RegDesc :=
  [ ⟨.TOP_ID, 0, 0x0, [],
      [⟨16, 16, .ro, 28772, 0, 65535⟩, ⟨8, 8, .ro, 161, 0, 255⟩, ⟨0, 6, .ro, 0, 0, 63⟩]⟩,
    ⟨.TOP_MASTER, 0, 0x4, [],
      [⟨0, 5, .ro, 0, 0, 31⟩]⟩,
    ⟨.TOP_SCRATCH, 0, 0x8, [],
      [⟨0, 32, .rw, 0, 0, 4294967295⟩]⟩,
    ⟨.TOP_LAST_STAT, 0, 0x100, [(20, 0x10)],
      [⟨31, 1, .w1c, 0, 0, 1⟩, ⟨8, 8, .ro, 0, 0, 255⟩, ⟨0, 8, .ro, 0, 0, 255⟩]⟩,
    ⟨.TOP_LAST_ADDR, 0, 0x104, [(20, 0x10)],
      [⟨0, 29, .ro, 0, 0, 536870911⟩]⟩,
    ⟨.TOP_FIRST_ADDR, 0, 0x108, [(20, 0x10)],
      [⟨0, 29, .ro, 0, 0, 536870911⟩]⟩,
    ⟨.TOP_LAST_SFC, 0, 0x10c, [(20, 0x10)],
      [⟨0, 32, .ro, 0, 0, 4294967295⟩]⟩ ]

/-- Registers of block TICK. -/
def regsOfTick : List RegDesc :=
  [ ⟨.TICK_CTRL, 1, 0x0, [],
      [⟨2, 1, .wo, 0, 0, 1⟩, ⟨0, 2, .rw, 0, 0, 2⟩]⟩,
    ⟨.TICK_STATUS, 1, 0x4, [],
      [⟨4, 1, .w1c, 0, 0, 1⟩, ⟨3, 1, .w1c, 0, 0, 1⟩, ⟨2, 1, .w1c, 0, 0, 1⟩, ⟨1, 1, .ro, 0, 0, 1⟩, ⟨0, 1, .ro, 0, 0, 1⟩]⟩,
    ⟨.TICK_PHASE, 1, 0x8, [],
      [⟨18, 3, .ro, 0, 0, 7⟩, ⟨0, 18, .ro, 0, 0, 262143⟩]⟩,
    ⟨.TICK_TICKIN_OFFSET, 1, 0xc, [],
      [⟨0, 18, .rw, 0, 0, 187499⟩]⟩,
    ⟨.TICK_SFC_LO, 1, 0x10, [],
      [⟨0, 32, .ro, 0, 0, 4294967295⟩]⟩,
    ⟨.TICK_SFC_HI, 1, 0x14, [],
      [⟨0, 16, .ro, 0, 0, 65535⟩]⟩,
    ⟨.TICK_PHASE_ERR, 1, 0x18, [],
      [⟨0, 32, .ro, 0, 0, 4294967295⟩]⟩,
    ⟨.TICK_PHASE_LIMIT, 1, 0x1c, [],
      [⟨0, 16, .rw, 150, 0, 65535⟩]⟩,
    ⟨.TICK_SFC_CKPT_LO, 1, 0x20, [],
      [⟨0, 32, .ro, 0, 0, 4294967295⟩]⟩,
    ⟨.TICK_SFC_CKPT_HI, 1, 0x24, [],
      [⟨0, 16, .ro, 0, 0, 65535⟩]⟩,
    ⟨.TICK_STAGE_FILL, 1, 0x28, [],
      [⟨16, 13, .ro, 0, 0, 8191⟩, ⟨0, 13, .ro, 0, 0, 8191⟩]⟩,
    ⟨.TICK_STAGE_CTL, 1, 0x100, [(20, 0x10)],
      [⟨0, 1, .rw, 0, 0, 1⟩]⟩,
    ⟨.TICK_STAGE_STAT, 1, 0x104, [(20, 0x10)],
      [⟨16, 1, .ro, 0, 0, 1⟩, ⟨0, 13, .ro, 0, 0, 8191⟩]⟩,
    ⟨.TICK_STAGE_SFC_LO, 1, 0x108, [(20, 0x10)],
      [⟨0, 32, .ro, 4294967295, 0, 4294967295⟩]⟩,
    ⟨.TICK_STAGE_SFC_HI, 1, 0x10c, [(20, 0x10)],
      [⟨0, 16, .ro, 65535, 0, 65535⟩]⟩,
    ⟨.TICK_LOOP_DELAY, 1, 0x400, [(64, 0x4)],
      [⟨0, 4, .rw, 6, 4, 8⟩]⟩ ]

/-- Registers of block CLK. -/
def regsOfClk : List RegDesc :=
  [ ⟨.CLK_CORE_SEL, 2, 0x0, [],
      [⟨8, 6, .rw, 0, 0, 63⟩, ⟨0, 3, .rw, 0, 0, 4⟩]⟩,
    ⟨.CLK_UP_SEL, 2, 0x4, [],
      [⟨0, 8, .rw, 0, 0, 255⟩]⟩,
    ⟨.CLK_PLX_SEL, 2, 0x8, [],
      [⟨0, 4, .rw, 0, 0, 15⟩]⟩,
    ⟨.CLK_READY_TOL, 2, 0xc, [],
      [⟨0, 10, .rw, 100, 1, 1000⟩]⟩,
    ⟨.CLK_STATUS, 2, 0x10, [],
      [⟨31, 1, .ro, 0, 0, 1⟩, ⟨30, 1, .w1c, 0, 0, 1⟩, ⟨29, 1, .ro, 0, 0, 1⟩, ⟨28, 1, .ro, 0, 0, 1⟩, ⟨8, 5, .w1c, 0, 0, 31⟩, ⟨0, 5, .ro, 0, 0, 31⟩]⟩,
    ⟨.CLK_CTRL, 2, 0x14, [],
      [⟨31, 1, .wo, 0, 0, 1⟩, ⟨30, 1, .wo, 0, 0, 1⟩]⟩,
    ⟨.CLK_AON_TRIM, 2, 0x18, [],
      [⟨31, 1, .w1c, 0, 0, 1⟩, ⟨24, 1, .rw, 0, 0, 1⟩, ⟨16, 8, .rw, 255, 0, 255⟩, ⟨8, 8, .rw, 0, 0, 255⟩, ⟨0, 8, .ro, 128, 0, 255⟩]⟩,
    ⟨.CLK_PWR, 2, 0x1c, [],
      [⟨4, 4, .rws, 0, 0, 15⟩, ⟨0, 2, .rws, 0, 0, 2⟩]⟩,
    ⟨.CLK_PWR_STAT, 2, 0x20, [],
      [⟨4, 4, .ro, 0, 0, 15⟩, ⟨0, 2, .ro, 0, 0, 3⟩]⟩,
    ⟨.CLK_STRAP, 2, 0x24, [],
      [⟨11, 1, .ro, 0, 0, 1⟩, ⟨9, 2, .ro, 0, 0, 3⟩, ⟨6, 3, .ro, 0, 0, 7⟩, ⟨0, 6, .ro, 0, 0, 63⟩]⟩,
    ⟨.CLK_BOOT, 2, 0x28, [],
      [⟨28, 4, .ro, 0, 0, 15⟩, ⟨24, 3, .ro, 1, 0, 7⟩, ⟨0, 20, .ro, 0, 0, 1048575⟩]⟩ ]

/-- Registers of block INT. -/
def regsOfInt : List RegDesc :=
  [ ⟨.INT_SRC, 3, 0x0, [(4096, 0x4)],
      [⟨31, 1, .ro, 0, 0, 1⟩, ⟨30, 1, .ro, 0, 0, 1⟩, ⟨29, 1, .ro, 0, 0, 1⟩, ⟨24, 3, .rw, 0, 0, 7⟩, ⟨16, 4, .rw, 0, 0, 15⟩, ⟨0, 6, .rw, 0, 0, 63⟩]⟩,
    ⟨.INT_CLAIM, 3, 0x10000, [(16, 0x1000), (64, 0x10)],
      [⟨31, 1, .ro, 0, 0, 1⟩, ⟨24, 3, .ro, 0, 0, 7⟩, ⟨0, 12, .ro, 0, 0, 4095⟩]⟩,
    ⟨.INT_COMPLETE, 3, 0x10004, [(16, 0x1000), (64, 0x10)],
      [⟨0, 12, .wo, 0, 0, 4095⟩]⟩,
    ⟨.INT_VEC_STAT, 3, 0x10008, [(16, 0x1000), (64, 0x10)],
      [⟨31, 1, .ro, 0, 0, 1⟩, ⟨16, 13, .ro, 0, 0, 8191⟩, ⟨0, 13, .ro, 0, 0, 8191⟩]⟩,
    ⟨.INT_GRV_STANDS, 3, 0x20000, [(64, 0x40), (8, 0x4)],
      [⟨0, 32, .w1c, 0, 0, 4294967295⟩]⟩,
    ⟨.INT_GRV_CAUSE, 3, 0x20020, [(64, 0x40)],
      [⟨1, 1, .w1c, 0, 0, 1⟩, ⟨0, 1, .w1c, 0, 0, 1⟩]⟩,
    ⟨.INT_DEV_CAUSE, 3, 0x30000, [],
      [⟨23, 1, .w1c, 0, 0, 1⟩, ⟨20, 3, .w1c, 0, 0, 7⟩, ⟨16, 4, .w1c, 0, 0, 15⟩, ⟨0, 16, .w1c, 0, 0, 65535⟩]⟩,
    ⟨.INT_LINK_CAUSE0, 3, 0x30010, [],
      [⟨0, 32, .w1c, 0, 0, 4294967295⟩]⟩,
    ⟨.INT_LINK_CAUSE1, 3, 0x30014, [],
      [⟨0, 32, .w1c, 0, 0, 4294967295⟩]⟩,
    ⟨.INT_LINK_CAUSE2, 3, 0x30018, [],
      [⟨0, 4, .w1c, 0, 0, 15⟩]⟩,
    ⟨.INT_SLC_CAUSE, 3, 0x30100, [(64, 0x4)],
      [⟨0, 32, .w1c, 0, 0, 4294967295⟩]⟩ ]

/-- Registers of block ACC. -/
def regsOfAcc : List RegDesc :=
  [ ⟨.ACC_RGN_LO, 4, 0x0, [(21, 0x8)],
      [⟨0, 32, .rw, 0, 0, 4294967295⟩]⟩,
    ⟨.ACC_RGN_HI, 4, 0x4, [(21, 0x8)],
      [⟨0, 8, .rw, 0, 0, 255⟩]⟩,
    ⟨.ACC_VF_GROVE_LO, 4, 0x410, [(15, 0x10)],
      [⟨0, 32, .rw, 0, 0, 4294967295⟩]⟩,
    ⟨.ACC_VF_GROVE_HI, 4, 0x414, [(15, 0x10)],
      [⟨0, 32, .rw, 0, 0, 4294967295⟩]⟩,
    ⟨.ACC_VF_BOUGH, 4, 0x418, [(15, 0x10)],
      [⟨16, 16, .rw, 0, 0, 65535⟩, ⟨0, 16, .rw, 0, 0, 65535⟩]⟩,
    ⟨.ACC_VF_CTRL, 4, 0x41c, [(15, 0x10)],
      [⟨0, 1, .rw, 0, 0, 1⟩]⟩,
    ⟨.ACC_VIOL, 4, 0x800, [],
      [⟨0, 20, .w1c, 0, 0, 1048575⟩]⟩ ]

/-- Registers of block CFG. -/
def regsOfCfg : List RegDesc :=
  [ ⟨.CFG_STATUS, 5, 0x0, [],
      [⟨31, 1, .ro, 0, 0, 1⟩, ⟨29, 2, .ro, 0, 0, 3⟩, ⟨28, 1, .ro, 0, 0, 1⟩, ⟨24, 3, .ro, 0, 0, 7⟩]⟩,
    ⟨.CFG_A_RESULT, 5, 0x4, [],
      [⟨0, 4, .ro, 1, 0, 15⟩]⟩,
    ⟨.CFG_B_RESULT, 5, 0x8, [],
      [⟨0, 4, .ro, 1, 0, 15⟩]⟩,
    ⟨.CFG_IMG_BUILD, 5, 0xc, [],
      [⟨0, 32, .ro, 0, 0, 4294967295⟩]⟩,
    ⟨.CFG_IMG_VER, 5, 0x10, [],
      [⟨0, 16, .ro, 0, 0, 65535⟩]⟩,
    ⟨.CFG_ERR_COUNT, 5, 0x14, [],
      [⟨0, 24, .ro, 0, 0, 16777215⟩]⟩,
    ⟨.CFG_ERR_ADDR, 5, 0x18, [],
      [⟨0, 32, .ro, 0, 0, 4294967295⟩]⟩,
    ⟨.CFG_ERR_STAT, 5, 0x1c, [],
      [⟨0, 8, .ro, 0, 0, 255⟩]⟩,
    ⟨.CFG_POLICY, 5, 0x20, [],
      [⟨0, 1, .rw, 0, 0, 1⟩]⟩,
    ⟨.CFG_FLASH_CMD, 5, 0x40, [],
      [⟨31, 1, .wo, 0, 0, 1⟩, ⟨28, 2, .wo, 0, 0, 3⟩, ⟨0, 9, .wo, 0, 0, 511⟩]⟩,
    ⟨.CFG_FLASH_ADDR, 5, 0x44, [],
      [⟨0, 27, .rw, 0, 0, 134217727⟩]⟩,
    ⟨.CFG_FLASH_STAT, 5, 0x48, [],
      [⟨31, 1, .ro, 0, 0, 1⟩, ⟨0, 8, .ro, 0, 0, 255⟩]⟩,
    ⟨.CFG_CHECK, 5, 0x4c, [],
      [⟨31, 1, .wo, 0, 0, 1⟩, ⟨30, 1, .ro, 0, 0, 1⟩, ⟨8, 1, .wo, 0, 0, 1⟩, ⟨0, 4, .ro, 1, 0, 15⟩]⟩,
    ⟨.CFG_FLASH_BUF, 5, 0x100, [(64, 0x4)],
      [⟨0, 32, .rw, 0, 0, 4294967295⟩]⟩ ]

/-- Registers of block TIME, part 0. -/
def regsOfTime0 : List RegDesc :=
  [ ⟨.TIME_CTRL, 6, 0x0, [],
      [⟨8, 8, .rws, 50, 1, 50⟩, ⟨1, 1, .rws, 0, 0, 1⟩, ⟨0, 1, .rws, 0, 0, 1⟩]⟩,
    ⟨.TIME_STATUS, 6, 0x4, [],
      [⟨5, 1, .ro, 0, 0, 1⟩, ⟨4, 1, .w1c, 0, 0, 1⟩, ⟨3, 1, .ro, 1, 0, 1⟩, ⟨2, 1, .ro, 1, 0, 1⟩, ⟨1, 1, .ro, 0, 0, 1⟩, ⟨0, 1, .ro, 0, 0, 1⟩]⟩,
    ⟨.TIME_SIGMA_LO, 6, 0x8, [],
      [⟨0, 32, .ro, 0, 0, 4294967295⟩]⟩,
    ⟨.TIME_SIGMA_HI, 6, 0xc, [],
      [⟨0, 32, .ro, 0, 0, 4294967295⟩]⟩,
    ⟨.TIME_MARK_CTRL, 6, 0x10, [],
      [⟨31, 1, .rws, 1, 0, 1⟩, ⟨0, 23, .rws, 8000, 800, 800000⟩]⟩,
    ⟨.TIME_EDGE_SFC_LO, 6, 0x20, [],
      [⟨0, 32, .ro, 0, 0, 4294967295⟩]⟩,
    ⟨.TIME_EDGE_SFC_HI, 6, 0x24, [],
      [⟨0, 16, .ro, 0, 0, 65535⟩]⟩,
    ⟨.TIME_EDGE_SEC_LO, 6, 0x28, [],
      [⟨0, 32, .ro, 0, 0, 4294967295⟩]⟩,
    ⟨.TIME_EDGE_SEC_HI, 6, 0x2c, [],
      [⟨0, 32, .ro, 0, 0, 4294967295⟩]⟩,
    ⟨.TIME_EDGE_NS, 6, 0x30, [],
      [⟨0, 30, .ro, 0, 0, 1073741823⟩]⟩,
    ⟨.TIME_EDGE_FRAC, 6, 0x34, [],
      [⟨0, 16, .ro, 0, 0, 65535⟩]⟩,
    ⟨.TIME_X_SEC_LO, 6, 0x100, [(2, 0x80)],
      [⟨0, 32, .ro, 0, 0, 4294967295⟩]⟩,
    ⟨.TIME_X_SEC_HI, 6, 0x104, [(2, 0x80)],
      [⟨0, 32, .ro, 0, 0, 4294967295⟩]⟩,
    ⟨.TIME_X_NS, 6, 0x108, [(2, 0x80)],
      [⟨0, 30, .ro, 0, 0, 1073741823⟩]⟩,
    ⟨.TIME_X_FRAC, 6, 0x10c, [(2, 0x80)],
      [⟨0, 16, .ro, 0, 0, 65535⟩]⟩,
    ⟨.TIME_X_SET_SEC_LO, 6, 0x110, [(2, 0x80)],
      [⟨0, 32, .rw, 0, 0, 4294967295⟩]⟩,
    ⟨.TIME_X_SET_SEC_HI, 6, 0x114, [(2, 0x80)],
      [⟨0, 32, .rw, 0, 0, 4294967295⟩]⟩,
    ⟨.TIME_X_SET_NS, 6, 0x118, [(2, 0x80)],
      [⟨0, 30, .rw, 0, 0, 999999999⟩]⟩,
    ⟨.TIME_X_SET_FRAC, 6, 0x11c, [(2, 0x80)],
      [⟨0, 16, .rw, 0, 0, 65535⟩]⟩,
    ⟨.TIME_X_CMD, 6, 0x120, [(2, 0x80)],
      [⟨31, 1, .wo, 0, 0, 1⟩, ⟨0, 2, .wo, 0, 0, 3⟩]⟩ ]

/-- Registers of block TIME, part 1. -/
def regsOfTime1 : List RegDesc :=
  [ ⟨.TIME_X_FREQ, 6, 0x124, [(2, 0x80)],
      [⟨0, 32, .rw, 0, 0, 4294967295⟩]⟩,
    ⟨.TIME_X_ADJ, 6, 0x128, [(2, 0x80)],
      [⟨0, 32, .rw, 0, 0, 4294967295⟩]⟩,
    ⟨.TIME_X_ADJ_RATE, 6, 0x12c, [(2, 0x80)],
      [⟨0, 24, .rw, 1000000, 1, 10000000⟩]⟩,
    ⟨.TIME_X_ADJ_LEFT, 6, 0x130, [(2, 0x80)],
      [⟨0, 32, .ro, 0, 0, 4294967295⟩]⟩,
    ⟨.TIME_X_SYNC, 6, 0x134, [(2, 0x80)],
      [⟨16, 16, .rws, 500, 1, 65535⟩, ⟨0, 8, .rws, 3, 1, 255⟩]⟩,
    ⟨.TIME_X_SRC, 6, 0x138, [(2, 0x80)],
      [⟨31, 1, .rws, 0, 0, 1⟩, ⟨8, 6, .rws, 0, 0, 63⟩, ⟨0, 8, .rws, 0, 0, 255⟩]⟩,
    ⟨.TIME_LANE_DLY, 6, 0x400, [(64, 0x4)],
      [⟨16, 16, .rw, 0, 0, 65535⟩, ⟨0, 16, .rw, 0, 0, 65535⟩]⟩,
    ⟨.TIME_LANE_CTRL, 6, 0x500, [(64, 0x4)],
      [⟨1, 1, .rw, 0, 0, 1⟩, ⟨0, 1, .rw, 0, 0, 1⟩]⟩,
    ⟨.TIME_GRV_SHARE, 6, 0x600, [(64, 0x4)],
      [⟨0, 32, .rws, 2147483648, 0, 4294967295⟩]⟩,
    ⟨.TIME_CAP_STAT, 6, 0x800, [],
      [⟨31, 1, .wo, 0, 0, 1⟩, ⟨0, 11, .ro, 0, 0, 2047⟩]⟩,
    ⟨.TIME_CAP0, 6, 0x810, [],
      [⟨0, 32, .ro, 0, 0, 4294967295⟩]⟩,
    ⟨.TIME_CAP1, 6, 0x814, [],
      [⟨0, 32, .ro, 0, 0, 4294967295⟩]⟩,
    ⟨.TIME_CAP2, 6, 0x818, [],
      [⟨0, 30, .ro, 0, 0, 1073741823⟩]⟩,
    ⟨.TIME_CAP3, 6, 0x81c, [],
      [⟨16, 16, .ro, 0, 0, 65535⟩, ⟨8, 6, .ro, 0, 0, 63⟩, ⟨0, 1, .ro, 0, 0, 1⟩]⟩,
    ⟨.TIME_CAP4, 6, 0x820, [],
      [⟨28, 4, .ro, 0, 0, 15⟩, ⟨16, 8, .ro, 0, 0, 255⟩, ⟨0, 16, .ro, 0, 0, 65535⟩]⟩,
    ⟨.TIME_CAP5, 6, 0x824, [(3, 0x4)],
      [⟨0, 32, .ro, 0, 0, 4294967295⟩]⟩,
    ⟨.TIME_TX_CTRL, 6, 0x900, [],
      [⟨31, 1, .wo, 0, 0, 1⟩, ⟨30, 1, .wo, 0, 0, 1⟩, ⟨24, 6, .wo, 0, 0, 63⟩, ⟨0, 11, .wo, 0, 0, 2047⟩]⟩,
    ⟨.TIME_TX_STAT, 6, 0x904, [],
      [⟨0, 1, .ro, 0, 0, 1⟩]⟩,
    ⟨.TIME_TX_BUF, 6, 0x1000, [(256, 0x4)],
      [⟨0, 32, .rw, 0, 0, 4294967295⟩]⟩,
    ⟨.TIME_FL_TX_FRAME, 6, 0x2000, [(256, 0x20)],
      [⟨0, 24, .ro, 0, 0, 16777215⟩]⟩ ]

/-- Registers of block TIME, part 2. -/
def regsOfTime2 : List RegDesc :=
  [ ⟨.TIME_FL_TX_SEC, 6, 0x2004, [(256, 0x20)],
      [⟨0, 32, .ro, 0, 0, 4294967295⟩]⟩,
    ⟨.TIME_FL_TX_NS, 6, 0x2008, [(256, 0x20)],
      [⟨0, 30, .ro, 0, 0, 1073741823⟩]⟩,
    ⟨.TIME_FL_RX_FRAME, 6, 0x2010, [(256, 0x20)],
      [⟨0, 24, .ro, 0, 0, 16777215⟩]⟩,
    ⟨.TIME_FL_RX_SEC, 6, 0x2014, [(256, 0x20)],
      [⟨0, 32, .ro, 0, 0, 4294967295⟩]⟩,
    ⟨.TIME_FL_RX_NS, 6, 0x2018, [(256, 0x20)],
      [⟨0, 30, .ro, 0, 0, 1073741823⟩]⟩ ]

/-- Registers of block TIME. -/
def regsOfTime : List RegDesc := regsOfTime0 ++ regsOfTime1 ++ regsOfTime2

/-- Registers of block KEY, part 0. -/
def regsOfKey0 : List RegDesc :=
  [ ⟨.KEY_ID_PUB, 7, 0x0, [(8, 0x4)],
      [⟨0, 32, .ro, 0, 0, 4294967295⟩]⟩,
    ⟨.KEY_CTRL, 7, 0x40, [],
      [⟨31, 1, .ro, 0, 0, 1⟩, ⟨0, 1, .rws, 1, 0, 1⟩]⟩,
    ⟨.KEY_REKEY_INT, 7, 0x44, [],
      [⟨0, 32, .rws, 0, 0, 4294967295⟩]⟩,
    ⟨.KEY_TF, 7, 0x48, [],
      [⟨16, 16, .rws, 8000, 800, 65535⟩, ⟨0, 8, .rws, 16, 1, 255⟩]⟩,
    ⟨.KEY_TIMERS, 7, 0x4c, [],
      [⟨16, 16, .rws, 64, 16, 65535⟩, ⟨4, 8, .rws, 80, 16, 255⟩, ⟨0, 4, .rws, 3, 1, 15⟩]⟩,
    ⟨.KEY_QUEUE, 7, 0x50, [],
      [⟨0, 15, .ro, 0, 0, 32767⟩]⟩,
    ⟨.KEY_CMD, 7, 0x80, [],
      [⟨31, 1, .wo, 0, 0, 1⟩, ⟨24, 4, .wo, 0, 0, 15⟩, ⟨0, 16, .wo, 0, 0, 65535⟩]⟩,
    ⟨.KEY_CMD_LEN, 7, 0x84, [],
      [⟨16, 13, .rw, 0, 0, 4096⟩, ⟨0, 13, .rw, 0, 0, 4096⟩]⟩,
    ⟨.KEY_CMD_STAT, 7, 0x88, [],
      [⟨31, 1, .ro, 0, 0, 1⟩, ⟨0, 8, .ro, 0, 0, 255⟩]⟩,
    ⟨.KEY_NONCE, 7, 0xa0, [(3, 0x4)],
      [⟨0, 32, .rw, 0, 0, 4294967295⟩]⟩,
    ⟨.KEY_TAG, 7, 0xc0, [(8, 0x4)],
      [⟨0, 32, .rw, 0, 0, 4294967295⟩]⟩,
    ⟨.KEY_PUB, 7, 0xe0, [(8, 0x4)],
      [⟨0, 32, .ro, 0, 0, 4294967295⟩]⟩,
    ⟨.KEY_BLOB, 7, 0x100, [(20, 0x4)],
      [⟨0, 32, .wo, 0, 0, 4294967295⟩]⟩,
    ⟨.KEY_BUF, 7, 0x1000, [(1024, 0x4)],
      [⟨0, 32, .rw, 0, 0, 4294967295⟩]⟩,
    ⟨.KEY_GRP_CTRL, 7, 0x2000, [(512, 0x4)],
      [⟨31, 1, .rws, 1, 0, 1⟩, ⟨1, 1, .w1c, 0, 0, 1⟩, ⟨0, 1, .ro, 0, 0, 1⟩]⟩,
    ⟨.KEY_STD_STATE, 7, 0x40000, [(16384, 0x20)],
      [⟨8, 3, .ro, 0, 0, 7⟩, ⟨5, 1, .ro, 0, 0, 1⟩, ⟨4, 1, .ro, 0, 0, 1⟩, ⟨3, 1, .w1c, 0, 0, 1⟩, ⟨1, 2, .ro, 0, 0, 3⟩, ⟨0, 1, .ro, 0, 0, 1⟩]⟩,
    ⟨.KEY_STD_CTR_DS_LO, 7, 0x40004, [(16384, 0x20)],
      [⟨0, 32, .ro, 0, 0, 4294967295⟩]⟩,
    ⟨.KEY_STD_CTR_DS_HI, 7, 0x40008, [(16384, 0x20)],
      [⟨0, 16, .ro, 0, 0, 65535⟩]⟩,
    ⟨.KEY_STD_CTR_US_LO, 7, 0x4000c, [(16384, 0x20)],
      [⟨0, 32, .ro, 0, 0, 4294967295⟩]⟩,
    ⟨.KEY_STD_CTR_US_HI, 7, 0x40010, [(16384, 0x20)],
      [⟨0, 16, .ro, 0, 0, 65535⟩]⟩ ]

/-- Registers of block KEY, part 1. -/
def regsOfKey1 : List RegDesc :=
  [ ⟨.KEY_STD_TF, 7, 0x40014, [(16384, 0x20)],
      [⟨0, 8, .ro, 0, 0, 255⟩]⟩ ]

/-- Registers of block KEY. -/
def regsOfKey : List RegDesc := regsOfKey0 ++ regsOfKey1

/-- Registers of block MATE, part 0. -/
def regsOfMate0 : List RegDesc :=
  [ ⟨.MATE_CTRL, 8, 0x0, [],
      [⟨31, 1, .wo, 0, 0, 1⟩, ⟨30, 1, .wo, 0, 0, 1⟩, ⟨29, 1, .wo, 0, 0, 1⟩, ⟨2, 1, .rws, 1, 0, 1⟩, ⟨1, 1, .rws, 1, 0, 1⟩]⟩,
    ⟨.MATE_STATUS, 8, 0x4, [],
      [⟨30, 2, .ro, 0, 0, 3⟩, ⟨28, 2, .ro, 0, 0, 3⟩, ⟨8, 1, .ro, 0, 0, 1⟩, ⟨7, 1, .ro, 0, 0, 1⟩, ⟨6, 1, .w1c, 0, 0, 1⟩, ⟨5, 1, .w1c, 0, 0, 1⟩, ⟨4, 1, .w1c, 0, 0, 1⟩, ⟨3, 1, .w1c, 0, 0, 1⟩, ⟨2, 1, .ro, 0, 0, 1⟩, ⟨1, 1, .ro, 0, 0, 1⟩, ⟨0, 1, .ro, 0, 0, 1⟩]⟩,
    ⟨.MATE_GRV_EN_LO, 8, 0x8, [],
      [⟨0, 32, .rw, 0, 0, 4294967295⟩]⟩,
    ⟨.MATE_GRV_EN_HI, 8, 0xc, [],
      [⟨0, 32, .rw, 0, 0, 4294967295⟩]⟩,
    ⟨.MATE_DSD_TIME, 8, 0x10, [],
      [⟨0, 17, .rws, 10800, 0, 86399⟩]⟩,
    ⟨.MATE_DSD_INT, 8, 0x14, [],
      [⟨0, 8, .rws, 24, 1, 168⟩]⟩,
    ⟨.MATE_REVERT, 8, 0x18, [],
      [⟨0, 7, .rws, 25, 1, 100⟩]⟩,
    ⟨.MATE_HOLD, 8, 0x1c, [],
      [⟨0, 6, .rw, 32, 0, 48⟩]⟩,
    ⟨.MATE_TKO_WIN, 8, 0x20, [],
      [⟨0, 9, .rws, 128, 16, 256⟩]⟩,
    ⟨.MATE_OFS_MAX, 8, 0x24, [],
      [⟨0, 22, .rws, 1024000, 0, 2097151⟩]⟩,
    ⟨.MATE_LAST_SFC_LO, 8, 0x28, [],
      [⟨0, 32, .ro, 0, 0, 4294967295⟩]⟩,
    ⟨.MATE_LAST_SFC_HI, 8, 0x2c, [],
      [⟨0, 16, .ro, 0, 0, 65535⟩]⟩,
    ⟨.MATE_LAST_CAUSE, 8, 0x30, [],
      [⟨0, 3, .ro, 0, 0, 7⟩]⟩,
    ⟨.MATE_PAIR_STAT, 8, 0x34, [],
      [⟨0, 8, .ro, 0, 0, 255⟩]⟩,
    ⟨.MATE_DIG_STAT, 8, 0x38, [],
      [⟨0, 17, .ro, 0, 0, 131071⟩]⟩,
    ⟨.MATE_DIG_FIRST, 8, 0x3c, [],
      [⟨0, 16, .ro, 0, 0, 65535⟩]⟩,
    ⟨.MATE_PEER_ID, 8, 0x40, [(8, 0x4)],
      [⟨0, 32, .rw, 0, 0, 4294967295⟩]⟩,
    ⟨.MATE_OFS_DS, 8, 0x100, [(64, 0x10)],
      [⟨31, 1, .ro, 0, 0, 1⟩, ⟨30, 1, .w1c, 0, 0, 1⟩, ⟨0, 23, .ro, 0, 0, 8388607⟩]⟩,
    ⟨.MATE_OFS_US, 8, 0x104, [(64, 0x10)],
      [⟨0, 23, .ro, 0, 0, 8388607⟩]⟩,
    ⟨.MATE_DLV_LO, 8, 0x108, [(64, 0x10)],
      [⟨0, 32, .ro, 0, 0, 4294967295⟩]⟩ ]

/-- Registers of block MATE, part 1. -/
def regsOfMate1 : List RegDesc :=
  [ ⟨.MATE_DLV_HI, 8, 0x10c, [(64, 0x10)],
      [⟨0, 16, .ro, 0, 0, 65535⟩]⟩ ]

/-- Registers of block MATE. -/
def regsOfMate : List RegDesc := regsOfMate0 ++ regsOfMate1

/-- Registers of block CNT. -/
def regsOfCnt : List RegDesc :=
  [ ⟨.CNT_DEV_LO, 9, 0x0, [(4096, 0x8)],
      [⟨0, 32, .ro, 0, 0, 4294967295⟩]⟩,
    ⟨.CNT_DEV_HI, 9, 0x4, [(4096, 0x8)],
      [⟨0, 32, .ro, 0, 0, 4294967295⟩]⟩,
    ⟨.CNT_DIR_DEV, 9, 0x10000, [(4096, 0x20), (8, 0x4)],
      [⟨0, 32, .ro, 0, 0, 4294967295⟩]⟩,
    ⟨.CNT_DIR_SET, 9, 0x31000, [(8, 0x1000), (128, 0x20), (8, 0x4)],
      [⟨0, 32, .ro, 0, 0, 4294967295⟩]⟩,
    ⟨.CNT_WIN_SEL, 9, 0x40000, [(20, 0x800)],
      [⟨24, 4, .rw, 1, 1, 8⟩, ⟨0, 17, .rw, 0, 0, 131071⟩]⟩,
    ⟨.CNT_WIN_LO, 9, 0x40100, [(20, 0x800), (128, 0x8)],
      [⟨0, 32, .ro, 0, 0, 4294967295⟩]⟩,
    ⟨.CNT_WIN_HI, 9, 0x40104, [(20, 0x800), (128, 0x8)],
      [⟨0, 32, .ro, 0, 0, 4294967295⟩]⟩,
    ⟨.CNT_SNAP_CTRL, 9, 0x50000, [],
      [⟨16, 16, .rws, 8000, 1, 65535⟩, ⟨0, 11, .rws, 0, 0, 1024⟩]⟩,
    ⟨.CNT_SNAP_SFC_LO, 9, 0x50008, [],
      [⟨0, 32, .ro, 0, 0, 4294967295⟩]⟩,
    ⟨.CNT_SNAP_SFC_HI, 9, 0x5000c, [],
      [⟨0, 16, .ro, 0, 0, 65535⟩]⟩,
    ⟨.CNT_SNAP_LIST0, 9, 0x51000, [(1024, 0x8)],
      [⟨24, 4, .rws, 0, 0, 8⟩, ⟨0, 12, .rws, 0, 0, 4095⟩]⟩,
    ⟨.CNT_SNAP_LIST1, 9, 0x51004, [(1024, 0x8)],
      [⟨0, 17, .rws, 0, 0, 131071⟩]⟩,
    ⟨.CNT_SNAP_BUF_LO, 9, 0x54000, [(1024, 0x8)],
      [⟨0, 32, .ro, 0, 0, 4294967295⟩]⟩,
    ⟨.CNT_SNAP_BUF_HI, 9, 0x54004, [(1024, 0x8)],
      [⟨0, 32, .ro, 0, 0, 4294967295⟩]⟩,
    ⟨.CNT_SMP_CTRL, 9, 0x60000, [(32, 0x100)],
      [⟨24, 4, .rws, 0, 0, 6⟩, ⟨0, 24, .rws, 0, 0, 16777215⟩]⟩,
    ⟨.CNT_SMP_STAT, 9, 0x60004, [(32, 0x100)],
      [⟨0, 5, .ro, 0, 0, 31⟩]⟩,
    ⟨.CNT_SMP_POP, 9, 0x60008, [(32, 0x100)],
      [⟨31, 1, .wo, 0, 0, 1⟩]⟩,
    ⟨.CNT_SMP_REC, 9, 0x60040, [(32, 0x100), (24, 0x4)],
      [⟨0, 32, .ro, 0, 0, 4294967295⟩]⟩ ]

/-- Registers of block LANE, part 0. -/
def regsOfLane0 : List RegDesc :=
  [ ⟨.LANE_UP_CFG, 10, 0x0, [(64, 0x40)],
      [⟨31, 1, .rw, 0, 0, 1⟩, ⟨30, 1, .rw, 1, 0, 1⟩, ⟨28, 2, .rw, 1, 0, 2⟩, ⟨0, 2, .rw, 0, 0, 3⟩]⟩,
    ⟨.LANE_UP_STATUS, 10, 0x4, [(64, 0x40)],
      [⟨31, 1, .ro, 0, 0, 1⟩, ⟨30, 1, .ro, 0, 0, 1⟩, ⟨29, 1, .ro, 0, 0, 1⟩, ⟨28, 1, .w1c, 0, 0, 1⟩, ⟨27, 1, .ro, 0, 0, 1⟩]⟩,
    ⟨.LANE_TX_EQ, 10, 0x8, [(64, 0x40)],
      [⟨0, 30, .rw, 3840, 0, 1073741823⟩]⟩,
    ⟨.LANE_TX_BOUND, 10, 0xc, [(64, 0x40)],
      [⟨8, 8, .rw, 16, 0, 31⟩, ⟨0, 8, .rw, 16, 0, 31⟩]⟩,
    ⟨.LANE_RX_BOUND, 10, 0x10, [(64, 0x40)],
      [⟨28, 4, .rws, 15, 0, 15⟩, ⟨24, 4, .rws, 0, 0, 15⟩, ⟨8, 8, .rws, 64, 0, 127⟩, ⟨0, 8, .rws, 48, 0, 127⟩]⟩,
    ⟨.LANE_RX_EQ, 10, 0x14, [(64, 0x40)],
      [⟨24, 4, .ro, 0, 0, 15⟩, ⟨8, 8, .ro, 0, 0, 255⟩]⟩,
    ⟨.LANE_TEST, 10, 0x18, [(64, 0x40)],
      [⟨31, 1, .rw, 0, 0, 1⟩, ⟨30, 1, .rw, 0, 0, 1⟩, ⟨28, 2, .rw, 0, 0, 1⟩, ⟨0, 2, .rw, 0, 0, 3⟩]⟩,
    ⟨.LANE_PRBS_ERR, 10, 0x1c, [(64, 0x40)],
      [⟨0, 32, .ro, 0, 0, 4294967295⟩]⟩,
    ⟨.LANE_PON_CTRL, 10, 0x1000, [(64, 0x20)],
      [⟨31, 1, .rws, 0, 0, 1⟩, ⟨28, 2, .rw, 0, 0, 1⟩, ⟨27, 1, .rw, 0, 0, 1⟩, ⟨26, 1, .rw, 0, 0, 1⟩, ⟨0, 1, .rw, 0, 0, 1⟩]⟩,
    ⟨.LANE_PON_STATUS, 10, 0x1004, [(64, 0x20)],
      [⟨2, 1, .ro, 0, 0, 1⟩, ⟨1, 1, .ro, 0, 0, 1⟩, ⟨0, 1, .ro, 0, 0, 1⟩]⟩,
    ⟨.LANE_PON_TX_EQ, 10, 0x1008, [(64, 0x20)],
      [⟨0, 18, .rw, 3840, 0, 262143⟩]⟩,
    ⟨.LANE_PON_PRBS_ERR, 10, 0x100c, [(64, 0x20)],
      [⟨0, 32, .ro, 0, 0, 4294967295⟩]⟩,
    ⟨.LANE_PLX_CTRL, 10, 0x2000, [(2, 0x40)],
      [⟨31, 1, .rw, 0, 0, 1⟩, ⟨30, 1, .rw, 0, 0, 1⟩, ⟨8, 8, .rw, 0, 0, 255⟩, ⟨0, 1, .rw, 0, 0, 1⟩]⟩,
    ⟨.LANE_PLX_STATUS, 10, 0x2004, [(2, 0x40)],
      [⟨31, 1, .ro, 0, 0, 1⟩, ⟨30, 1, .w1c, 0, 0, 1⟩, ⟨24, 3, .ro, 0, 0, 7⟩, ⟨8, 8, .ro, 0, 0, 255⟩, ⟨0, 1, .ro, 0, 0, 1⟩]⟩,
    ⟨.LANE_PLX_RX_BOUND, 10, 0x2008, [(2, 0x40)],
      [⟨28, 4, .rws, 15, 0, 15⟩, ⟨24, 4, .rws, 0, 0, 15⟩, ⟨8, 8, .rws, 64, 0, 127⟩, ⟨0, 8, .rws, 48, 0, 127⟩]⟩,
    ⟨.LANE_PLX_TEST, 10, 0x200c, [(2, 0x40)],
      [⟨31, 1, .rw, 0, 0, 1⟩, ⟨30, 1, .rw, 0, 0, 1⟩, ⟨28, 2, .rw, 0, 0, 1⟩, ⟨0, 2, .rw, 0, 0, 3⟩]⟩,
    ⟨.LANE_GRP_LO, 10, 0x3000, [(64, 0x10)],
      [⟨0, 32, .rw, 0, 0, 4294967295⟩]⟩,
    ⟨.LANE_GRP_HI, 10, 0x3004, [(64, 0x10)],
      [⟨0, 32, .rw, 0, 0, 4294967295⟩]⟩,
    ⟨.LANE_GRP_STAT, 10, 0x3008, [(64, 0x10)],
      [⟨0, 7, .ro, 0, 0, 127⟩]⟩,
    ⟨.LANE_PCIE_STATUS, 10, 0x4000, [],
      [⟨4, 4, .ro, 0, 0, 15⟩, ⟨0, 3, .ro, 0, 0, 7⟩]⟩ ]

/-- Registers of block LANE, part 1. -/
def regsOfLane1 : List RegDesc :=
  [ ⟨.LANE_CXL_STATUS, 10, 0x4010, [(2, 0x10)],
      [⟨31, 1, .ro, 0, 0, 1⟩, ⟨30, 1, .ro, 0, 0, 1⟩, ⟨24, 5, .ro, 0, 0, 31⟩, ⟨20, 3, .ro, 0, 0, 7⟩, ⟨0, 12, .ro, 0, 0, 4095⟩]⟩ ]

/-- Registers of block LANE. -/
def regsOfLane : List RegDesc := regsOfLane0 ++ regsOfLane1

/-- Registers of block GRV, part 0. -/
def regsOfGrv0 : List RegDesc :=
  [ ⟨.GRV_DS_CTRL, 11, 0x2000, [(64, 0x40000)],
      [⟨8, 8, .rws, 32, 0, 128⟩, ⟨0, 1, .rws, 0, 0, 1⟩]⟩,
    ⟨.GRV_DS_STATUS, 11, 0x2004, [(64, 0x40000)],
      [⟨16, 1, .ro, 0, 0, 1⟩, ⟨0, 10, .ro, 0, 0, 1023⟩]⟩,
    ⟨.GRV_DS_HDR_CAP0, 11, 0x2008, [(64, 0x40000)],
      [⟨16, 8, .ro, 0, 0, 255⟩, ⟨0, 16, .ro, 0, 0, 65535⟩]⟩,
    ⟨.GRV_DS_HDR_CAP1, 11, 0x200c, [(64, 0x40000)],
      [⟨0, 14, .ro, 0, 0, 16383⟩]⟩,
    ⟨.GRV_DS_PAYLOAD_START, 11, 0x2010, [(64, 0x40000)],
      [⟨0, 22, .ro, 32, 0, 4194303⟩]⟩,
    ⟨.GRV_DS_SFC_LO, 11, 0x2014, [(64, 0x40000)],
      [⟨0, 32, .ro, 0, 0, 4294967295⟩]⟩,
    ⟨.GRV_DS_SFC_HI, 11, 0x2018, [(64, 0x40000)],
      [⟨0, 16, .ro, 0, 0, 65535⟩]⟩,
    ⟨.GRV_US_CTRL, 11, 0x3000, [(64, 0x40000)],
      [⟨24, 8, .rws, 16, 1, 255⟩, ⟨0, 11, .rws, 0, 0, 2047⟩]⟩,
    ⟨.GRV_US_STATUS, 11, 0x3004, [(64, 0x40000)],
      [⟨1, 1, .ro, 0, 0, 1⟩, ⟨0, 1, .w1c, 0, 0, 1⟩]⟩,
    ⟨.GRV_US_RSSI_CTRL, 11, 0x3008, [(64, 0x40000)],
      [⟨31, 1, .wo, 0, 0, 1⟩, ⟨16, 1, .ro, 0, 0, 1⟩, ⟨0, 9, .rw, 0, 0, 255⟩]⟩,
    ⟨.GRV_US_CAP_CTRL, 11, 0x300c, [(64, 0x40000)],
      [⟨31, 1, .wo, 0, 0, 1⟩, ⟨30, 1, .ro, 0, 0, 1⟩]⟩,
    ⟨.GRV_US_CAP_SFC_LO, 11, 0x3010, [(64, 0x40000)],
      [⟨0, 32, .rw, 0, 0, 4294967295⟩]⟩,
    ⟨.GRV_US_CAP_SFC_HI, 11, 0x3014, [(64, 0x40000)],
      [⟨0, 16, .rw, 0, 0, 65535⟩]⟩,
    ⟨.GRV_US_CAP_WORDS, 11, 0x3018, [(64, 0x40000)],
      [⟨0, 15, .ro, 0, 0, 32767⟩]⟩,
    ⟨.GRV_CLEARING_CTRL, 11, 0x4000, [(64, 0x40000)],
      [⟨24, 3, .rws, 2, 1, 4⟩, ⟨18, 6, .rws, 20, 0, 40⟩, ⟨11, 7, .rws, 0, 0, 60⟩, ⟨1, 1, .wo, 0, 0, 1⟩, ⟨0, 1, .rws, 1, 0, 1⟩]⟩,
    ⟨.GRV_CLR_FAST, 11, 0x4004, [(64, 0x40000)],
      [⟨0, 20, .rws, 8000, 800, 800000⟩]⟩,
    ⟨.GRV_CLR_SLOW, 11, 0x4008, [(64, 0x40000)],
      [⟨0, 20, .rws, 80000, 0, 800000⟩]⟩,
    ⟨.GRV_CLR_HOLD, 11, 0x400c, [(64, 0x40000)],
      [⟨0, 23, .rws, 480000, 0, 8000000⟩]⟩,
    ⟨.GRV_RNG_CTRL, 11, 0x4010, [(64, 0x40000)],
      [⟨28, 4, .rws, 4, 1, 15⟩, ⟨24, 4, .rws, 2, 1, 8⟩, ⟨20, 4, .rws, 8, 2, 15⟩, ⟨16, 4, .rws, 4, 1, 15⟩, ⟨11, 5, .rws, 8, 1, 31⟩]⟩,
    ⟨.GRV_RNG_DISC_T, 11, 0x4014, [(64, 0x40000)],
      [⟨0, 23, .rws, 80000, 8, 8000000⟩]⟩ ]

/-- Registers of block GRV, part 1. -/
def regsOfGrv1 : List RegDesc :=
  [ ⟨.GRV_RNG_RNG_T, 11, 0x4018, [(64, 0x40000)],
      [⟨0, 23, .rws, 40000, 8, 8000000⟩]⟩,
    ⟨.GRV_RNG_REACQ_T, 11, 0x401c, [(64, 0x40000)],
      [⟨0, 23, .rws, 16000, 8, 8000000⟩]⟩,
    ⟨.GRV_CLR_STATUS, 11, 0x4020, [(64, 0x40000)],
      [⟨17, 1, .ro, 0, 0, 1⟩, ⟨16, 1, .ro, 0, 0, 1⟩, ⟨0, 16, .ro, 0, 0, 65535⟩]⟩,
    ⟨.GRV_CLR_NEXT_LO, 11, 0x4024, [(64, 0x40000)],
      [⟨0, 32, .ro, 0, 0, 4294967295⟩]⟩,
    ⟨.GRV_CLR_NEXT_HI, 11, 0x4028, [(64, 0x40000)],
      [⟨0, 16, .ro, 0, 0, 65535⟩]⟩,
    ⟨.GRV_RNG_CMD, 11, 0x402c, [(64, 0x40000)],
      [⟨31, 1, .wo, 0, 0, 1⟩, ⟨16, 2, .wo, 0, 0, 3⟩, ⟨0, 9, .wo, 0, 0, 511⟩]⟩,
    ⟨.GRV_PRESET_BOUND, 11, 0x4030, [(64, 0x40000)],
      [⟨24, 6, .rws, 8, 0, 63⟩, ⟨16, 8, .rws, 64, 0, 127⟩, ⟨8, 8, .rws, 48, 0, 127⟩, ⟨0, 8, .rws, 2, 1, 32⟩]⟩,
    ⟨.GRV_PRESET_MSE, 11, 0x4034, [(64, 0x40000)],
      [⟨0, 8, .rws, 64, 0, 255⟩]⟩,
    ⟨.GRV_PRESET_DEF, 11, 0x4038, [(64, 0x40000), (3, 0x4)],
      [⟨0, 32, .rw, 0, 0, 4294967295⟩]⟩,
    ⟨.GRV_STD_CTRL, 11, 0x5000, [(64, 0x40000)],
      [⟨16, 16, .rws, 32, 2, 65535⟩, ⟨8, 6, .rws, 8, 1, 63⟩, ⟨0, 2, .rws, 0, 0, 2⟩]⟩,
    ⟨.GRV_STD_SILENCE_T, 11, 0x5004, [(64, 0x40000)],
      [⟨0, 23, .rws, 0, 0, 8000000⟩]⟩,
    ⟨.GRV_MSG_TX_BODY, 11, 0x5100, [(64, 0x40000), (12, 0x4)],
      [⟨0, 32, .rw, 0, 0, 4294967295⟩]⟩,
    ⟨.GRV_MSG_TX_CMD, 11, 0x5130, [(64, 0x40000)],
      [⟨31, 1, .wo, 0, 0, 1⟩, ⟨0, 9, .wo, 0, 0, 511⟩]⟩,
    ⟨.GRV_MSG_TX_DONE0, 11, 0x5134, [(64, 0x40000)],
      [⟨0, 32, .ro, 0, 0, 4294967295⟩]⟩,
    ⟨.GRV_MSG_TX_DONE1, 11, 0x5138, [(64, 0x40000)],
      [⟨31, 1, .ro, 0, 0, 1⟩, ⟨0, 24, .ro, 0, 0, 16777215⟩]⟩,
    ⟨.GRV_MSG_TX_DONE2, 11, 0x513c, [(64, 0x40000)],
      [⟨0, 16, .ro, 0, 0, 65535⟩]⟩,
    ⟨.GRV_MSG_RX, 11, 0x5200, [(64, 0x40000), (16, 0x4)],
      [⟨0, 32, .ro, 0, 0, 4294967295⟩]⟩,
    ⟨.GRV_MSG_RX_STAT, 11, 0x5240, [(64, 0x40000)],
      [⟨31, 1, .wo, 0, 0, 1⟩, ⟨0, 7, .ro, 0, 0, 127⟩]⟩,
    ⟨.GRV_MODE, 11, 0x6000, [(64, 0x40000)],
      [⟨1, 1, .rw, 0, 0, 1⟩, ⟨0, 1, .rw, 0, 0, 1⟩]⟩,
    ⟨.GRV_CPT_CTRL, 11, 0x6004, [(64, 0x40000)],
      [⟨0, 1, .rws, 0, 0, 1⟩]⟩ ]

/-- Registers of block GRV, part 2. -/
def regsOfGrv2 : List RegDesc :=
  [ ⟨.GRV_CPT_QUIET, 11, 0x6008, [(64, 0x40000)],
      [⟨24, 3, .rws, 2, 1, 4⟩, ⟨18, 6, .rws, 20, 0, 40⟩, ⟨11, 7, .rws, 0, 0, 60⟩, ⟨0, 1, .rws, 1, 0, 1⟩]⟩,
    ⟨.GRV_CPT_PROFILE, 11, 0x6010, [(64, 0x40000), (4, 0x4)],
      [⟨0, 16, .rws, 0, 0, 65535⟩]⟩,
    ⟨.GRV_CPT_OMCI_TXCTL, 11, 0x6100, [(64, 0x40000)],
      [⟨31, 1, .wo, 0, 0, 1⟩, ⟨16, 11, .wo, 0, 0, 2047⟩, ⟨0, 9, .wo, 0, 0, 511⟩]⟩,
    ⟨.GRV_CPT_OMCI_RXSTAT, 11, 0x6104, [(64, 0x40000)],
      [⟨31, 1, .wo, 0, 0, 1⟩, ⟨16, 12, .ro, 0, 0, 4095⟩, ⟨4, 9, .ro, 0, 0, 511⟩, ⟨0, 4, .ro, 0, 0, 15⟩]⟩,
    ⟨.GRV_CPT_OMCI_TXBUF, 11, 0x6800, [(64, 0x40000), (512, 0x4)],
      [⟨0, 32, .rw, 0, 0, 4294967295⟩]⟩,
    ⟨.GRV_CPT_OMCI_RXBUF, 11, 0x7000, [(64, 0x40000), (512, 0x4)],
      [⟨0, 32, .ro, 0, 0, 4294967295⟩]⟩,
    ⟨.GRV_RNG_EQD, 11, 0x8000, [(64, 0x40000), (256, 0x20)],
      [⟨0, 27, .ro, 0, 0, 134217727⟩]⟩,
    ⟨.GRV_RNG_LOOP, 11, 0x8004, [(64, 0x40000), (256, 0x20)],
      [⟨0, 27, .ro, 0, 0, 134217727⟩]⟩,
    ⟨.GRV_RNG_PHASE, 11, 0x8008, [(64, 0x40000), (256, 0x20)],
      [⟨16, 13, .ro, 0, 0, 8191⟩, ⟨0, 13, .ro, 0, 0, 8191⟩]⟩,
    ⟨.GRV_RNG_FLAGS, 11, 0x800c, [(64, 0x40000), (256, 0x20)],
      [⟨8, 5, .ro, 0, 0, 31⟩, ⟨4, 4, .ro, 0, 0, 15⟩, ⟨3, 1, .ro, 0, 0, 1⟩, ⟨2, 1, .ro, 0, 0, 1⟩, ⟨1, 1, .w1c, 0, 0, 1⟩, ⟨0, 1, .ro, 0, 0, 1⟩]⟩,
    ⟨.GRV_RNG_DRIFT, 11, 0x8010, [(64, 0x40000), (256, 0x20)],
      [⟨0, 24, .ro, 0, 0, 16777215⟩]⟩,
    ⟨.GRV_RNG_PRESET0, 11, 0x8014, [(64, 0x40000), (256, 0x20)],
      [⟨0, 32, .ro, 0, 0, 4294967295⟩]⟩,
    ⟨.GRV_RNG_PRESET1, 11, 0x8018, [(64, 0x40000), (256, 0x20)],
      [⟨0, 32, .ro, 0, 0, 4294967295⟩]⟩,
    ⟨.GRV_RNG_PRESET2, 11, 0x801c, [(64, 0x40000), (256, 0x20)],
      [⟨24, 8, .ro, 0, 0, 255⟩, ⟨16, 4, .ro, 0, 0, 15⟩, ⟨8, 6, .ro, 0, 0, 63⟩, ⟨0, 6, .ro, 0, 0, 63⟩]⟩,
    ⟨.GRV_US_CAP_BUF, 11, 0x20000, [(64, 0x40000), (18432, 0x4)],
      [⟨0, 32, .ro, 0, 0, 4294967295⟩]⟩ ]

/-- Registers of block GRV. -/
def regsOfGrv : List RegDesc := regsOfGrv0 ++ regsOfGrv1 ++ regsOfGrv2

/-- Registers of block STD. -/
def regsOfStd : List RegDesc :=
  [ ⟨.STD_STATE, 12, 0x0, [(16384, 0x100)],
      [⟨6, 1, .ro, 0, 0, 1⟩, ⟨5, 1, .w1c, 0, 0, 1⟩, ⟨4, 1, .w1c, 0, 0, 1⟩, ⟨3, 1, .ro, 0, 0, 1⟩, ⟨0, 3, .ro, 0, 0, 7⟩]⟩,
    ⟨.STD_CTRL, 12, 0x4, [(16384, 0x100)],
      [⟨16, 12, .rws, 0, 0, 4095⟩, ⟨0, 1, .rws, 1, 0, 1⟩]⟩,
    ⟨.STD_SERIAL_LO, 12, 0x8, [(16384, 0x100)],
      [⟨0, 32, .ro, 0, 0, 4294967295⟩]⟩,
    ⟨.STD_SERIAL_HI, 12, 0xc, [(16384, 0x100)],
      [⟨0, 32, .ro, 0, 0, 4294967295⟩]⟩,
    ⟨.STD_ADMIT_SERIAL_LO, 12, 0x10, [(16384, 0x100)],
      [⟨0, 32, .rw, 0, 0, 4294967295⟩]⟩,
    ⟨.STD_ADMIT_SERIAL_HI, 12, 0x14, [(16384, 0x100)],
      [⟨0, 32, .rw, 0, 0, 4294967295⟩]⟩,
    ⟨.STD_ADMIT, 12, 0x18, [(16384, 0x100)],
      [⟨0, 1, .rw, 0, 0, 1⟩]⟩,
    ⟨.STD_REST_RATE, 12, 0x1c, [(16384, 0x100)],
      [⟨0, 30, .rws, 400000, 1, 1073741823⟩]⟩,
    ⟨.STD_REST_MAX, 12, 0x20, [(16384, 0x100)],
      [⟨0, 23, .rws, 80000, 64, 4800000⟩]⟩,
    ⟨.STD_CMD, 12, 0x24, [(16384, 0x100)],
      [⟨31, 1, .wo, 0, 0, 1⟩, ⟨0, 4, .wo, 0, 0, 15⟩]⟩,
    ⟨.STD_WAKE_LO, 12, 0x28, [(16384, 0x100)],
      [⟨0, 32, .ro, 0, 0, 4294967295⟩]⟩,
    ⟨.STD_WAKE_HI, 12, 0x2c, [(16384, 0x100)],
      [⟨0, 16, .ro, 0, 0, 65535⟩]⟩,
    ⟨.STD_MCAST, 12, 0x40, [(16384, 0x100), (16, 0x4)],
      [⟨0, 32, .rws, 0, 0, 4294967295⟩]⟩ ]

/-- Registers of block BGH. -/
def regsOfBgh : List RegDesc :=
  [ ⟨.BGH_BIND, 13, 0x0, [(65536, 0x40)],
      [⟨31, 1, .rws, 0, 0, 1⟩, ⟨16, 4, .rws, 0, 0, 15⟩, ⟨0, 14, .rws, 0, 0, 16383⟩]⟩,
    ⟨.BGH_CTRL, 13, 0x4, [(65536, 0x40)],
      [⟨31, 1, .ro, 0, 0, 1⟩, ⟨20, 2, .rws, 0, 0, 2⟩, ⟨16, 2, .rws, 3, 0, 3⟩, ⟨8, 8, .rws, 1, 1, 255⟩, ⟨0, 2, .rws, 3, 0, 3⟩]⟩,
    ⟨.BGH_FIXED, 13, 0x8, [(65536, 0x40)],
      [⟨0, 24, .rws, 0, 0, 12800000⟩]⟩,
    ⟨.BGH_ASSURED, 13, 0xc, [(65536, 0x40)],
      [⟨0, 24, .rws, 0, 0, 12800000⟩]⟩,
    ⟨.BGH_MAX, 13, 0x10, [(65536, 0x40)],
      [⟨0, 24, .rws, 12800000, 0, 12800000⟩]⟩,
    ⟨.BGH_POLL, 13, 0x14, [(65536, 0x40)],
      [⟨16, 8, .rws, 2, 1, 255⟩, ⟨0, 8, .rws, 0, 0, 255⟩]⟩,
    ⟨.BGH_PRED, 13, 0x18, [(65536, 0x40)],
      [⟨31, 1, .rws, 0, 0, 1⟩, ⟨24, 3, .rws, 3, 0, 7⟩, ⟨0, 16, .rws, 0, 0, 50000⟩]⟩,
    ⟨.BGH_STATUS, 13, 0x1c, [(65536, 0x40)],
      [⟨31, 1, .w1c, 0, 0, 1⟩, ⟨30, 1, .ro, 0, 0, 1⟩, ⟨0, 24, .ro, 0, 0, 16777215⟩]⟩,
    ⟨.BGH_REQUEST, 13, 0x20, [(65536, 0x40)],
      [⟨0, 24, .ro, 0, 0, 16777215⟩]⟩,
    ⟨.BGH_GRANT, 13, 0x24, [(65536, 0x40)],
      [⟨16, 16, .ro, 0, 0, 65535⟩, ⟨0, 16, .ro, 0, 0, 65535⟩]⟩,
    ⟨.BGH_RATE, 13, 0x28, [(65536, 0x40)],
      [⟨0, 24, .ro, 0, 0, 16777215⟩]⟩,
    ⟨.BGH_DIGEST, 13, 0x2c, [(65536, 0x40)],
      [⟨0, 32, .ro, 0, 0, 4294967295⟩]⟩ ]

/-- Registers of block GNT. -/
def regsOfGnt : List RegDesc :=
  [ ⟨.GNT_LANE_BOUGHS, 14, 0x100, [(16, 0x10)],
      [⟨0, 13, .ro, 0, 0, 8191⟩]⟩,
    ⟨.GNT_LANE_FINISH, 14, 0x104, [(16, 0x10)],
      [⟨0, 18, .ro, 0, 0, 262143⟩]⟩,
    ⟨.GNT_LANE_WORST, 14, 0x108, [(16, 0x10)],
      [⟨0, 18, .ro, 0, 0, 262143⟩]⟩,
    ⟨.GNT_LANE_ECC, 14, 0x10c, [(16, 0x10)],
      [⟨1, 1, .w1c, 0, 0, 1⟩, ⟨0, 1, .w1c, 0, 0, 1⟩]⟩,
    ⟨.GNT_GRV_CTRL, 14, 0x1000, [(64, 0x40)],
      [⟨31, 1, .wo, 0, 0, 1⟩, ⟨16, 11, .rws, 1024, 256, 1024⟩]⟩,
    ⟨.GNT_GRV_ASSURE, 14, 0x1004, [(64, 0x40)],
      [⟨0, 24, .ro, 0, 0, 16777215⟩]⟩,
    ⟨.GNT_GRV_CAP, 14, 0x1008, [(64, 0x40)],
      [⟨0, 24, .ro, 39755, 0, 16777215⟩]⟩,
    ⟨.GNT_GRV_PTR, 14, 0x100c, [(64, 0x40)],
      [⟨16, 8, .ro, 0, 0, 255⟩, ⟨0, 8, .ro, 0, 0, 255⟩]⟩,
    ⟨.GNT_GRV_LAST, 14, 0x1010, [(64, 0x40)],
      [⟨16, 11, .ro, 0, 0, 2047⟩, ⟨0, 16, .ro, 0, 0, 65535⟩]⟩,
    ⟨.GNT_GRV_STATUS, 14, 0x1014, [(64, 0x40)],
      [⟨1, 1, .ro, 0, 0, 1⟩, ⟨0, 1, .w1c, 0, 0, 1⟩]⟩ ]

/-- Registers of block PIPE, part 0. -/
def regsOfPipe0 : List RegDesc :=
  [ ⟨.PIPE_RS_CTRL, 15, 0x0, [],
      [⟨31, 1, .wo, 0, 0, 1⟩, ⟨0, 1, .rws, 0, 0, 1⟩]⟩,
    ⟨.PIPE_RS_STATUS, 15, 0x4, [],
      [⟨8, 1, .ro, 0, 0, 1⟩, ⟨5, 1, .ro, 0, 0, 1⟩, ⟨4, 1, .ro, 0, 0, 1⟩, ⟨1, 1, .ro, 0, 0, 1⟩, ⟨0, 1, .ro, 0, 0, 1⟩]⟩,
    ⟨.PIPE_TPID, 15, 0x8, [],
      [⟨0, 16, .rw, 37120, 0, 65535⟩]⟩,
    ⟨.PIPE_HASH_SEED, 15, 0xc, [],
      [⟨0, 32, .rw, 4294967295, 0, 4294967295⟩]⟩,
    ⟨.PIPE_FRAG_CTRL, 15, 0x10, [],
      [⟨16, 13, .rws, 480, 8, 8000⟩, ⟨0, 1, .rws, 0, 0, 1⟩]⟩,
    ⟨.PIPE_FRAG_STATUS, 15, 0x14, [],
      [⟨0, 14, .ro, 0, 0, 16383⟩]⟩,
    ⟨.PIPE_SVID_BASE, 15, 0x18, [],
      [⟨0, 12, .rw, 1000, 0, 4095⟩]⟩,
    ⟨.PIPE_P_FILL, 15, 0x100, [(32, 0x10)],
      [⟨16, 14, .ro, 0, 0, 16383⟩, ⟨0, 12, .ro, 0, 0, 4095⟩]⟩,
    ⟨.PIPE_SEL_W0, 15, 0x100000, [(2, 0x100000), (128, 0x8)],
      [⟨31, 1, .rw, 0, 0, 1⟩, ⟨28, 2, .rw, 0, 0, 3⟩, ⟨26, 2, .rw, 0, 0, 3⟩, ⟨0, 16, .rw, 0, 0, 65535⟩]⟩,
    ⟨.PIPE_SEL_W1, 15, 0x100004, [(2, 0x100000), (128, 0x8)],
      [⟨16, 16, .rw, 0, 0, 65535⟩, ⟨0, 6, .rw, 0, 0, 63⟩]⟩,
    ⟨.PIPE_PRF_EXT, 15, 0x110000, [(2, 0x100000), (64, 0x100), (16, 0x4)],
      [⟨31, 1, .rw, 0, 0, 1⟩, ⟨30, 1, .rw, 0, 0, 1⟩, ⟨16, 8, .rw, 0, 0, 255⟩, ⟨8, 4, .rw, 0, 0, 15⟩, ⟨0, 6, .rw, 0, 0, 63⟩]⟩,
    ⟨.PIPE_PRF_LKP0, 15, 0x110040, [(2, 0x100000), (64, 0x100), (3, 0x8)],
      [⟨30, 2, .rw, 0, 0, 3⟩, ⟨28, 2, .rw, 0, 0, 3⟩, ⟨16, 6, .rw, 0, 0, 63⟩, ⟨0, 8, .rw, 0, 0, 240⟩]⟩,
    ⟨.PIPE_PRF_LKP1, 15, 0x110044, [(2, 0x100000), (64, 0x100), (3, 0x8)],
      [⟨18, 14, .rw, 0, 0, 16383⟩, ⟨0, 16, .rw, 0, 0, 65535⟩]⟩,
    ⟨.PIPE_PRF_L3, 15, 0x110058, [(2, 0x100000), (64, 0x100)],
      [⟨30, 2, .rw, 0, 0, 2⟩, ⟨16, 8, .rw, 0, 0, 255⟩]⟩,
    ⟨.PIPE_ACT_W0, 15, 0x140000, [(2, 0x100000), (16384, 0x10)],
      [⟨28, 4, .rw, 0, 0, 15⟩, ⟨0, 19, .rw, 0, 0, 524287⟩]⟩,
    ⟨.PIPE_ACT_W1, 15, 0x140004, [(2, 0x100000), (16384, 0x10)],
      [⟨31, 1, .rw, 0, 0, 1⟩, ⟨0, 17, .rw, 0, 0, 131071⟩]⟩,
    ⟨.PIPE_ACT_W2, 15, 0x140008, [(2, 0x100000), (16384, 0x10)],
      [⟨16, 16, .rw, 0, 0, 65535⟩, ⟨0, 12, .rw, 0, 0, 4095⟩]⟩,
    ⟨.PIPE_ACT_W3, 15, 0x14000c, [(2, 0x100000), (16384, 0x10)],
      [⟨28, 4, .rw, 0, 0, 15⟩, ⟨0, 16, .rw, 0, 0, 65535⟩]⟩,
    ⟨.PIPE_FLOOD_PORTS_LO, 15, 0x400000, [(4096, 0x10)],
      [⟨0, 32, .rw, 0, 0, 4294967295⟩]⟩,
    ⟨.PIPE_FLOOD_PORTS_HI, 15, 0x400004, [(4096, 0x10)],
      [⟨0, 32, .rw, 0, 0, 4294967295⟩]⟩ ]

/-- Registers of block PIPE, part 1. -/
def regsOfPipe1 : List RegDesc :=
  [ ⟨.PIPE_FLOOD_GRP, 15, 0x400008, [(4096, 0x10)],
      [⟨31, 1, .rw, 0, 0, 1⟩, ⟨16, 9, .rw, 0, 0, 511⟩, ⟨0, 12, .rw, 0, 0, 4095⟩]⟩ ]

/-- Registers of block PIPE. -/
def regsOfPipe : List RegDesc := regsOfPipe0 ++ regsOfPipe1

/-- Registers of block TBL. -/
def regsOfTbl : List RegDesc :=
  [ ⟨.TBL_BR_SEED, 16, 0x0, [],
      [⟨0, 32, .rw, 4294967295, 0, 4294967295⟩]⟩,
    ⟨.TBL_BR_AGE, 16, 0x4, [],
      [⟨0, 27, .rws, 2400000, 8000, 80000000⟩]⟩,
    ⟨.TBL_BR_LEARN_ACT, 16, 0x8, [],
      [⟨16, 14, .rws, 0, 0, 16383⟩, ⟨0, 14, .rws, 0, 0, 16383⟩]⟩,
    ⟨.TBL_BR_STATUS, 16, 0xc, [],
      [⟨0, 22, .ro, 0, 0, 4194303⟩]⟩,
    ⟨.TBL_BR_STASH, 16, 0x10, [],
      [⟨0, 13, .ro, 0, 0, 8191⟩]⟩,
    ⟨.TBL_BR_DEFER, 16, 0x14, [],
      [⟨0, 17, .ro, 0, 0, 131071⟩]⟩,
    ⟨.TBL_LOCK, 16, 0x100, [(4, 0x10)],
      [⟨31, 1, .ro, 0, 0, 1⟩, ⟨16, 5, .ro, 0, 0, 31⟩, ⟨1, 1, .wo, 0, 0, 1⟩, ⟨0, 1, .rw, 0, 0, 1⟩]⟩,
    ⟨.TBL_LOCK_T, 16, 0x104, [(4, 0x10)],
      [⟨0, 20, .rws, 8000, 8, 800000⟩]⟩,
    ⟨.TBL_RING_BASE_LO, 16, 0x1000, [(16, 0x20)],
      [⟨5, 27, .rw, 0, 0, 134217727⟩]⟩,
    ⟨.TBL_RING_BASE_HI, 16, 0x1004, [(16, 0x20)],
      [⟨0, 32, .rw, 0, 0, 4294967295⟩]⟩,
    ⟨.TBL_RING_SIZE, 16, 0x1008, [(16, 0x20)],
      [⟨0, 5, .rw, 4, 4, 16⟩]⟩,
    ⟨.TBL_RING_TAIL, 16, 0x100c, [(16, 0x20)],
      [⟨0, 16, .rw, 0, 0, 65535⟩]⟩,
    ⟨.TBL_RING_HEAD, 16, 0x1010, [(16, 0x20)],
      [⟨0, 16, .ro, 0, 0, 65535⟩]⟩,
    ⟨.TBL_RING_CTRL, 16, 0x1014, [(16, 0x20)],
      [⟨0, 1, .rw, 0, 0, 1⟩]⟩,
    ⟨.TBL_BR_DOM, 16, 0x4000, [(4096, 0x4)],
      [⟨1, 1, .rw, 1, 0, 1⟩, ⟨0, 1, .rw, 1, 0, 1⟩]⟩ ]

/-- Registers of block ASC. -/
def regsOfAsc : List RegDesc :=
  [ ⟨.ASC_BANK_CFG, 17, 0x0, [(256, 0x4)],
      [⟨2, 1, .rw, 0, 0, 1⟩, ⟨0, 2, .rw, 0, 0, 3⟩]⟩,
    ⟨.ASC_WIN_VALUE, 17, 0x1000, [(16, 0x4)],
      [⟨0, 32, .rw, 0, 0, 4294967295⟩]⟩,
    ⟨.ASC_WIN_MASK, 17, 0x1040, [(16, 0x4)],
      [⟨0, 32, .rw, 0, 0, 4294967295⟩]⟩,
    ⟨.ASC_WIN_SIDE, 17, 0x1080, [],
      [⟨31, 1, .rw, 0, 0, 1⟩, ⟨24, 4, .rw, 0, 0, 15⟩, ⟨0, 14, .rw, 0, 0, 16383⟩]⟩,
    ⟨.ASC_WIN_CMD, 17, 0x1084, [],
      [⟨31, 1, .wo, 0, 0, 1⟩, ⟨28, 2, .wo, 0, 0, 3⟩, ⟨0, 20, .wo, 0, 0, 1048575⟩]⟩,
    ⟨.ASC_WIN_STAT, 17, 0x1088, [],
      [⟨31, 1, .ro, 0, 0, 1⟩, ⟨0, 8, .ro, 0, 0, 255⟩]⟩,
    ⟨.ASC_CAS_CTRL, 17, 0x2000, [],
      [⟨4, 2, .rw, 0, 0, 3⟩, ⟨0, 2, .rw, 0, 0, 3⟩]⟩,
    ⟨.ASC_CAS_STATUS, 17, 0x2004, [],
      [⟨0, 1, .ro, 1, 0, 1⟩]⟩,
    ⟨.ASC_CAS_TIMEOUT, 17, 0x2008, [],
      [⟨0, 12, .rw, 512, 300, 4095⟩]⟩ ]

/-- Registers of block BUF, part 0. -/
def regsOfBuf0 : List RegDesc :=
  [ ⟨.BUF_POOL_NEAR, 18, 0x0, [(4, 0x4)],
      [⟨0, 7, .rw, 0, 0, 127⟩]⟩,
    ⟨.BUF_POOL_DEEP, 18, 0x10, [(4, 0x4)],
      [⟨0, 6, .rw, 0, 0, 63⟩]⟩,
    ⟨.BUF_POOL_NFREE, 18, 0x20, [(4, 0x8)],
      [⟨0, 19, .ro, 0, 0, 524287⟩]⟩,
    ⟨.BUF_POOL_DFREE, 18, 0x24, [(4, 0x8)],
      [⟨0, 26, .ro, 0, 0, 67108863⟩]⟩,
    ⟨.BUF_DEEP_CTRL, 18, 0x40, [],
      [⟨31, 1, .wo, 0, 0, 1⟩]⟩,
    ⟨.BUF_DEEP_STATUS, 18, 0x44, [],
      [⟨4, 1, .w1c, 0, 0, 1⟩, ⟨2, 1, .ro, 1, 0, 1⟩, ⟨0, 2, .ro, 0, 0, 3⟩]⟩,
    ⟨.BUF_DEEP_WD, 18, 0x48, [],
      [⟨16, 16, .rw, 8000, 8, 65535⟩, ⟨0, 16, .rw, 16, 1, 65535⟩]⟩,
    ⟨.BUF_DEEP_USED, 18, 0x4c, [],
      [⟨0, 32, .ro, 0, 0, 4294967295⟩]⟩,
    ⟨.BUF_HOLD_STATUS, 18, 0x50, [],
      [⟨31, 1, .ro, 1, 0, 1⟩, ⟨29, 2, .ro, 0, 0, 3⟩, ⟨0, 12, .ro, 0, 0, 4095⟩]⟩,
    ⟨.BUF_HOLD_CTRL, 18, 0x54, [],
      [⟨0, 9, .rw, 0, 0, 256⟩]⟩,
    ⟨.BUF_DFREE_CAP, 18, 0x58, [],
      [⟨30, 2, .ro, 0, 0, 3⟩, ⟨24, 6, .ro, 0, 0, 63⟩, ⟨0, 24, .ro, 0, 0, 16777215⟩]⟩,
    ⟨.BUF_DFREE_CAP1, 18, 0x5c, [],
      [⟨8, 2, .ro, 0, 0, 3⟩, ⟨0, 8, .ro, 0, 0, 255⟩]⟩,
    ⟨.BUF_SHADOW_FILL, 18, 0x100, [(64, 0x8)],
      [⟨0, 26, .ro, 0, 0, 67108863⟩]⟩,
    ⟨.BUF_SHADOW_OVF, 18, 0x104, [(64, 0x8)],
      [⟨0, 29, .ro, 0, 0, 536870911⟩]⟩,
    ⟨.BUF_PRF_SPILL, 18, 0x1000, [(16, 0x10)],
      [⟨0, 22, .rws, 1024, 16, 65536⟩]⟩,
    ⟨.BUF_PRF_KEEP, 18, 0x1004, [(16, 0x10)],
      [⟨0, 16, .rws, 128, 16, 16384⟩]⟩,
    ⟨.BUF_PRF_DEEP, 18, 0x1008, [(16, 0x10)],
      [⟨0, 15, .rws, 1024, 1, 14080⟩]⟩,
    ⟨.BUF_Q_CFG, 18, 0x200000, [(524288, 0x4)],
      [⟨31, 1, .rws, 1, 0, 1⟩, ⟨30, 1, .rws, 0, 0, 1⟩, ⟨0, 4, .rws, 0, 0, 15⟩]⟩,
    ⟨.BUF_Q_NEAR, 18, 0x400000, [(524288, 0x8)],
      [⟨0, 26, .ro, 0, 0, 67108863⟩]⟩,
    ⟨.BUF_Q_DEEP, 18, 0x400004, [(524288, 0x8)],
      [⟨31, 1, .w1c, 0, 0, 1⟩, ⟨30, 1, .ro, 0, 0, 1⟩, ⟨0, 24, .ro, 0, 0, 16777215⟩]⟩ ]

/-- Registers of block BUF, part 1. -/
def regsOfBuf1 : List RegDesc :=
  [ ⟨.BUF_HOLD_QUOTA, 18, 0x800000, [(16384, 0x10)],
      [⟨0, 22, .rws, 128, 0, 2097152⟩]⟩,
    ⟨.BUF_HOLD_USED, 18, 0x800004, [(16384, 0x10)],
      [⟨0, 32, .ro, 0, 0, 4294967295⟩]⟩ ]

/-- Registers of block BUF. -/
def regsOfBuf : List RegDesc := regsOfBuf0 ++ regsOfBuf1

/-- Registers of block SCH, part 0. -/
def regsOfSch0 : List RegDesc :=
  [ ⟨.SCH_GRV_MC, 19, 0x0, [(64, 0x10)],
      [⟨0, 22, .rws, 262144, 0, 1998848⟩]⟩,
    ⟨.SCH_GRV_ASSURE, 19, 0x4, [(64, 0x10)],
      [⟨0, 22, .ro, 0, 0, 4194303⟩]⟩,
    ⟨.SCH_GRV_LAST, 19, 0x8, [(64, 0x10)],
      [⟨16, 9, .ro, 0, 0, 511⟩, ⟨0, 9, .ro, 0, 0, 511⟩]⟩,
    ⟨.SCH_WHEEL, 19, 0x800, [(16, 0x4)],
      [⟨16, 11, .ro, 0, 0, 2047⟩, ⟨0, 11, .ro, 0, 0, 2047⟩]⟩,
    ⟨.SCH_UP_GLIM, 19, 0x1000, [(64, 0x80), (8, 0x10)],
      [⟨0, 24, .rws, 16384, 16, 16777215⟩]⟩,
    ⟨.SCH_UP_YLIM, 19, 0x1004, [(64, 0x80), (8, 0x10)],
      [⟨0, 24, .rws, 12288, 0, 16777215⟩]⟩,
    ⟨.SCH_UP_RLIM, 19, 0x1008, [(64, 0x80), (8, 0x10)],
      [⟨0, 24, .rws, 8192, 0, 16777215⟩]⟩,
    ⟨.SCH_UP_PLACE, 19, 0x100c, [(64, 0x80), (8, 0x10)],
      [⟨31, 1, .rws, 1, 0, 1⟩, ⟨0, 4, .rws, 0, 0, 15⟩]⟩,
    ⟨.SCH_UP_PORT, 19, 0x3000, [(64, 0x4)],
      [⟨0, 3, .rw, 7, 0, 7⟩]⟩,
    ⟨.SCH_STD_MAX, 19, 0x80000, [(16384, 0x20)],
      [⟨0, 30, .rws, 1073741823, 0, 1073741823⟩]⟩,
    ⟨.SCH_STD_BURST, 19, 0x80004, [(16384, 0x20)],
      [⟨0, 28, .rws, 4194304, 0, 268435455⟩]⟩,
    ⟨.SCH_STD_WEIGHT, 19, 0x80008, [(16384, 0x20)],
      [⟨0, 8, .rws, 1, 1, 255⟩]⟩,
    ⟨.SCH_STD_BKT, 19, 0x8000c, [(16384, 0x20)],
      [⟨0, 32, .ro, 4194304, 0, 4294967295⟩]⟩,
    ⟨.SCH_STD_NET, 19, 0x80010, [(16384, 0x20)],
      [⟨31, 1, .ro, 0, 0, 1⟩, ⟨30, 1, .ro, 0, 0, 1⟩, ⟨0, 14, .ro, 0, 0, 16383⟩]⟩,
    ⟨.SCH_STD_NEXT_LO, 19, 0x80014, [(16384, 0x20)],
      [⟨0, 32, .ro, 0, 0, 4294967295⟩]⟩,
    ⟨.SCH_STD_NEXT_HI, 19, 0x80018, [(16384, 0x20)],
      [⟨0, 16, .ro, 0, 0, 65535⟩]⟩,
    ⟨.SCH_BGH_MAX, 19, 0x100000, [(65536, 0x20)],
      [⟨0, 30, .rws, 1073741823, 0, 1073741823⟩]⟩,
    ⟨.SCH_BGH_BURST, 19, 0x100004, [(65536, 0x20)],
      [⟨0, 28, .rws, 4194304, 0, 268435455⟩]⟩,
    ⟨.SCH_BGH_ASSURED, 19, 0x100008, [(65536, 0x20)],
      [⟨0, 30, .rws, 0, 0, 1073741823⟩]⟩,
    ⟨.SCH_BGH_WEIGHT, 19, 0x10000c, [(65536, 0x20)],
      [⟨0, 8, .rws, 1, 1, 255⟩]⟩ ]

/-- Registers of block SCH, part 1. -/
def regsOfSch1 : List RegDesc :=
  [ ⟨.SCH_BGH_MAX_BKT, 19, 0x100010, [(65536, 0x20)],
      [⟨0, 32, .ro, 4194304, 0, 4294967295⟩]⟩,
    ⟨.SCH_BGH_ASR_BKT, 19, 0x100014, [(65536, 0x20)],
      [⟨0, 32, .ro, 0, 0, 4294967295⟩]⟩,
    ⟨.SCH_BGH_LAST, 19, 0x100018, [(65536, 0x20)],
      [⟨0, 22, .ro, 0, 0, 4194303⟩]⟩,
    ⟨.SCH_POL_CTRL, 19, 0x300000, [(131072, 0x20)],
      [⟨31, 1, .rws, 0, 0, 1⟩, ⟨28, 2, .rws, 0, 0, 1⟩, ⟨27, 1, .rws, 0, 0, 1⟩, ⟨26, 1, .rws, 0, 0, 1⟩, ⟨25, 1, .rws, 0, 0, 1⟩, ⟨24, 1, .rws, 0, 0, 1⟩, ⟨20, 3, .rws, 0, 0, 7⟩, ⟨16, 3, .rws, 0, 0, 7⟩, ⟨15, 1, .rws, 1, 0, 1⟩]⟩,
    ⟨.SCH_POL_CIR, 19, 0x300004, [(131072, 0x20)],
      [⟨0, 30, .rws, 0, 0, 1073741823⟩]⟩,
    ⟨.SCH_POL_PIR, 19, 0x300008, [(131072, 0x20)],
      [⟨0, 30, .rws, 0, 0, 1073741823⟩]⟩,
    ⟨.SCH_POL_CBS, 19, 0x30000c, [(131072, 0x20)],
      [⟨0, 28, .rws, 0, 0, 268435455⟩]⟩,
    ⟨.SCH_POL_PBS, 19, 0x300010, [(131072, 0x20)],
      [⟨0, 28, .rws, 0, 0, 268435455⟩]⟩,
    ⟨.SCH_POL_TC, 19, 0x300014, [(131072, 0x20)],
      [⟨0, 28, .ro, 0, 0, 268435455⟩]⟩,
    ⟨.SCH_POL_TP, 19, 0x300018, [(131072, 0x20)],
      [⟨0, 28, .ro, 0, 0, 268435455⟩]⟩,
    ⟨.SCH_Q_GLIM, 19, 0x800000, [(524288, 0x10)],
      [⟨0, 24, .rws, 16384, 16, 16777215⟩]⟩,
    ⟨.SCH_Q_YLIM, 19, 0x800004, [(524288, 0x10)],
      [⟨0, 24, .rws, 12288, 0, 16777215⟩]⟩,
    ⟨.SCH_Q_RLIM, 19, 0x800008, [(524288, 0x10)],
      [⟨0, 24, .rws, 8192, 0, 16777215⟩]⟩,
    ⟨.SCH_Q_DEPTH, 19, 0x80000c, [(524288, 0x10)],
      [⟨0, 24, .ro, 0, 0, 16777215⟩]⟩ ]

/-- Registers of block SCH. -/
def regsOfSch : List RegDesc := regsOfSch0 ++ regsOfSch1

/-- Registers of block SLC, part 0. -/
def regsOfSlc0 : List RegDesc :=
  [ ⟨.SLC_PAGE_CTRL, 20, 0x0, [],
      [⟨31, 1, .rws, 0, 0, 1⟩, ⟨0, 1, .ro, 0, 0, 1⟩]⟩,
    ⟨.SLC_PAGE_STAT, 20, 0x4, [],
      [⟨0, 20, .ro, 0, 0, 1048575⟩]⟩,
    ⟨.SLC_CONN_CMD, 20, 0x8, [],
      [⟨31, 1, .wo, 0, 0, 1⟩, ⟨28, 2, .wo, 0, 0, 3⟩, ⟨27, 1, .wo, 0, 0, 1⟩, ⟨16, 11, .wo, 0, 0, 2047⟩, ⟨0, 11, .wo, 0, 0, 2047⟩]⟩,
    ⟨.SLC_DEG_CTRL, 20, 0xc, [],
      [⟨16, 4, .rws, 3, 1, 15⟩, ⟨0, 13, .rws, 80, 1, 8000⟩]⟩,
    ⟨.SLC_DEG_INT, 20, 0x10, [],
      [⟨0, 23, .rws, 8000, 800, 800000⟩]⟩,
    ⟨.SLC_GRV_REGION, 20, 0x100, [(64, 0x4)],
      [⟨0, 14, .rws, 0, 0, 12800⟩]⟩,
    ⟨.SLC_SL_CTRL, 20, 0x10000, [(2048, 0x20)],
      [⟨31, 1, .rws, 0, 0, 1⟩, ⟨30, 1, .rws, 0, 0, 1⟩, ⟨0, 14, .rws, 0, 0, 16383⟩]⟩,
    ⟨.SLC_SL_SLOTS, 20, 0x10004, [(2048, 0x20)],
      [⟨16, 14, .rws, 0, 0, 12799⟩, ⟨0, 14, .rws, 1, 1, 12800⟩]⟩,
    ⟨.SLC_SL_UP, 20, 0x10008, [(2048, 0x20)],
      [⟨16, 16, .rws, 0, 0, 65535⟩, ⟨0, 16, .rws, 5, 5, 49999⟩]⟩,
    ⟨.SLC_SL_FILL, 20, 0x1000c, [(2048, 0x20)],
      [⟨31, 1, .rws, 0, 0, 1⟩, ⟨16, 11, .rws, 0, 0, 2047⟩, ⟨0, 9, .rws, 0, 0, 511⟩]⟩,
    ⟨.SLC_SL_STATUS, 20, 0x10010, [(2048, 0x20)],
      [⟨0, 5, .ro, 0, 0, 31⟩]⟩,
    ⟨.SLC_SL_LEN, 20, 0x10014, [(2048, 0x20)],
      [⟨0, 16, .ro, 0, 0, 65535⟩]⟩,
    ⟨.SLC_PG_CTRL, 20, 0x20000, [(1024, 0x10)],
      [⟨31, 1, .rws, 0, 0, 1⟩, ⟨30, 1, .rws, 1, 0, 1⟩, ⟨16, 11, .rws, 0, 0, 2047⟩, ⟨0, 11, .rws, 0, 0, 2047⟩]⟩,
    ⟨.SLC_PG_WTR, 20, 0x20004, [(1024, 0x10)],
      [⟨0, 23, .rws, 2400000, 8000, 5760000⟩]⟩,
    ⟨.SLC_PG_CMD, 20, 0x20008, [(1024, 0x10)],
      [⟨31, 1, .wo, 0, 0, 1⟩, ⟨0, 3, .wo, 0, 0, 7⟩]⟩,
    ⟨.SLC_PG_STATUS, 20, 0x2000c, [(1024, 0x10)],
      [⟨31, 1, .ro, 0, 0, 1⟩, ⟨24, 4, .ro, 0, 0, 15⟩, ⟨20, 4, .ro, 0, 0, 15⟩]⟩,
    ⟨.SLC_FL_CTRL, 20, 0x30000, [(256, 0x40)],
      [⟨31, 1, .rws, 0, 0, 1⟩, ⟨29, 1, .rws, 0, 0, 1⟩, ⟨16, 11, .rws, 0, 0, 2047⟩, ⟨8, 8, .rws, 0, 0, 255⟩, ⟨0, 6, .rws, 0, 0, 63⟩]⟩,
    ⟨.SLC_FL_DST, 20, 0x30004, [(256, 0x40)],
      [⟨31, 1, .rws, 0, 0, 1⟩, ⟨30, 1, .rws, 0, 0, 1⟩, ⟨16, 11, .rws, 0, 0, 2047⟩, ⟨0, 11, .rws, 0, 0, 2047⟩]⟩,
    ⟨.SLC_FL_PKT, 20, 0x30008, [(256, 0x40)],
      [⟨16, 8, .rws, 0, 0, 255⟩, ⟨8, 4, .rws, 4, 2, 15⟩, ⟨0, 8, .rws, 128, 1, 140⟩]⟩,
    ⟨.SLC_FL_VLAN, 20, 0x3000c, [(256, 0x40)],
      [⟨16, 1, .rws, 0, 0, 1⟩, ⟨0, 16, .rws, 0, 0, 65535⟩]⟩ ]

/-- Registers of block SLC, part 1. -/
def regsOfSlc1 : List RegDesc :=
  [ ⟨.SLC_FL_DMAC_LO, 20, 0x30010, [(256, 0x40)],
      [⟨0, 32, .rws, 0, 0, 4294967295⟩]⟩,
    ⟨.SLC_FL_DMAC_HI, 20, 0x30014, [(256, 0x40)],
      [⟨0, 16, .rws, 0, 0, 65535⟩]⟩,
    ⟨.SLC_FL_SMAC_LO, 20, 0x30018, [(256, 0x40)],
      [⟨0, 32, .rws, 0, 0, 4294967295⟩]⟩,
    ⟨.SLC_FL_SMAC_HI, 20, 0x3001c, [(256, 0x40)],
      [⟨0, 16, .rws, 0, 0, 65535⟩]⟩,
    ⟨.SLC_FL_STATUS, 20, 0x30020, [(256, 0x40)],
      [⟨0, 9, .ro, 0, 0, 511⟩]⟩,
    ⟨.SLC_CONN_PAGE, 20, 0x800000, [(2, 0x800000), (819200, 0x8), (2, 0x4)],
      [⟨0, 32, .ro, 0, 0, 4294967295⟩]⟩ ]

/-- Registers of block SLC. -/
def regsOfSlc : List RegDesc := regsOfSlc0 ++ regsOfSlc1

/-- The registers of region r (R604). -/
def regsOfRegion : Nat → List RegDesc
  | 0 => regsOfTop
  | 1 => regsOfTick
  | 2 => regsOfClk
  | 3 => regsOfInt
  | 4 => regsOfAcc
  | 5 => regsOfCfg
  | 6 => regsOfTime
  | 7 => regsOfKey
  | 8 => regsOfMate
  | 9 => regsOfCnt
  | 10 => regsOfLane
  | 11 => regsOfGrv
  | 12 => regsOfStd
  | 13 => regsOfBgh
  | 14 => regsOfGnt
  | 15 => regsOfPipe
  | 16 => regsOfTbl
  | 17 => regsOfAsc
  | 18 => regsOfBuf
  | 19 => regsOfSch
  | 20 => regsOfSlc
  | _ => []

/-- The region of a register. -/
def Reg.region (r : Reg) : Nat :=
  let i := r.id
  if i < 7 then 0
  else if i < 23 then 1
  else if i < 34 then 2
  else if i < 45 then 3
  else if i < 52 then 4
  else if i < 66 then 5
  else if i < 111 then 6
  else if i < 132 then 7
  else if i < 153 then 8
  else if i < 171 then 9
  else if i < 192 then 10
  else if i < 247 then 11
  else if i < 260 then 12
  else if i < 272 then 13
  else if i < 282 then 14
  else if i < 303 then 15
  else if i < 318 then 16
  else if i < 327 then 17
  else if i < 349 then 18
  else if i < 383 then 19
  else 20

/-- The description of a register. -/
def Reg.desc (r : Reg) : RegDesc :=
  ((regsOfRegion r.region).find? (fun d => d.reg == r)).getD ⟨r, 0, 0, [], []⟩

/-- Base and size of the blocks of R604, as (region, base, size). -/
def blocks : List (Nat × Nat × Nat) :=
  [ (0, 0x0, 0x100000),
    (1, 0x100000, 0x100000),
    (2, 0x200000, 0x100000),
    (3, 0x300000, 0x100000),
    (4, 0x400000, 0x100000),
    (5, 0x500000, 0x100000),
    (6, 0x600000, 0x100000),
    (7, 0x700000, 0x100000),
    (8, 0x800000, 0x100000),
    (9, 0x900000, 0x100000),
    (10, 0xa00000, 0x100000),
    (11, 0x1000000, 0x1000000),
    (12, 0x2000000, 0x400000),
    (13, 0x2400000, 0x400000),
    (14, 0x2800000, 0x800000),
    (15, 0x3000000, 0x1000000),
    (16, 0x4000000, 0x1000000),
    (17, 0x5000000, 0x1000000),
    (18, 0x6000000, 0x1000000),
    (19, 0x7000000, 0x1000000),
    (20, 0x8000000, 0x2000000) ]

/-- A named field: its register, its lowest bit and its width. -/
structure Fld where
  reg   : Reg
  lo    : Nat
  width : Nat
  deriving DecidableEq, Repr

end Sys2Proof.Machine
end

