-- ==== Sys2Proof/Machine/Fields.lean ====
section
/-!
DEFINITION. Names for the fields of the register map, one constant per field: the register, the lowest bit and the width.
-/

namespace Sys2Proof.Machine.Fields

def TOP_ID_part : Fld := ⟨.TOP_ID, 16, 16⟩
def TOP_ID_rev : Fld := ⟨.TOP_ID, 8, 8⟩
def TOP_ID_devnum : Fld := ⟨.TOP_ID, 0, 6⟩
def TOP_MASTER_master : Fld := ⟨.TOP_MASTER, 0, 5⟩
def TOP_SCRATCH_scratch : Fld := ⟨.TOP_SCRATCH, 0, 32⟩
def TOP_LAST_STAT_err_seen : Fld := ⟨.TOP_LAST_STAT, 31, 1⟩
def TOP_LAST_STAT_first_status : Fld := ⟨.TOP_LAST_STAT, 8, 8⟩
def TOP_LAST_STAT_status : Fld := ⟨.TOP_LAST_STAT, 0, 8⟩
def TOP_LAST_ADDR_addr : Fld := ⟨.TOP_LAST_ADDR, 0, 29⟩
def TOP_FIRST_ADDR_addr : Fld := ⟨.TOP_FIRST_ADDR, 0, 29⟩
def TOP_LAST_SFC_sfc : Fld := ⟨.TOP_LAST_SFC, 0, 32⟩
def TICK_CTRL_align_req : Fld := ⟨.TICK_CTRL, 2, 1⟩
def TICK_CTRL_phase_src : Fld := ⟨.TICK_CTRL, 0, 2⟩
def TICK_STATUS_staging_full : Fld := ⟨.TICK_STATUS, 4, 1⟩
def TICK_STATUS_phase_excess : Fld := ⟨.TICK_STATUS, 3, 1⟩
def TICK_STATUS_src_lost : Fld := ⟨.TICK_STATUS, 2, 1⟩
def TICK_STATUS_aligned : Fld := ⟨.TICK_STATUS, 1, 1⟩
def TICK_STATUS_running : Fld := ⟨.TICK_STATUS, 0, 1⟩
def TICK_PHASE_region : Fld := ⟨.TICK_PHASE, 18, 3⟩
def TICK_PHASE_clock : Fld := ⟨.TICK_PHASE, 0, 18⟩
def TICK_TICKIN_OFFSET_tick_in_offset : Fld := ⟨.TICK_TICKIN_OFFSET, 0, 18⟩
def TICK_SFC_LO_sfc_lo : Fld := ⟨.TICK_SFC_LO, 0, 32⟩
def TICK_SFC_HI_sfc_hi : Fld := ⟨.TICK_SFC_HI, 0, 16⟩
def TICK_PHASE_ERR_phase_err : Fld := ⟨.TICK_PHASE_ERR, 0, 32⟩
def TICK_PHASE_LIMIT_phase_limit : Fld := ⟨.TICK_PHASE_LIMIT, 0, 16⟩
def TICK_SFC_CKPT_LO_ckpt_lo : Fld := ⟨.TICK_SFC_CKPT_LO, 0, 32⟩
def TICK_SFC_CKPT_HI_ckpt_hi : Fld := ⟨.TICK_SFC_CKPT_HI, 0, 16⟩
def TICK_STAGE_FILL_high_water : Fld := ⟨.TICK_STAGE_FILL, 16, 13⟩
def TICK_STAGE_FILL_pending : Fld := ⟨.TICK_STAGE_FILL, 0, 13⟩
def TICK_STAGE_CTL_hold : Fld := ⟨.TICK_STAGE_CTL, 0, 1⟩
def TICK_STAGE_STAT_pending : Fld := ⟨.TICK_STAGE_STAT, 16, 1⟩
def TICK_STAGE_STAT_held : Fld := ⟨.TICK_STAGE_STAT, 0, 13⟩
def TICK_STAGE_SFC_LO_commit_lo : Fld := ⟨.TICK_STAGE_SFC_LO, 0, 32⟩
def TICK_STAGE_SFC_HI_commit_hi : Fld := ⟨.TICK_STAGE_SFC_HI, 0, 16⟩
def TICK_LOOP_DELAY_loop_delay : Fld := ⟨.TICK_LOOP_DELAY, 0, 4⟩
def CLK_CORE_SEL_rec_lane : Fld := ⟨.CLK_CORE_SEL, 8, 6⟩
def CLK_CORE_SEL_src : Fld := ⟨.CLK_CORE_SEL, 0, 3⟩
def CLK_UP_SEL_qref : Fld := ⟨.CLK_UP_SEL, 0, 8⟩
def CLK_PLX_SEL_pref : Fld := ⟨.CLK_PLX_SEL, 0, 4⟩
def CLK_READY_TOL_ready_ppm : Fld := ⟨.CLK_READY_TOL, 0, 10⟩
def CLK_STATUS_safe : Fld := ⟨.CLK_STATUS, 31, 1⟩
def CLK_STATUS_stopped_source_escape : Fld := ⟨.CLK_STATUS, 30, 1⟩
def CLK_STATUS_core_locked : Fld := ⟨.CLK_STATUS, 29, 1⟩
def CLK_STATUS_holdover : Fld := ⟨.CLK_STATUS, 28, 1⟩
def CLK_STATUS_lost : Fld := ⟨.CLK_STATUS, 8, 5⟩
def CLK_STATUS_ready : Fld := ⟨.CLK_STATUS, 0, 5⟩
def CLK_CTRL_resume : Fld := ⟨.CLK_CTRL, 31, 1⟩
def CLK_CTRL_restart : Fld := ⟨.CLK_CTRL, 30, 1⟩
def CLK_AON_TRIM_trim_pinned : Fld := ⟨.CLK_AON_TRIM, 31, 1⟩
def CLK_AON_TRIM_trim_src : Fld := ⟨.CLK_AON_TRIM, 24, 1⟩
def CLK_AON_TRIM_trim_max : Fld := ⟨.CLK_AON_TRIM, 16, 8⟩
def CLK_AON_TRIM_trim_min : Fld := ⟨.CLK_AON_TRIM, 8, 8⟩
def CLK_AON_TRIM_code : Fld := ⟨.CLK_AON_TRIM, 0, 8⟩
def CLK_PWR_park_mask : Fld := ⟨.CLK_PWR, 4, 4⟩
def CLK_PWR_req_state : Fld := ⟨.CLK_PWR, 0, 2⟩
def CLK_PWR_STAT_parked : Fld := ⟨.CLK_PWR_STAT, 4, 4⟩
def CLK_PWR_STAT_state : Fld := ⟨.CLK_PWR_STAT, 0, 2⟩
def CLK_STRAP_mate_en : Fld := ⟨.CLK_STRAP, 11, 1⟩
def CLK_STRAP_cfg_src : Fld := ⟨.CLK_STRAP, 9, 2⟩
def CLK_STRAP_xo_wait : Fld := ⟨.CLK_STRAP, 6, 3⟩
def CLK_STRAP_devnum : Fld := ⟨.CLK_STRAP, 0, 6⟩
def CLK_BOOT_boot_cause : Fld := ⟨.CLK_BOOT, 28, 4⟩
def CLK_BOOT_step : Fld := ⟨.CLK_BOOT, 24, 3⟩
def CLK_BOOT_first_frame : Fld := ⟨.CLK_BOOT, 0, 20⟩
def INT_SRC_asserted : Fld := ⟨.INT_SRC, 31, 1⟩
def INT_SRC_pending : Fld := ⟨.INT_SRC, 30, 1⟩
def INT_SRC_in_service : Fld := ⟨.INT_SRC, 29, 1⟩
def INT_SRC_priority : Fld := ⟨.INT_SRC, 24, 3⟩
def INT_SRC_function : Fld := ⟨.INT_SRC, 16, 4⟩
def INT_SRC_vector : Fld := ⟨.INT_SRC, 0, 6⟩
def INT_CLAIM_valid : Fld := ⟨.INT_CLAIM, 31, 1⟩
def INT_CLAIM_priority : Fld := ⟨.INT_CLAIM, 24, 3⟩
def INT_CLAIM_source : Fld := ⟨.INT_CLAIM, 0, 12⟩
def INT_COMPLETE_source : Fld := ⟨.INT_COMPLETE, 0, 12⟩
def INT_VEC_STAT_outstanding : Fld := ⟨.INT_VEC_STAT, 31, 1⟩
def INT_VEC_STAT_in_service : Fld := ⟨.INT_VEC_STAT, 16, 13⟩
def INT_VEC_STAT_pending : Fld := ⟨.INT_VEC_STAT, 0, 13⟩
def INT_GRV_STANDS_stands : Fld := ⟨.INT_GRV_STANDS, 0, 32⟩
def INT_GRV_CAUSE_dup_serial : Fld := ⟨.INT_GRV_CAUSE, 1, 1⟩
def INT_GRV_CAUSE_eqd_range : Fld := ⟨.INT_GRV_CAUSE, 0, 1⟩
def INT_DEV_CAUSE_load_err : Fld := ⟨.INT_DEV_CAUSE, 23, 1⟩
def INT_DEV_CAUSE_dfree : Fld := ⟨.INT_DEV_CAUSE, 20, 3⟩
def INT_DEV_CAUSE_lock_exp : Fld := ⟨.INT_DEV_CAUSE, 16, 4⟩
def INT_DEV_CAUSE_ring_done : Fld := ⟨.INT_DEV_CAUSE, 0, 16⟩
def INT_LINK_CAUSE0_uplink_lo : Fld := ⟨.INT_LINK_CAUSE0, 0, 32⟩
def INT_LINK_CAUSE1_uplink_hi : Fld := ⟨.INT_LINK_CAUSE1, 0, 32⟩
def INT_LINK_CAUSE2_other : Fld := ⟨.INT_LINK_CAUSE2, 0, 4⟩
def INT_SLC_CAUSE_slices : Fld := ⟨.INT_SLC_CAUSE, 0, 32⟩
def ACC_RGN_LO_m0_15 : Fld := ⟨.ACC_RGN_LO, 0, 32⟩
def ACC_RGN_HI_m16_19 : Fld := ⟨.ACC_RGN_HI, 0, 8⟩
def ACC_VF_GROVE_LO_mask_lo : Fld := ⟨.ACC_VF_GROVE_LO, 0, 32⟩
def ACC_VF_GROVE_HI_mask_hi : Fld := ⟨.ACC_VF_GROVE_HI, 0, 32⟩
def ACC_VF_BOUGH_last : Fld := ⟨.ACC_VF_BOUGH, 16, 16⟩
def ACC_VF_BOUGH_first : Fld := ⟨.ACC_VF_BOUGH, 0, 16⟩
def ACC_VF_CTRL_bough_en : Fld := ⟨.ACC_VF_CTRL, 0, 1⟩
def ACC_VIOL_viol : Fld := ⟨.ACC_VIOL, 0, 20⟩
def CFG_STATUS_defaults : Fld := ⟨.CFG_STATUS, 31, 1⟩
def CFG_STATUS_image : Fld := ⟨.CFG_STATUS, 29, 2⟩
def CFG_STATUS_hmac_ok : Fld := ⟨.CFG_STATUS, 28, 1⟩
def CFG_STATUS_load_state : Fld := ⟨.CFG_STATUS, 24, 3⟩
def CFG_A_RESULT_result : Fld := ⟨.CFG_A_RESULT, 0, 4⟩
def CFG_B_RESULT_result : Fld := ⟨.CFG_B_RESULT, 0, 4⟩
def CFG_IMG_BUILD_build : Fld := ⟨.CFG_IMG_BUILD, 0, 32⟩
def CFG_IMG_VER_version : Fld := ⟨.CFG_IMG_VER, 0, 16⟩
def CFG_ERR_COUNT_errors : Fld := ⟨.CFG_ERR_COUNT, 0, 24⟩
def CFG_ERR_ADDR_addr : Fld := ⟨.CFG_ERR_ADDR, 0, 32⟩
def CFG_ERR_STAT_status : Fld := ⟨.CFG_ERR_STAT, 0, 8⟩
def CFG_POLICY_hmac_required : Fld := ⟨.CFG_POLICY, 0, 1⟩
def CFG_FLASH_CMD_go : Fld := ⟨.CFG_FLASH_CMD, 31, 1⟩
def CFG_FLASH_CMD_op : Fld := ⟨.CFG_FLASH_CMD, 28, 2⟩
def CFG_FLASH_CMD_len : Fld := ⟨.CFG_FLASH_CMD, 0, 9⟩
def CFG_FLASH_ADDR_addr : Fld := ⟨.CFG_FLASH_ADDR, 0, 27⟩
def CFG_FLASH_STAT_busy : Fld := ⟨.CFG_FLASH_STAT, 31, 1⟩
def CFG_FLASH_STAT_status : Fld := ⟨.CFG_FLASH_STAT, 0, 8⟩
def CFG_CHECK_go : Fld := ⟨.CFG_CHECK, 31, 1⟩
def CFG_CHECK_busy : Fld := ⟨.CFG_CHECK, 30, 1⟩
def CFG_CHECK_which : Fld := ⟨.CFG_CHECK, 8, 1⟩
def CFG_CHECK_result : Fld := ⟨.CFG_CHECK, 0, 4⟩
def CFG_FLASH_BUF_word : Fld := ⟨.CFG_FLASH_BUF, 0, 32⟩
def TIME_CTRL_slew_max : Fld := ⟨.TIME_CTRL, 8, 8⟩
def TIME_CTRL_revert : Fld := ⟨.TIME_CTRL, 1, 1⟩
def TIME_CTRL_pref : Fld := ⟨.TIME_CTRL, 0, 1⟩
def TIME_STATUS_time_valid : Fld := ⟨.TIME_STATUS, 5, 1⟩
def TIME_STATUS_switched : Fld := ⟨.TIME_STATUS, 4, 1⟩
def TIME_STATUS_lost_b : Fld := ⟨.TIME_STATUS, 3, 1⟩
def TIME_STATUS_lost_a : Fld := ⟨.TIME_STATUS, 2, 1⟩
def TIME_STATUS_holdover : Fld := ⟨.TIME_STATUS, 1, 1⟩
def TIME_STATUS_served : Fld := ⟨.TIME_STATUS, 0, 1⟩
def TIME_SIGMA_LO_sigma_lo : Fld := ⟨.TIME_SIGMA_LO, 0, 32⟩
def TIME_SIGMA_HI_sigma_hi : Fld := ⟨.TIME_SIGMA_HI, 0, 32⟩
def TIME_MARK_CTRL_mark_en : Fld := ⟨.TIME_MARK_CTRL, 31, 1⟩
def TIME_MARK_CTRL_mark_ticks : Fld := ⟨.TIME_MARK_CTRL, 0, 23⟩
def TIME_EDGE_SFC_LO_sfc_lo : Fld := ⟨.TIME_EDGE_SFC_LO, 0, 32⟩
def TIME_EDGE_SFC_HI_sfc_hi : Fld := ⟨.TIME_EDGE_SFC_HI, 0, 16⟩
def TIME_EDGE_SEC_LO_sec_lo : Fld := ⟨.TIME_EDGE_SEC_LO, 0, 32⟩
def TIME_EDGE_SEC_HI_sec_hi : Fld := ⟨.TIME_EDGE_SEC_HI, 0, 32⟩
def TIME_EDGE_NS_ns : Fld := ⟨.TIME_EDGE_NS, 0, 30⟩
def TIME_EDGE_FRAC_frac : Fld := ⟨.TIME_EDGE_FRAC, 0, 16⟩
def TIME_X_SEC_LO_sec_lo : Fld := ⟨.TIME_X_SEC_LO, 0, 32⟩
def TIME_X_SEC_HI_sec_hi : Fld := ⟨.TIME_X_SEC_HI, 0, 32⟩
def TIME_X_NS_ns : Fld := ⟨.TIME_X_NS, 0, 30⟩
def TIME_X_FRAC_frac : Fld := ⟨.TIME_X_FRAC, 0, 16⟩
def TIME_X_SET_SEC_LO_sec_lo : Fld := ⟨.TIME_X_SET_SEC_LO, 0, 32⟩
def TIME_X_SET_SEC_HI_sec_hi : Fld := ⟨.TIME_X_SET_SEC_HI, 0, 32⟩
def TIME_X_SET_NS_ns : Fld := ⟨.TIME_X_SET_NS, 0, 30⟩
def TIME_X_SET_FRAC_frac : Fld := ⟨.TIME_X_SET_FRAC, 0, 16⟩
def TIME_X_CMD_go : Fld := ⟨.TIME_X_CMD, 31, 1⟩
def TIME_X_CMD_op : Fld := ⟨.TIME_X_CMD, 0, 2⟩
def TIME_X_FREQ_freq_adj : Fld := ⟨.TIME_X_FREQ, 0, 32⟩
def TIME_X_ADJ_adj : Fld := ⟨.TIME_X_ADJ, 0, 32⟩
def TIME_X_ADJ_RATE_adj_rate : Fld := ⟨.TIME_X_ADJ_RATE, 0, 24⟩
def TIME_X_ADJ_LEFT_left : Fld := ⟨.TIME_X_ADJ_LEFT, 0, 32⟩
def TIME_X_SYNC_sync_ticks : Fld := ⟨.TIME_X_SYNC, 16, 16⟩
def TIME_X_SYNC_loss_cnt : Fld := ⟨.TIME_X_SYNC, 0, 8⟩
def TIME_X_SRC_src_en : Fld := ⟨.TIME_X_SRC, 31, 1⟩
def TIME_X_SRC_src_port : Fld := ⟨.TIME_X_SRC, 8, 6⟩
def TIME_X_SRC_ptp_dom : Fld := ⟨.TIME_X_SRC, 0, 8⟩
def TIME_LANE_DLY_tx_dly : Fld := ⟨.TIME_LANE_DLY, 16, 16⟩
def TIME_LANE_DLY_rx_dly : Fld := ⟨.TIME_LANE_DLY, 0, 16⟩
def TIME_LANE_CTRL_tc_en : Fld := ⟨.TIME_LANE_CTRL, 1, 1⟩
def TIME_LANE_CTRL_cap_en : Fld := ⟨.TIME_LANE_CTRL, 0, 1⟩
def TIME_GRV_SHARE_ds_share : Fld := ⟨.TIME_GRV_SHARE, 0, 32⟩
def TIME_CAP_STAT_pop : Fld := ⟨.TIME_CAP_STAT, 31, 1⟩
def TIME_CAP_STAT_count : Fld := ⟨.TIME_CAP_STAT, 0, 11⟩
def TIME_CAP0_sec_lo : Fld := ⟨.TIME_CAP0, 0, 32⟩
def TIME_CAP1_sec_hi : Fld := ⟨.TIME_CAP1, 0, 32⟩
def TIME_CAP2_ns : Fld := ⟨.TIME_CAP2, 0, 30⟩
def TIME_CAP3_frac : Fld := ⟨.TIME_CAP3, 16, 16⟩
def TIME_CAP3_port : Fld := ⟨.TIME_CAP3, 8, 6⟩
def TIME_CAP3_egress : Fld := ⟨.TIME_CAP3, 0, 1⟩
def TIME_CAP4_msg_type : Fld := ⟨.TIME_CAP4, 28, 4⟩
def TIME_CAP4_ptp_dom : Fld := ⟨.TIME_CAP4, 16, 8⟩
def TIME_CAP4_seq_id : Fld := ⟨.TIME_CAP4, 0, 16⟩
def TIME_CAP5_src_id : Fld := ⟨.TIME_CAP5, 0, 32⟩
def TIME_TX_CTRL_go : Fld := ⟨.TIME_TX_CTRL, 31, 1⟩
def TIME_TX_CTRL_onestep : Fld := ⟨.TIME_TX_CTRL, 30, 1⟩
def TIME_TX_CTRL_port : Fld := ⟨.TIME_TX_CTRL, 24, 6⟩
def TIME_TX_CTRL_length : Fld := ⟨.TIME_TX_CTRL, 0, 11⟩
def TIME_TX_STAT_busy : Fld := ⟨.TIME_TX_STAT, 0, 1⟩
def TIME_TX_BUF_word : Fld := ⟨.TIME_TX_BUF, 0, 32⟩
def TIME_FL_TX_FRAME_frame : Fld := ⟨.TIME_FL_TX_FRAME, 0, 24⟩
def TIME_FL_TX_SEC_sec : Fld := ⟨.TIME_FL_TX_SEC, 0, 32⟩
def TIME_FL_TX_NS_ns : Fld := ⟨.TIME_FL_TX_NS, 0, 30⟩
def TIME_FL_RX_FRAME_frame : Fld := ⟨.TIME_FL_RX_FRAME, 0, 24⟩
def TIME_FL_RX_SEC_sec : Fld := ⟨.TIME_FL_RX_SEC, 0, 32⟩
def TIME_FL_RX_NS_ns : Fld := ⟨.TIME_FL_RX_NS, 0, 30⟩
def KEY_ID_PUB_id_pub : Fld := ⟨.KEY_ID_PUB, 0, 32⟩
def KEY_CTRL_rng_fail : Fld := ⟨.KEY_CTRL, 31, 1⟩
def KEY_CTRL_auto_rekey : Fld := ⟨.KEY_CTRL, 0, 1⟩
def KEY_REKEY_INT_rekey_int : Fld := ⟨.KEY_REKEY_INT, 0, 32⟩
def KEY_TF_tf_window : Fld := ⟨.KEY_TF, 16, 16⟩
def KEY_TF_tf_limit : Fld := ⟨.KEY_TF, 0, 8⟩
def KEY_TIMERS_retire_ticks : Fld := ⟨.KEY_TIMERS, 16, 16⟩
def KEY_TIMERS_key_ticks : Fld := ⟨.KEY_TIMERS, 4, 8⟩
def KEY_TIMERS_key_tries : Fld := ⟨.KEY_TIMERS, 0, 4⟩
def KEY_QUEUE_pending : Fld := ⟨.KEY_QUEUE, 0, 15⟩
def KEY_CMD_go : Fld := ⟨.KEY_CMD, 31, 1⟩
def KEY_CMD_op : Fld := ⟨.KEY_CMD, 24, 4⟩
def KEY_CMD_arg : Fld := ⟨.KEY_CMD, 0, 16⟩
def KEY_CMD_LEN_aad_len : Fld := ⟨.KEY_CMD_LEN, 16, 13⟩
def KEY_CMD_LEN_len : Fld := ⟨.KEY_CMD_LEN, 0, 13⟩
def KEY_CMD_STAT_busy : Fld := ⟨.KEY_CMD_STAT, 31, 1⟩
def KEY_CMD_STAT_status : Fld := ⟨.KEY_CMD_STAT, 0, 8⟩
def KEY_NONCE_nonce : Fld := ⟨.KEY_NONCE, 0, 32⟩
def KEY_TAG_tag : Fld := ⟨.KEY_TAG, 0, 32⟩
def KEY_PUB_pub : Fld := ⟨.KEY_PUB, 0, 32⟩
def KEY_BLOB_blob : Fld := ⟨.KEY_BLOB, 0, 32⟩
def KEY_BUF_word : Fld := ⟨.KEY_BUF, 0, 32⟩
def KEY_GRP_CTRL_enc : Fld := ⟨.KEY_GRP_CTRL, 31, 1⟩
def KEY_GRP_CTRL_ctr_warn : Fld := ⟨.KEY_GRP_CTRL, 1, 1⟩
def KEY_GRP_CTRL_epoch : Fld := ⟨.KEY_GRP_CTRL, 0, 1⟩
def KEY_STD_STATE_agree : Fld := ⟨.KEY_STD_STATE, 8, 3⟩
def KEY_STD_STATE_stopped_us : Fld := ⟨.KEY_STD_STATE, 5, 1⟩
def KEY_STD_STATE_stopped_ds : Fld := ⟨.KEY_STD_STATE, 4, 1⟩
def KEY_STD_STATE_ctr_warn : Fld := ⟨.KEY_STD_STATE, 3, 1⟩
def KEY_STD_STATE_held : Fld := ⟨.KEY_STD_STATE, 1, 2⟩
def KEY_STD_STATE_epoch : Fld := ⟨.KEY_STD_STATE, 0, 1⟩
def KEY_STD_CTR_DS_LO_ds_lo : Fld := ⟨.KEY_STD_CTR_DS_LO, 0, 32⟩
def KEY_STD_CTR_DS_HI_ds_hi : Fld := ⟨.KEY_STD_CTR_DS_HI, 0, 16⟩
def KEY_STD_CTR_US_LO_us_lo : Fld := ⟨.KEY_STD_CTR_US_LO, 0, 32⟩
def KEY_STD_CTR_US_HI_us_hi : Fld := ⟨.KEY_STD_CTR_US_HI, 0, 16⟩
def KEY_STD_TF_tf_count : Fld := ⟨.KEY_STD_TF, 0, 8⟩
def MATE_CTRL_pair_req : Fld := ⟨.MATE_CTRL, 31, 1⟩
def MATE_CTRL_unpair : Fld := ⟨.MATE_CTRL, 30, 1⟩
def MATE_CTRL_dsd_now : Fld := ⟨.MATE_CTRL, 29, 1⟩
def MATE_CTRL_auto_takeover : Fld := ⟨.MATE_CTRL, 2, 1⟩
def MATE_CTRL_dsd_en : Fld := ⟨.MATE_CTRL, 1, 1⟩
def MATE_STATUS_pair_state : Fld := ⟨.MATE_STATUS, 30, 2⟩
def MATE_STATUS_role : Fld := ⟨.MATE_STATUS, 28, 2⟩
def MATE_STATUS_reference : Fld := ⟨.MATE_STATUS, 8, 1⟩
def MATE_STATUS_sync_done : Fld := ⟨.MATE_STATUS, 7, 1⟩
def MATE_STATUS_dsd_fault : Fld := ⟨.MATE_STATUS, 6, 1⟩
def MATE_STATUS_mate_lost : Fld := ⟨.MATE_STATUS, 5, 1⟩
def MATE_STATUS_split_alarm : Fld := ⟨.MATE_STATUS, 4, 1⟩
def MATE_STATUS_path_alarm : Fld := ⟨.MATE_STATUS, 3, 1⟩
def MATE_STATUS_plaxon_silent : Fld := ⟨.MATE_STATUS, 2, 1⟩
def MATE_STATUS_pin_silent : Fld := ⟨.MATE_STATUS, 1, 1⟩
def MATE_STATUS_fibre_master : Fld := ⟨.MATE_STATUS, 0, 1⟩
def MATE_GRV_EN_LO_groves_lo : Fld := ⟨.MATE_GRV_EN_LO, 0, 32⟩
def MATE_GRV_EN_HI_groves_hi : Fld := ⟨.MATE_GRV_EN_HI, 0, 32⟩
def MATE_DSD_TIME_dsd_sec : Fld := ⟨.MATE_DSD_TIME, 0, 17⟩
def MATE_DSD_INT_dsd_hours : Fld := ⟨.MATE_DSD_INT, 0, 8⟩
def MATE_REVERT_rev_pct : Fld := ⟨.MATE_REVERT, 0, 7⟩
def MATE_HOLD_us_hold_mib : Fld := ⟨.MATE_HOLD, 0, 6⟩
def MATE_TKO_WIN_tko_win : Fld := ⟨.MATE_TKO_WIN, 0, 9⟩
def MATE_OFS_MAX_ofs_max : Fld := ⟨.MATE_OFS_MAX, 0, 22⟩
def MATE_LAST_SFC_LO_sfc_lo : Fld := ⟨.MATE_LAST_SFC_LO, 0, 32⟩
def MATE_LAST_SFC_HI_sfc_hi : Fld := ⟨.MATE_LAST_SFC_HI, 0, 16⟩
def MATE_LAST_CAUSE_cause : Fld := ⟨.MATE_LAST_CAUSE, 0, 3⟩
def MATE_PAIR_STAT_pair_status : Fld := ⟨.MATE_PAIR_STAT, 0, 8⟩
def MATE_DIG_STAT_mismatched : Fld := ⟨.MATE_DIG_STAT, 0, 17⟩
def MATE_DIG_FIRST_bough : Fld := ⟨.MATE_DIG_FIRST, 0, 16⟩
def MATE_PEER_ID_peer_id : Fld := ⟨.MATE_PEER_ID, 0, 32⟩
def MATE_OFS_DS_learned : Fld := ⟨.MATE_OFS_DS, 31, 1⟩
def MATE_OFS_DS_pinned : Fld := ⟨.MATE_OFS_DS, 30, 1⟩
def MATE_OFS_DS_w : Fld := ⟨.MATE_OFS_DS, 0, 23⟩
def MATE_OFS_US_u : Fld := ⟨.MATE_OFS_US, 0, 23⟩
def MATE_DLV_LO_dlv_lo : Fld := ⟨.MATE_DLV_LO, 0, 32⟩
def MATE_DLV_HI_dlv_hi : Fld := ⟨.MATE_DLV_HI, 0, 16⟩
def CNT_DEV_LO_lo : Fld := ⟨.CNT_DEV_LO, 0, 32⟩
def CNT_DEV_HI_hi : Fld := ⟨.CNT_DEV_HI, 0, 32⟩
def CNT_DIR_DEV_entry : Fld := ⟨.CNT_DIR_DEV, 0, 32⟩
def CNT_DIR_SET_entry : Fld := ⟨.CNT_DIR_SET, 0, 32⟩
def CNT_WIN_SEL_family : Fld := ⟨.CNT_WIN_SEL, 24, 4⟩
def CNT_WIN_SEL_instance : Fld := ⟨.CNT_WIN_SEL, 0, 17⟩
def CNT_WIN_LO_lo : Fld := ⟨.CNT_WIN_LO, 0, 32⟩
def CNT_WIN_HI_hi : Fld := ⟨.CNT_WIN_HI, 0, 32⟩
def CNT_SNAP_CTRL_snap_int : Fld := ⟨.CNT_SNAP_CTRL, 16, 16⟩
def CNT_SNAP_CTRL_count : Fld := ⟨.CNT_SNAP_CTRL, 0, 11⟩
def CNT_SNAP_SFC_LO_sfc_lo : Fld := ⟨.CNT_SNAP_SFC_LO, 0, 32⟩
def CNT_SNAP_SFC_HI_sfc_hi : Fld := ⟨.CNT_SNAP_SFC_HI, 0, 16⟩
def CNT_SNAP_LIST0_family : Fld := ⟨.CNT_SNAP_LIST0, 24, 4⟩
def CNT_SNAP_LIST0_item : Fld := ⟨.CNT_SNAP_LIST0, 0, 12⟩
def CNT_SNAP_LIST1_instance : Fld := ⟨.CNT_SNAP_LIST1, 0, 17⟩
def CNT_SNAP_BUF_LO_lo : Fld := ⟨.CNT_SNAP_BUF_LO, 0, 32⟩
def CNT_SNAP_BUF_HI_hi : Fld := ⟨.CNT_SNAP_BUF_HI, 0, 32⟩
def CNT_SMP_CTRL_smp_event : Fld := ⟨.CNT_SMP_CTRL, 24, 4⟩
def CNT_SMP_CTRL_period : Fld := ⟨.CNT_SMP_CTRL, 0, 24⟩
def CNT_SMP_STAT_count : Fld := ⟨.CNT_SMP_STAT, 0, 5⟩
def CNT_SMP_POP_pop : Fld := ⟨.CNT_SMP_POP, 31, 1⟩
def CNT_SMP_REC_word : Fld := ⟨.CNT_SMP_REC, 0, 32⟩
def LANE_UP_CFG_en : Fld := ⟨.LANE_UP_CFG, 31, 1⟩
def LANE_UP_CFG_an_en : Fld := ⟨.LANE_UP_CFG, 30, 1⟩
def LANE_UP_CFG_mode : Fld := ⟨.LANE_UP_CFG, 28, 2⟩
def LANE_UP_CFG_width : Fld := ⟨.LANE_UP_CFG, 0, 2⟩
def LANE_UP_STATUS_link_up : Fld := ⟨.LANE_UP_STATUS, 31, 1⟩
def LANE_UP_STATUS_an_done : Fld := ⟨.LANE_UP_STATUS, 30, 1⟩
def LANE_UP_STATUS_fec_lock : Fld := ⟨.LANE_UP_STATUS, 29, 1⟩
def LANE_UP_STATUS_rx_pinned : Fld := ⟨.LANE_UP_STATUS, 28, 1⟩
def LANE_UP_STATUS_member : Fld := ⟨.LANE_UP_STATUS, 27, 1⟩
def LANE_TX_EQ_taps : Fld := ⟨.LANE_TX_EQ, 0, 30⟩
def LANE_TX_BOUND_pre_max : Fld := ⟨.LANE_TX_BOUND, 8, 8⟩
def LANE_TX_BOUND_post_max : Fld := ⟨.LANE_TX_BOUND, 0, 8⟩
def LANE_RX_BOUND_ctle_max : Fld := ⟨.LANE_RX_BOUND, 28, 4⟩
def LANE_RX_BOUND_ctle_min : Fld := ⟨.LANE_RX_BOUND, 24, 4⟩
def LANE_RX_BOUND_dfe_max : Fld := ⟨.LANE_RX_BOUND, 8, 8⟩
def LANE_RX_BOUND_ffe_max : Fld := ⟨.LANE_RX_BOUND, 0, 8⟩
def LANE_RX_EQ_ctle : Fld := ⟨.LANE_RX_EQ, 24, 4⟩
def LANE_RX_EQ_dfe1 : Fld := ⟨.LANE_RX_EQ, 8, 8⟩
def LANE_TEST_chk_en : Fld := ⟨.LANE_TEST, 31, 1⟩
def LANE_TEST_gen_en : Fld := ⟨.LANE_TEST, 30, 1⟩
def LANE_TEST_pattern : Fld := ⟨.LANE_TEST, 28, 2⟩
def LANE_TEST_loop : Fld := ⟨.LANE_TEST, 0, 2⟩
def LANE_PRBS_ERR_errors : Fld := ⟨.LANE_PRBS_ERR, 0, 32⟩
def LANE_PON_CTRL_tx_en : Fld := ⟨.LANE_PON_CTRL, 31, 1⟩
def LANE_PON_CTRL_pattern : Fld := ⟨.LANE_PON_CTRL, 28, 2⟩
def LANE_PON_CTRL_gen_en : Fld := ⟨.LANE_PON_CTRL, 27, 1⟩
def LANE_PON_CTRL_chk_en : Fld := ⟨.LANE_PON_CTRL, 26, 1⟩
def LANE_PON_CTRL_loop : Fld := ⟨.LANE_PON_CTRL, 0, 1⟩
def LANE_PON_STATUS_in_service : Fld := ⟨.LANE_PON_STATUS, 2, 1⟩
def LANE_PON_STATUS_tx_ready : Fld := ⟨.LANE_PON_STATUS, 1, 1⟩
def LANE_PON_STATUS_rx_ready : Fld := ⟨.LANE_PON_STATUS, 0, 1⟩
def LANE_PON_TX_EQ_taps : Fld := ⟨.LANE_PON_TX_EQ, 0, 18⟩
def LANE_PON_PRBS_ERR_errors : Fld := ⟨.LANE_PON_PRBS_ERR, 0, 32⟩
def LANE_PLX_CTRL_en : Fld := ⟨.LANE_PLX_CTRL, 31, 1⟩
def LANE_PLX_CTRL_mode : Fld := ⟨.LANE_PLX_CTRL, 30, 1⟩
def LANE_PLX_CTRL_pol_inv : Fld := ⟨.LANE_PLX_CTRL, 8, 8⟩
def LANE_PLX_CTRL_rev : Fld := ⟨.LANE_PLX_CTRL, 0, 1⟩
def LANE_PLX_STATUS_up : Fld := ⟨.LANE_PLX_STATUS, 31, 1⟩
def LANE_PLX_STATUS_rx_pinned : Fld := ⟨.LANE_PLX_STATUS, 30, 1⟩
def LANE_PLX_STATUS_state : Fld := ⟨.LANE_PLX_STATUS, 24, 3⟩
def LANE_PLX_STATUS_pol_found : Fld := ⟨.LANE_PLX_STATUS, 8, 8⟩
def LANE_PLX_STATUS_reversed : Fld := ⟨.LANE_PLX_STATUS, 0, 1⟩
def LANE_PLX_RX_BOUND_bound : Fld := ⟨.LANE_PLX_RX_BOUND, 0, 32⟩
def LANE_PLX_TEST_test : Fld := ⟨.LANE_PLX_TEST, 0, 32⟩
def LANE_GRP_LO_members_lo : Fld := ⟨.LANE_GRP_LO, 0, 32⟩
def LANE_GRP_HI_members_hi : Fld := ⟨.LANE_GRP_HI, 0, 32⟩
def LANE_GRP_STAT_active : Fld := ⟨.LANE_GRP_STAT, 0, 7⟩
def LANE_PCIE_STATUS_width : Fld := ⟨.LANE_PCIE_STATUS, 4, 4⟩
def LANE_PCIE_STATUS_speed : Fld := ⟨.LANE_PCIE_STATUS, 0, 3⟩
def LANE_CXL_STATUS_up : Fld := ⟨.LANE_CXL_STATUS, 31, 1⟩
def LANE_CXL_STATUS_used : Fld := ⟨.LANE_CXL_STATUS, 30, 1⟩
def LANE_CXL_STATUS_width : Fld := ⟨.LANE_CXL_STATUS, 24, 5⟩
def LANE_CXL_STATUS_speed : Fld := ⟨.LANE_CXL_STATUS, 20, 3⟩
def LANE_CXL_STATUS_cap_gib : Fld := ⟨.LANE_CXL_STATUS, 0, 12⟩
def GRV_DS_CTRL_msg_max : Fld := ⟨.GRV_DS_CTRL, 8, 8⟩
def GRV_DS_CTRL_precoder_en : Fld := ⟨.GRV_DS_CTRL, 0, 1⟩
def GRV_DS_STATUS_precoder_on : Fld := ⟨.GRV_DS_STATUS, 16, 1⟩
def GRV_DS_STATUS_msg_queued : Fld := ⟨.GRV_DS_STATUS, 0, 10⟩
def GRV_DS_HDR_CAP0_msg_count : Fld := ⟨.GRV_DS_HDR_CAP0, 16, 8⟩
def GRV_DS_HDR_CAP0_map_words : Fld := ⟨.GRV_DS_HDR_CAP0, 0, 16⟩
def GRV_DS_HDR_CAP1_slice_slots : Fld := ⟨.GRV_DS_HDR_CAP1, 0, 14⟩
def GRV_DS_PAYLOAD_START_payload_start : Fld := ⟨.GRV_DS_PAYLOAD_START, 0, 22⟩
def GRV_DS_SFC_LO_sfc_lo : Fld := ⟨.GRV_DS_SFC_LO, 0, 32⟩
def GRV_DS_SFC_HI_sfc_hi : Fld := ⟨.GRV_DS_SFC_HI, 0, 16⟩
def GRV_US_CTRL_reasm_ticks : Fld := ⟨.GRV_US_CTRL, 24, 8⟩
def GRV_US_CTRL_burst_en_adv : Fld := ⟨.GRV_US_CTRL, 0, 11⟩
def GRV_US_STATUS_sig_detect : Fld := ⟨.GRV_US_STATUS, 1, 1⟩
def GRV_US_STATUS_rogue : Fld := ⟨.GRV_US_STATUS, 0, 1⟩
def GRV_US_RSSI_CTRL_arm : Fld := ⟨.GRV_US_RSSI_CTRL, 31, 1⟩
def GRV_US_RSSI_CTRL_rssi_done : Fld := ⟨.GRV_US_RSSI_CTRL, 16, 1⟩
def GRV_US_RSSI_CTRL_stand : Fld := ⟨.GRV_US_RSSI_CTRL, 0, 9⟩
def GRV_US_CAP_CTRL_arm : Fld := ⟨.GRV_US_CAP_CTRL, 31, 1⟩
def GRV_US_CAP_CTRL_cap_done : Fld := ⟨.GRV_US_CAP_CTRL, 30, 1⟩
def GRV_US_CAP_SFC_LO_sfc_lo : Fld := ⟨.GRV_US_CAP_SFC_LO, 0, 32⟩
def GRV_US_CAP_SFC_HI_sfc_hi : Fld := ⟨.GRV_US_CAP_SFC_HI, 0, 16⟩
def GRV_US_CAP_WORDS_map_words : Fld := ⟨.GRV_US_CAP_WORDS, 0, 15⟩
def GRV_CLEARING_CTRL_clr_len : Fld := ⟨.GRV_CLEARING_CTRL, 24, 3⟩
def GRV_CLEARING_CTRL_diff_km : Fld := ⟨.GRV_CLEARING_CTRL, 18, 6⟩
def GRV_CLEARING_CTRL_reach_min_km : Fld := ⟨.GRV_CLEARING_CTRL, 11, 7⟩
def GRV_CLEARING_CTRL_clear_now : Fld := ⟨.GRV_CLEARING_CTRL, 1, 1⟩
def GRV_CLEARING_CTRL_clr_en : Fld := ⟨.GRV_CLEARING_CTRL, 0, 1⟩
def GRV_CLR_FAST_fast_ticks : Fld := ⟨.GRV_CLR_FAST, 0, 20⟩
def GRV_CLR_SLOW_slow_ticks : Fld := ⟨.GRV_CLR_SLOW, 0, 20⟩
def GRV_CLR_HOLD_fast_hold : Fld := ⟨.GRV_CLR_HOLD, 0, 23⟩
def GRV_RNG_CTRL_rng_attempts : Fld := ⟨.GRV_RNG_CTRL, 28, 4⟩
def GRV_RNG_CTRL_drift_confirm : Fld := ⟨.GRV_RNG_CTRL, 24, 4⟩
def GRV_RNG_CTRL_drift_thr : Fld := ⟨.GRV_RNG_CTRL, 20, 4⟩
def GRV_RNG_CTRL_relearn_misses : Fld := ⟨.GRV_RNG_CTRL, 16, 4⟩
def GRV_RNG_CTRL_learn_bursts : Fld := ⟨.GRV_RNG_CTRL, 11, 5⟩
def GRV_RNG_DISC_T_disc_ticks : Fld := ⟨.GRV_RNG_DISC_T, 0, 23⟩
def GRV_RNG_RNG_T_rng_ticks : Fld := ⟨.GRV_RNG_RNG_T, 0, 23⟩
def GRV_RNG_REACQ_T_reacq_ticks : Fld := ⟨.GRV_RNG_REACQ_T, 0, 23⟩
def GRV_CLR_STATUS_in_clearing : Fld := ⟨.GRV_CLR_STATUS, 17, 1⟩
def GRV_CLR_STATUS_fast : Fld := ⟨.GRV_CLR_STATUS, 16, 1⟩
def GRV_CLR_STATUS_answers_last : Fld := ⟨.GRV_CLR_STATUS, 0, 16⟩
def GRV_CLR_NEXT_LO_next_lo : Fld := ⟨.GRV_CLR_NEXT_LO, 0, 32⟩
def GRV_CLR_NEXT_HI_next_hi : Fld := ⟨.GRV_CLR_NEXT_HI, 0, 16⟩
def GRV_RNG_CMD_go : Fld := ⟨.GRV_RNG_CMD, 31, 1⟩
def GRV_RNG_CMD_op : Fld := ⟨.GRV_RNG_CMD, 16, 2⟩
def GRV_RNG_CMD_stand : Fld := ⟨.GRV_RNG_CMD, 0, 9⟩
def GRV_PRESET_BOUND_phase_span : Fld := ⟨.GRV_PRESET_BOUND, 24, 6⟩
def GRV_PRESET_BOUND_dfe_max : Fld := ⟨.GRV_PRESET_BOUND, 16, 8⟩
def GRV_PRESET_BOUND_ffe_max : Fld := ⟨.GRV_PRESET_BOUND, 8, 8⟩
def GRV_PRESET_BOUND_step : Fld := ⟨.GRV_PRESET_BOUND, 0, 8⟩
def GRV_PRESET_MSE_mse_thr : Fld := ⟨.GRV_PRESET_MSE, 0, 8⟩
def GRV_PRESET_DEF_word : Fld := ⟨.GRV_PRESET_DEF, 0, 32⟩
def GRV_STD_CTRL_lost_ticks : Fld := ⟨.GRV_STD_CTRL, 16, 16⟩
def GRV_STD_CTRL_poll_ticks : Fld := ⟨.GRV_STD_CTRL, 8, 6⟩
def GRV_STD_CTRL_adm_policy : Fld := ⟨.GRV_STD_CTRL, 0, 2⟩
def GRV_STD_SILENCE_T_silence_ticks : Fld := ⟨.GRV_STD_SILENCE_T, 0, 23⟩
def GRV_MSG_TX_BODY_body : Fld := ⟨.GRV_MSG_TX_BODY, 0, 32⟩
def GRV_MSG_TX_CMD_go : Fld := ⟨.GRV_MSG_TX_CMD, 31, 1⟩
def GRV_MSG_TX_CMD_stand : Fld := ⟨.GRV_MSG_TX_CMD, 0, 9⟩
def GRV_MSG_TX_DONE0_nonce_lo : Fld := ⟨.GRV_MSG_TX_DONE0, 0, 32⟩
def GRV_MSG_TX_DONE1_valid : Fld := ⟨.GRV_MSG_TX_DONE1, 31, 1⟩
def GRV_MSG_TX_DONE1_nonce_hi : Fld := ⟨.GRV_MSG_TX_DONE1, 0, 24⟩
def GRV_MSG_TX_DONE2_ticket : Fld := ⟨.GRV_MSG_TX_DONE2, 0, 16⟩
def GRV_MSG_RX_word : Fld := ⟨.GRV_MSG_RX, 0, 32⟩
def GRV_MSG_RX_STAT_pop : Fld := ⟨.GRV_MSG_RX_STAT, 31, 1⟩
def GRV_MSG_RX_STAT_count : Fld := ⟨.GRV_MSG_RX_STAT, 0, 7⟩
def GRV_MODE_us_rate : Fld := ⟨.GRV_MODE, 1, 1⟩
def GRV_MODE_compat : Fld := ⟨.GRV_MODE, 0, 1⟩
def GRV_CPT_CTRL_clear_ok : Fld := ⟨.GRV_CPT_CTRL, 0, 1⟩
def GRV_CPT_QUIET_quiet_len : Fld := ⟨.GRV_CPT_QUIET, 24, 3⟩
def GRV_CPT_QUIET_diff_km : Fld := ⟨.GRV_CPT_QUIET, 18, 6⟩
def GRV_CPT_QUIET_reach_min_km : Fld := ⟨.GRV_CPT_QUIET, 11, 7⟩
def GRV_CPT_QUIET_sn_en : Fld := ⟨.GRV_CPT_QUIET, 0, 1⟩
def GRV_CPT_PROFILE_profile : Fld := ⟨.GRV_CPT_PROFILE, 0, 16⟩
def GRV_CPT_OMCI_TXCTL_go : Fld := ⟨.GRV_CPT_OMCI_TXCTL, 31, 1⟩
def GRV_CPT_OMCI_TXCTL_length : Fld := ⟨.GRV_CPT_OMCI_TXCTL, 16, 11⟩
def GRV_CPT_OMCI_TXCTL_stand : Fld := ⟨.GRV_CPT_OMCI_TXCTL, 0, 9⟩
def GRV_CPT_OMCI_RXSTAT_pop : Fld := ⟨.GRV_CPT_OMCI_RXSTAT, 31, 1⟩
def GRV_CPT_OMCI_RXSTAT_length : Fld := ⟨.GRV_CPT_OMCI_RXSTAT, 16, 12⟩
def GRV_CPT_OMCI_RXSTAT_stand : Fld := ⟨.GRV_CPT_OMCI_RXSTAT, 4, 9⟩
def GRV_CPT_OMCI_RXSTAT_count : Fld := ⟨.GRV_CPT_OMCI_RXSTAT, 0, 4⟩
def GRV_CPT_OMCI_TXBUF_word : Fld := ⟨.GRV_CPT_OMCI_TXBUF, 0, 32⟩
def GRV_CPT_OMCI_RXBUF_word : Fld := ⟨.GRV_CPT_OMCI_RXBUF, 0, 32⟩
def GRV_RNG_EQD_eqd : Fld := ⟨.GRV_RNG_EQD, 0, 27⟩
def GRV_RNG_LOOP_loop : Fld := ⟨.GRV_RNG_LOOP, 0, 27⟩
def GRV_RNG_PHASE_last_corr : Fld := ⟨.GRV_RNG_PHASE, 16, 13⟩
def GRV_RNG_PHASE_last_phase : Fld := ⟨.GRV_RNG_PHASE, 0, 13⟩
def GRV_RNG_FLAGS_learn_count : Fld := ⟨.GRV_RNG_FLAGS, 8, 5⟩
def GRV_RNG_FLAGS_attempts : Fld := ⟨.GRV_RNG_FLAGS, 4, 4⟩
def GRV_RNG_FLAGS_precoder_cap : Fld := ⟨.GRV_RNG_FLAGS, 3, 1⟩
def GRV_RNG_FLAGS_keep_valid : Fld := ⟨.GRV_RNG_FLAGS, 2, 1⟩
def GRV_RNG_FLAGS_pinned : Fld := ⟨.GRV_RNG_FLAGS, 1, 1⟩
def GRV_RNG_FLAGS_preset_learned : Fld := ⟨.GRV_RNG_FLAGS, 0, 1⟩
def GRV_RNG_DRIFT_drift : Fld := ⟨.GRV_RNG_DRIFT, 0, 24⟩
def GRV_RNG_PRESET0_ffe0_3 : Fld := ⟨.GRV_RNG_PRESET0, 0, 32⟩
def GRV_RNG_PRESET1_ffe4_7 : Fld := ⟨.GRV_RNG_PRESET1, 0, 32⟩
def GRV_RNG_PRESET2_dfe1 : Fld := ⟨.GRV_RNG_PRESET2, 24, 8⟩
def GRV_RNG_PRESET2_ctle : Fld := ⟨.GRV_RNG_PRESET2, 16, 4⟩
def GRV_RNG_PRESET2_samp_phase : Fld := ⟨.GRV_RNG_PRESET2, 8, 6⟩
def GRV_RNG_PRESET2_vga : Fld := ⟨.GRV_RNG_PRESET2, 0, 6⟩
def GRV_US_CAP_BUF_word : Fld := ⟨.GRV_US_CAP_BUF, 0, 32⟩
def STD_STATE_tag_silenced : Fld := ⟨.STD_STATE, 6, 1⟩
def STD_STATE_dying_gasp : Fld := ⟨.STD_STATE, 5, 1⟩
def STD_STATE_lost : Fld := ⟨.STD_STATE, 4, 1⟩
def STD_STATE_keys_ready : Fld := ⟨.STD_STATE, 3, 1⟩
def STD_STATE_state : Fld := ⟨.STD_STATE, 0, 3⟩
def STD_CTRL_lsg : Fld := ⟨.STD_CTRL, 16, 12⟩
def STD_CTRL_rest_en : Fld := ⟨.STD_CTRL, 0, 1⟩
def STD_SERIAL_LO_serial_lo : Fld := ⟨.STD_SERIAL_LO, 0, 32⟩
def STD_SERIAL_HI_serial_hi : Fld := ⟨.STD_SERIAL_HI, 0, 32⟩
def STD_ADMIT_SERIAL_LO_adm_lo : Fld := ⟨.STD_ADMIT_SERIAL_LO, 0, 32⟩
def STD_ADMIT_SERIAL_HI_adm_hi : Fld := ⟨.STD_ADMIT_SERIAL_HI, 0, 32⟩
def STD_ADMIT_admit_valid : Fld := ⟨.STD_ADMIT, 0, 1⟩
def STD_REST_RATE_rest_rate : Fld := ⟨.STD_REST_RATE, 0, 30⟩
def STD_REST_MAX_rest_max : Fld := ⟨.STD_REST_MAX, 0, 23⟩
def STD_CMD_go : Fld := ⟨.STD_CMD, 31, 1⟩
def STD_CMD_op : Fld := ⟨.STD_CMD, 0, 4⟩
def STD_WAKE_LO_wake_lo : Fld := ⟨.STD_WAKE_LO, 0, 32⟩
def STD_WAKE_HI_wake_hi : Fld := ⟨.STD_WAKE_HI, 0, 16⟩
def STD_MCAST_member : Fld := ⟨.STD_MCAST, 0, 32⟩
def BGH_BIND_bound : Fld := ⟨.BGH_BIND, 31, 1⟩
def BGH_BIND_bough_idx : Fld := ⟨.BGH_BIND, 16, 4⟩
def BGH_BIND_stand : Fld := ⟨.BGH_BIND, 0, 14⟩
def BGH_CTRL_fixed_pos : Fld := ⟨.BGH_CTRL, 31, 1⟩
def BGH_CTRL_spread : Fld := ⟨.BGH_CTRL, 20, 2⟩
def BGH_CTRL_class : Fld := ⟨.BGH_CTRL, 16, 2⟩
def BGH_CTRL_weight : Fld := ⟨.BGH_CTRL, 8, 8⟩
def BGH_CTRL_type : Fld := ⟨.BGH_CTRL, 0, 2⟩
def BGH_FIXED_fixed : Fld := ⟨.BGH_FIXED, 0, 24⟩
def BGH_ASSURED_assured : Fld := ⟨.BGH_ASSURED, 0, 24⟩
def BGH_MAX_max : Fld := ⟨.BGH_MAX, 0, 24⟩
def BGH_POLL_poll_leaves : Fld := ⟨.BGH_POLL, 16, 8⟩
def BGH_POLL_poll_int : Fld := ⟨.BGH_POLL, 0, 8⟩
def BGH_PRED_pred_en : Fld := ⟨.BGH_PRED, 31, 1⟩
def BGH_PRED_pred_shift : Fld := ⟨.BGH_PRED, 24, 3⟩
def BGH_PRED_pred_ceiling : Fld := ⟨.BGH_PRED, 0, 16⟩
def BGH_STATUS_pinned : Fld := ⟨.BGH_STATUS, 31, 1⟩
def BGH_STATUS_poll_due : Fld := ⟨.BGH_STATUS, 30, 1⟩
def BGH_STATUS_last_report : Fld := ⟨.BGH_STATUS, 0, 24⟩
def BGH_REQUEST_request : Fld := ⟨.BGH_REQUEST, 0, 24⟩
def BGH_GRANT_pred_leaves : Fld := ⟨.BGH_GRANT, 16, 16⟩
def BGH_GRANT_leaves : Fld := ⟨.BGH_GRANT, 0, 16⟩
def BGH_RATE_rate_est : Fld := ⟨.BGH_RATE, 0, 24⟩
def BGH_DIGEST_digest : Fld := ⟨.BGH_DIGEST, 0, 32⟩
def GNT_LANE_BOUGHS_bound : Fld := ⟨.GNT_LANE_BOUGHS, 0, 13⟩
def GNT_LANE_FINISH_last : Fld := ⟨.GNT_LANE_FINISH, 0, 18⟩
def GNT_LANE_WORST_worst : Fld := ⟨.GNT_LANE_WORST, 0, 18⟩
def GNT_LANE_ECC_ecc_fatal : Fld := ⟨.GNT_LANE_ECC, 1, 1⟩
def GNT_LANE_ECC_ecc_corr : Fld := ⟨.GNT_LANE_ECC, 0, 1⟩
def GNT_GRV_CTRL_force_ovr : Fld := ⟨.GNT_GRV_CTRL, 31, 1⟩
def GNT_GRV_CTRL_twig_max : Fld := ⟨.GNT_GRV_CTRL, 16, 11⟩
def GNT_GRV_ASSURE_assure_used : Fld := ⟨.GNT_GRV_ASSURE, 0, 24⟩
def GNT_GRV_CAP_assure_cap : Fld := ⟨.GNT_GRV_CAP, 0, 24⟩
def GNT_GRV_PTR_fair_ptr : Fld := ⟨.GNT_GRV_PTR, 16, 8⟩
def GNT_GRV_PTR_rot_ptr : Fld := ⟨.GNT_GRV_PTR, 0, 8⟩
def GNT_GRV_LAST_twigs : Fld := ⟨.GNT_GRV_LAST, 16, 11⟩
def GNT_GRV_LAST_unused : Fld := ⟨.GNT_GRV_LAST, 0, 16⟩
def GNT_GRV_STATUS_fallback : Fld := ⟨.GNT_GRV_STATUS, 1, 1⟩
def GNT_GRV_STATUS_overrun : Fld := ⟨.GNT_GRV_STATUS, 0, 1⟩
def PIPE_RS_CTRL_copy : Fld := ⟨.PIPE_RS_CTRL, 31, 1⟩
def PIPE_RS_CTRL_active : Fld := ⟨.PIPE_RS_CTRL, 0, 1⟩
def PIPE_RS_STATUS_copy_busy : Fld := ⟨.PIPE_RS_STATUS, 8, 1⟩
def PIPE_RS_STATUS_b_locked : Fld := ⟨.PIPE_RS_STATUS, 5, 1⟩
def PIPE_RS_STATUS_a_locked : Fld := ⟨.PIPE_RS_STATUS, 4, 1⟩
def PIPE_RS_STATUS_draining : Fld := ⟨.PIPE_RS_STATUS, 1, 1⟩
def PIPE_RS_STATUS_active_now : Fld := ⟨.PIPE_RS_STATUS, 0, 1⟩
def PIPE_TPID_tpid : Fld := ⟨.PIPE_TPID, 0, 16⟩
def PIPE_HASH_SEED_hash_seed : Fld := ⟨.PIPE_HASH_SEED, 0, 32⟩
def PIPE_FRAG_CTRL_age_ticks : Fld := ⟨.PIPE_FRAG_CTRL, 16, 13⟩
def PIPE_FRAG_CTRL_miss_drop : Fld := ⟨.PIPE_FRAG_CTRL, 0, 1⟩
def PIPE_FRAG_STATUS_used : Fld := ⟨.PIPE_FRAG_STATUS, 0, 14⟩
def PIPE_SVID_BASE_svid_base : Fld := ⟨.PIPE_SVID_BASE, 0, 12⟩
def PIPE_P_FILL_recirc : Fld := ⟨.PIPE_P_FILL, 16, 14⟩
def PIPE_P_FILL_ingress : Fld := ⟨.PIPE_P_FILL, 0, 12⟩
def PIPE_SEL_W0_valid : Fld := ⟨.PIPE_SEL_W0, 31, 1⟩
def PIPE_SEL_W0_kind : Fld := ⟨.PIPE_SEL_W0, 28, 2⟩
def PIPE_SEL_W0_tags : Fld := ⟨.PIPE_SEL_W0, 26, 2⟩
def PIPE_SEL_W0_ethertype : Fld := ⟨.PIPE_SEL_W0, 0, 16⟩
def PIPE_SEL_W1_mask : Fld := ⟨.PIPE_SEL_W1, 16, 16⟩
def PIPE_SEL_W1_profile : Fld := ⟨.PIPE_SEL_W1, 0, 6⟩
def PIPE_PRF_EXT_valid : Fld := ⟨.PIPE_PRF_EXT, 31, 1⟩
def PIPE_PRF_EXT_src : Fld := ⟨.PIPE_PRF_EXT, 30, 1⟩
def PIPE_PRF_EXT_offset : Fld := ⟨.PIPE_PRF_EXT, 16, 8⟩
def PIPE_PRF_EXT_length : Fld := ⟨.PIPE_PRF_EXT, 8, 4⟩
def PIPE_PRF_EXT_pos : Fld := ⟨.PIPE_PRF_EXT, 0, 6⟩
def PIPE_PRF_LKP0_table : Fld := ⟨.PIPE_PRF_LKP0, 30, 2⟩
def PIPE_PRF_LKP0_width : Fld := ⟨.PIPE_PRF_LKP0, 28, 2⟩
def PIPE_PRF_LKP0_key_start : Fld := ⟨.PIPE_PRF_LKP0, 16, 6⟩
def PIPE_PRF_LKP0_base : Fld := ⟨.PIPE_PRF_LKP0, 0, 8⟩
def PIPE_PRF_LKP1_miss_index : Fld := ⟨.PIPE_PRF_LKP1, 18, 14⟩
def PIPE_PRF_LKP1_bank_mask : Fld := ⟨.PIPE_PRF_LKP1, 0, 16⟩
def PIPE_PRF_L3_l3 : Fld := ⟨.PIPE_PRF_L3, 30, 2⟩
def PIPE_PRF_L3_l3_off : Fld := ⟨.PIPE_PRF_L3, 16, 8⟩
def PIPE_ACT_W0_word : Fld := ⟨.PIPE_ACT_W0, 0, 32⟩
def PIPE_ACT_W1_word : Fld := ⟨.PIPE_ACT_W1, 0, 32⟩
def PIPE_ACT_W2_word : Fld := ⟨.PIPE_ACT_W2, 0, 32⟩
def PIPE_ACT_W3_word : Fld := ⟨.PIPE_ACT_W3, 0, 32⟩
def PIPE_FLOOD_PORTS_LO_ports_lo : Fld := ⟨.PIPE_FLOOD_PORTS_LO, 0, 32⟩
def PIPE_FLOOD_PORTS_HI_ports_hi : Fld := ⟨.PIPE_FLOOD_PORTS_HI, 0, 32⟩
def PIPE_FLOOD_GRP_grp_valid : Fld := ⟨.PIPE_FLOOD_GRP, 31, 1⟩
def PIPE_FLOOD_GRP_group : Fld := ⟨.PIPE_FLOOD_GRP, 16, 9⟩
def PIPE_FLOOD_GRP_lsg : Fld := ⟨.PIPE_FLOOD_GRP, 0, 12⟩
def TBL_BR_SEED_br_seed : Fld := ⟨.TBL_BR_SEED, 0, 32⟩
def TBL_BR_AGE_age_ticks : Fld := ⟨.TBL_BR_AGE, 0, 27⟩
def TBL_BR_LEARN_ACT_act_uplink : Fld := ⟨.TBL_BR_LEARN_ACT, 16, 14⟩
def TBL_BR_LEARN_ACT_act_stand : Fld := ⟨.TBL_BR_LEARN_ACT, 0, 14⟩
def TBL_BR_STATUS_used : Fld := ⟨.TBL_BR_STATUS, 0, 22⟩
def TBL_BR_STASH_stash_used : Fld := ⟨.TBL_BR_STASH, 0, 13⟩
def TBL_BR_DEFER_deferred : Fld := ⟨.TBL_BR_DEFER, 0, 17⟩
def TBL_LOCK_held : Fld := ⟨.TBL_LOCK, 31, 1⟩
def TBL_LOCK_owner : Fld := ⟨.TBL_LOCK, 16, 5⟩
def TBL_LOCK_force_release : Fld := ⟨.TBL_LOCK, 1, 1⟩
def TBL_LOCK_lock : Fld := ⟨.TBL_LOCK, 0, 1⟩
def TBL_LOCK_T_lock_ticks : Fld := ⟨.TBL_LOCK_T, 0, 20⟩
def TBL_RING_BASE_LO_base_lo : Fld := ⟨.TBL_RING_BASE_LO, 5, 27⟩
def TBL_RING_BASE_HI_base_hi : Fld := ⟨.TBL_RING_BASE_HI, 0, 32⟩
def TBL_RING_SIZE_ring_size : Fld := ⟨.TBL_RING_SIZE, 0, 5⟩
def TBL_RING_TAIL_tail : Fld := ⟨.TBL_RING_TAIL, 0, 16⟩
def TBL_RING_HEAD_head : Fld := ⟨.TBL_RING_HEAD, 0, 16⟩
def TBL_RING_CTRL_en : Fld := ⟨.TBL_RING_CTRL, 0, 1⟩
def TBL_BR_DOM_move_en : Fld := ⟨.TBL_BR_DOM, 1, 1⟩
def TBL_BR_DOM_learn_en : Fld := ⟨.TBL_BR_DOM, 0, 1⟩
def ASC_BANK_CFG_cas : Fld := ⟨.ASC_BANK_CFG, 2, 1⟩
def ASC_BANK_CFG_width : Fld := ⟨.ASC_BANK_CFG, 0, 2⟩
def ASC_WIN_VALUE_value : Fld := ⟨.ASC_WIN_VALUE, 0, 32⟩
def ASC_WIN_MASK_mask : Fld := ⟨.ASC_WIN_MASK, 0, 32⟩
def ASC_WIN_SIDE_side : Fld := ⟨.ASC_WIN_SIDE, 0, 32⟩
def ASC_WIN_CMD_go : Fld := ⟨.ASC_WIN_CMD, 31, 1⟩
def ASC_WIN_CMD_op : Fld := ⟨.ASC_WIN_CMD, 28, 2⟩
def ASC_WIN_CMD_addr : Fld := ⟨.ASC_WIN_CMD, 0, 20⟩
def ASC_WIN_STAT_busy : Fld := ⟨.ASC_WIN_STAT, 31, 1⟩
def ASC_WIN_STAT_status : Fld := ⟨.ASC_WIN_STAT, 0, 8⟩
def ASC_CAS_CTRL_cas_pos : Fld := ⟨.ASC_CAS_CTRL, 4, 2⟩
def ASC_CAS_CTRL_cas_size : Fld := ⟨.ASC_CAS_CTRL, 0, 2⟩
def ASC_CAS_STATUS_cas_down : Fld := ⟨.ASC_CAS_STATUS, 0, 1⟩
def ASC_CAS_TIMEOUT_cas_timeout : Fld := ⟨.ASC_CAS_TIMEOUT, 0, 12⟩
def BUF_POOL_NEAR_near_mib : Fld := ⟨.BUF_POOL_NEAR, 0, 7⟩
def BUF_POOL_DEEP_deep_256m : Fld := ⟨.BUF_POOL_DEEP, 0, 6⟩
def BUF_POOL_NFREE_near_free : Fld := ⟨.BUF_POOL_NFREE, 0, 19⟩
def BUF_POOL_DFREE_deep_free : Fld := ⟨.BUF_POOL_DFREE, 0, 26⟩
def BUF_DEEP_CTRL_retrain : Fld := ⟨.BUF_DEEP_CTRL, 31, 1⟩
def BUF_DEEP_STATUS_withdrawn : Fld := ⟨.BUF_DEEP_STATUS, 4, 1⟩
def BUF_DEEP_STATUS_rings_on_die : Fld := ⟨.BUF_DEEP_STATUS, 2, 1⟩
def BUF_DEEP_STATUS_state : Fld := ⟨.BUF_DEEP_STATUS, 0, 2⟩
def BUF_DEEP_WD_wd_ticks : Fld := ⟨.BUF_DEEP_WD, 16, 16⟩
def BUF_DEEP_WD_wd_errs : Fld := ⟨.BUF_DEEP_WD, 0, 16⟩
def BUF_DEEP_USED_write_bytes : Fld := ⟨.BUF_DEEP_USED, 0, 32⟩
def BUF_HOLD_STATUS_hold_down : Fld := ⟨.BUF_HOLD_STATUS, 31, 1⟩
def BUF_HOLD_STATUS_ports : Fld := ⟨.BUF_HOLD_STATUS, 29, 2⟩
def BUF_HOLD_STATUS_cap_gib : Fld := ⟨.BUF_HOLD_STATUS, 0, 12⟩
def BUF_HOLD_CTRL_replay_mib : Fld := ⟨.BUF_HOLD_CTRL, 0, 9⟩
def BUF_DFREE_CAP_tier : Fld := ⟨.BUF_DFREE_CAP, 30, 2⟩
def BUF_DFREE_CAP_source : Fld := ⟨.BUF_DFREE_CAP, 24, 6⟩
def BUF_DFREE_CAP_buffer : Fld := ⟨.BUF_DFREE_CAP, 0, 24⟩
def BUF_DFREE_CAP1_pool : Fld := ⟨.BUF_DFREE_CAP1, 8, 2⟩
def BUF_DFREE_CAP1_gen : Fld := ⟨.BUF_DFREE_CAP1, 0, 8⟩
def BUF_SHADOW_FILL_ring_bytes : Fld := ⟨.BUF_SHADOW_FILL, 0, 26⟩
def BUF_SHADOW_OVF_replay_bytes : Fld := ⟨.BUF_SHADOW_OVF, 0, 29⟩
def BUF_PRF_SPILL_spill_on : Fld := ⟨.BUF_PRF_SPILL, 0, 22⟩
def BUF_PRF_KEEP_keep : Fld := ⟨.BUF_PRF_KEEP, 0, 16⟩
def BUF_PRF_DEEP_deep_max : Fld := ⟨.BUF_PRF_DEEP, 0, 15⟩
def BUF_Q_CFG_tier_max : Fld := ⟨.BUF_Q_CFG, 31, 1⟩
def BUF_Q_CFG_shadow_en : Fld := ⟨.BUF_Q_CFG, 30, 1⟩
def BUF_Q_CFG_profile : Fld := ⟨.BUF_Q_CFG, 0, 4⟩
def BUF_Q_NEAR_near_bytes : Fld := ⟨.BUF_Q_NEAR, 0, 26⟩
def BUF_Q_DEEP_pinned : Fld := ⟨.BUF_Q_DEEP, 31, 1⟩
def BUF_Q_DEEP_held : Fld := ⟨.BUF_Q_DEEP, 30, 1⟩
def BUF_Q_DEEP_deep_kib : Fld := ⟨.BUF_Q_DEEP, 0, 24⟩
def BUF_HOLD_QUOTA_hold_quota : Fld := ⟨.BUF_HOLD_QUOTA, 0, 22⟩
def BUF_HOLD_USED_used_kib : Fld := ⟨.BUF_HOLD_USED, 0, 32⟩
def SCH_GRV_MC_mc_cap : Fld := ⟨.SCH_GRV_MC, 0, 22⟩
def SCH_GRV_ASSURE_assure_used : Fld := ⟨.SCH_GRV_ASSURE, 0, 22⟩
def SCH_GRV_LAST_twigs : Fld := ⟨.SCH_GRV_LAST, 16, 9⟩
def SCH_GRV_LAST_deferred : Fld := ⟨.SCH_GRV_LAST, 0, 9⟩
def SCH_WHEEL_overflow : Fld := ⟨.SCH_WHEEL, 16, 11⟩
def SCH_WHEEL_entries : Fld := ⟨.SCH_WHEEL, 0, 11⟩
def SCH_UP_GLIM_g_limit : Fld := ⟨.SCH_UP_GLIM, 0, 24⟩
def SCH_UP_YLIM_y_limit : Fld := ⟨.SCH_UP_YLIM, 0, 24⟩
def SCH_UP_RLIM_r_limit : Fld := ⟨.SCH_UP_RLIM, 0, 24⟩
def SCH_UP_PLACE_tier_max : Fld := ⟨.SCH_UP_PLACE, 31, 1⟩
def SCH_UP_PLACE_profile : Fld := ⟨.SCH_UP_PLACE, 0, 4⟩
def SCH_UP_PORT_untag_class : Fld := ⟨.SCH_UP_PORT, 0, 3⟩
def SCH_STD_MAX_max : Fld := ⟨.SCH_STD_MAX, 0, 30⟩
def SCH_STD_BURST_burst : Fld := ⟨.SCH_STD_BURST, 0, 28⟩
def SCH_STD_WEIGHT_weight : Fld := ⟨.SCH_STD_WEIGHT, 0, 8⟩
def SCH_STD_BKT_bucket : Fld := ⟨.SCH_STD_BKT, 0, 32⟩
def SCH_STD_NET_in_wheel : Fld := ⟨.SCH_STD_NET, 31, 1⟩
def SCH_STD_NET_in_overflow : Fld := ⟨.SCH_STD_NET, 30, 1⟩
def SCH_STD_NET_offset : Fld := ⟨.SCH_STD_NET, 0, 14⟩
def SCH_STD_NEXT_LO_frame_lo : Fld := ⟨.SCH_STD_NEXT_LO, 0, 32⟩
def SCH_STD_NEXT_HI_frame_hi : Fld := ⟨.SCH_STD_NEXT_HI, 0, 16⟩
def SCH_BGH_MAX_max : Fld := ⟨.SCH_BGH_MAX, 0, 30⟩
def SCH_BGH_BURST_burst : Fld := ⟨.SCH_BGH_BURST, 0, 28⟩
def SCH_BGH_ASSURED_assured : Fld := ⟨.SCH_BGH_ASSURED, 0, 30⟩
def SCH_BGH_WEIGHT_weight : Fld := ⟨.SCH_BGH_WEIGHT, 0, 8⟩
def SCH_BGH_MAX_BKT_max_bkt : Fld := ⟨.SCH_BGH_MAX_BKT, 0, 32⟩
def SCH_BGH_ASR_BKT_asr_bkt : Fld := ⟨.SCH_BGH_ASR_BKT, 0, 32⟩
def SCH_BGH_LAST_bytes : Fld := ⟨.SCH_BGH_LAST, 0, 22⟩
def SCH_POL_CTRL_en : Fld := ⟨.SCH_POL_CTRL, 31, 1⟩
def SCH_POL_CTRL_variant : Fld := ⟨.SCH_POL_CTRL, 28, 2⟩
def SCH_POL_CTRL_aware : Fld := ⟨.SCH_POL_CTRL, 27, 1⟩
def SCH_POL_CTRL_red_drop : Fld := ⟨.SCH_POL_CTRL, 26, 1⟩
def SCH_POL_CTRL_pcp_y_en : Fld := ⟨.SCH_POL_CTRL, 25, 1⟩
def SCH_POL_CTRL_pcp_r_en : Fld := ⟨.SCH_POL_CTRL, 24, 1⟩
def SCH_POL_CTRL_pcp_y : Fld := ⟨.SCH_POL_CTRL, 20, 3⟩
def SCH_POL_CTRL_pcp_r : Fld := ⟨.SCH_POL_CTRL, 16, 3⟩
def SCH_POL_CTRL_dei_en : Fld := ⟨.SCH_POL_CTRL, 15, 1⟩
def SCH_POL_CIR_cir : Fld := ⟨.SCH_POL_CIR, 0, 30⟩
def SCH_POL_PIR_pir : Fld := ⟨.SCH_POL_PIR, 0, 30⟩
def SCH_POL_CBS_cbs : Fld := ⟨.SCH_POL_CBS, 0, 28⟩
def SCH_POL_PBS_pbs : Fld := ⟨.SCH_POL_PBS, 0, 28⟩
def SCH_POL_TC_tc : Fld := ⟨.SCH_POL_TC, 0, 28⟩
def SCH_POL_TP_tp : Fld := ⟨.SCH_POL_TP, 0, 28⟩
def SCH_Q_GLIM_g_limit : Fld := ⟨.SCH_Q_GLIM, 0, 24⟩
def SCH_Q_YLIM_y_limit : Fld := ⟨.SCH_Q_YLIM, 0, 24⟩
def SCH_Q_RLIM_r_limit : Fld := ⟨.SCH_Q_RLIM, 0, 24⟩
def SCH_Q_DEPTH_depth : Fld := ⟨.SCH_Q_DEPTH, 0, 24⟩
def SLC_PAGE_CTRL_swap_req : Fld := ⟨.SLC_PAGE_CTRL, 31, 1⟩
def SLC_PAGE_CTRL_active : Fld := ⟨.SLC_PAGE_CTRL, 0, 1⟩
def SLC_PAGE_STAT_conflicts : Fld := ⟨.SLC_PAGE_STAT, 0, 20⟩
def SLC_CONN_CMD_go : Fld := ⟨.SLC_CONN_CMD, 31, 1⟩
def SLC_CONN_CMD_op : Fld := ⟨.SLC_CONN_CMD, 28, 2⟩
def SLC_CONN_CMD_leg : Fld := ⟨.SLC_CONN_CMD, 27, 1⟩
def SLC_CONN_CMD_dst : Fld := ⟨.SLC_CONN_CMD, 16, 11⟩
def SLC_CONN_CMD_src : Fld := ⟨.SLC_CONN_CMD, 0, 11⟩
def SLC_DEG_CTRL_deg_m : Fld := ⟨.SLC_DEG_CTRL, 16, 4⟩
def SLC_DEG_CTRL_deg_thr : Fld := ⟨.SLC_DEG_CTRL, 0, 13⟩
def SLC_DEG_INT_deg_int : Fld := ⟨.SLC_DEG_INT, 0, 23⟩
def SLC_GRV_REGION_slots : Fld := ⟨.SLC_GRV_REGION, 0, 14⟩
def SLC_SL_CTRL_en : Fld := ⟨.SLC_SL_CTRL, 31, 1⟩
def SLC_SL_CTRL_dir : Fld := ⟨.SLC_SL_CTRL, 30, 1⟩
def SLC_SL_CTRL_stand : Fld := ⟨.SLC_SL_CTRL, 0, 14⟩
def SLC_SL_SLOTS_first : Fld := ⟨.SLC_SL_SLOTS, 16, 14⟩
def SLC_SL_SLOTS_n : Fld := ⟨.SLC_SL_SLOTS, 0, 14⟩
def SLC_SL_UP_bough : Fld := ⟨.SLC_SL_UP, 16, 16⟩
def SLC_SL_UP_start_leaf : Fld := ⟨.SLC_SL_UP, 0, 16⟩
def SLC_SL_FILL_rev_en : Fld := ⟨.SLC_SL_FILL, 31, 1⟩
def SLC_SL_FILL_rev : Fld := ⟨.SLC_SL_FILL, 16, 11⟩
def SLC_SL_FILL_fill : Fld := ⟨.SLC_SL_FILL, 0, 9⟩
def SLC_SL_STATUS_defects : Fld := ⟨.SLC_SL_STATUS, 0, 5⟩
def SLC_SL_LEN_twig_len : Fld := ⟨.SLC_SL_LEN, 0, 16⟩
def SLC_PG_CTRL_en : Fld := ⟨.SLC_PG_CTRL, 31, 1⟩
def SLC_PG_CTRL_bidir : Fld := ⟨.SLC_PG_CTRL, 30, 1⟩
def SLC_PG_CTRL_protect : Fld := ⟨.SLC_PG_CTRL, 16, 11⟩
def SLC_PG_CTRL_working : Fld := ⟨.SLC_PG_CTRL, 0, 11⟩
def SLC_PG_WTR_wtr_ticks : Fld := ⟨.SLC_PG_WTR, 0, 23⟩
def SLC_PG_CMD_go : Fld := ⟨.SLC_PG_CMD, 31, 1⟩
def SLC_PG_CMD_cmd : Fld := ⟨.SLC_PG_CMD, 0, 3⟩
def SLC_PG_STATUS_selected : Fld := ⟨.SLC_PG_STATUS, 31, 1⟩
def SLC_PG_STATUS_far_req : Fld := ⟨.SLC_PG_STATUS, 24, 4⟩
def SLC_PG_STATUS_req : Fld := ⟨.SLC_PG_STATUS, 20, 4⟩
def SLC_FL_CTRL_en : Fld := ⟨.SLC_FL_CTRL, 31, 1⟩
def SLC_FL_CTRL_src_kind : Fld := ⟨.SLC_FL_CTRL, 29, 1⟩
def SLC_FL_CTRL_src : Fld := ⟨.SLC_FL_CTRL, 16, 11⟩
def SLC_FL_CTRL_flow_id : Fld := ⟨.SLC_FL_CTRL, 8, 8⟩
def SLC_FL_CTRL_port : Fld := ⟨.SLC_FL_CTRL, 0, 6⟩
def SLC_FL_DST_dst_en : Fld := ⟨.SLC_FL_DST, 31, 1⟩
def SLC_FL_DST_brg_en : Fld := ⟨.SLC_FL_DST, 30, 1⟩
def SLC_FL_DST_brg : Fld := ⟨.SLC_FL_DST, 16, 11⟩
def SLC_FL_DST_dst : Fld := ⟨.SLC_FL_DST, 0, 11⟩
def SLC_FL_PKT_rx_flow_id : Fld := ⟨.SLC_FL_PKT, 16, 8⟩
def SLC_FL_PKT_dj_ticks : Fld := ⟨.SLC_FL_PKT, 8, 4⟩
def SLC_FL_PKT_chunk : Fld := ⟨.SLC_FL_PKT, 0, 8⟩
def SLC_FL_VLAN_vlan_en : Fld := ⟨.SLC_FL_VLAN, 16, 1⟩
def SLC_FL_VLAN_tci : Fld := ⟨.SLC_FL_VLAN, 0, 16⟩
def SLC_FL_DMAC_LO_mac : Fld := ⟨.SLC_FL_DMAC_LO, 0, 32⟩
def SLC_FL_DMAC_HI_mac : Fld := ⟨.SLC_FL_DMAC_HI, 0, 32⟩
def SLC_FL_SMAC_LO_mac : Fld := ⟨.SLC_FL_SMAC_LO, 0, 32⟩
def SLC_FL_SMAC_HI_mac : Fld := ⟨.SLC_FL_SMAC_HI, 0, 32⟩
def SLC_FL_STATUS_depth : Fld := ⟨.SLC_FL_STATUS, 0, 9⟩
def SLC_CONN_PAGE_word : Fld := ⟨.SLC_CONN_PAGE, 0, 32⟩

end Sys2Proof.Machine.Fields
end

