-- ==== Sys2Proof/Machine/RegFile.lean ====
section
/-!
DEFINITION. Register files: sparse maps from (register, index) to words, where an unlisted register
reads as its reset word (R582 to R584 and the other register tables), field access, and the address decoder (R604, R606).
-/

namespace Sys2Proof.Machine

/-- One bit field of a number. -/
def bitsOf (w lo width : Nat) : Nat := w / 2 ^ lo % 2 ^ width

/-- A number with one bit field replaced. -/
def setBits (w lo width v : Nat) : Nat :=
  w - bitsOf w lo width * 2 ^ lo + v % 2 ^ width * 2 ^ lo

/-- The fields of a type, as a mask. -/
def maskOfTy (fs : List FieldDesc) (p : FieldTy → Bool) : Nat :=
  fs.foldl (fun a f => if p f.ty then a + (2 ^ f.width - 1) * 2 ^ f.lo else a) 0

/-- The reset word of the fields of the given types. -/
def resetOfTy (fs : List FieldDesc) (p : FieldTy → Bool) : Nat :=
  fs.foldl (fun a f => if p f.ty then a + f.reset % 2 ^ f.width * 2 ^ f.lo else a) 0

/-- Fields that software sets: RW and RWS. -/
def FieldTy.isCfg : FieldTy → Bool
  | .rw => true
  | .rws => true
  | _ => false

/-- Fields that the device sets and that live in the status file: RO and W1C. -/
def FieldTy.isSts : FieldTy → Bool
  | .ro => true
  | .w1c => true
  | _ => false

/-- The key of a register at an index. -/
def regKey (r : Reg) (i : Nat) : Nat := r.id * 2 ^ 22 + i % 2 ^ 22

/-- Reset words that differ from index to index: the access entries of R564 (PF0 READ_WRITE everywhere,
the loader READ_WRITE but for CFG, the test port READ in TOP) the pool partitions of R339, the placement of multicast queues, which reads NEAR (R379), and the default presets (GRV_PRESET_DEF0 to 2). -/
def resetSpecial (r : Reg) (i : Nat) : Option Nat :=
  if r = .ACC_RGN_LO then some 2
  else if r = .ACC_RGN_HI then
    some ((if i = 5 then 1 else 2) * 16 + (if i = 0 then 1 else 0) * 64)
  else if r = .BUF_POOL_NEAR then some (if i = 0 then 8 else if i = 1 then 16 else if i = 2 then 16 else 24)
  else if r = .BUF_POOL_DEEP then some (if i = 0 then 4 else if i = 1 then 12 else if i = 2 then 16 else 23)
  else if r = .BUF_Q_CFG then (if 520192 ≤ i then some 0 else none)
  else if r = .GRV_PRESET_DEF then some (if i % 3 = 0 then 0x00400000 else if i % 3 = 1 then 0 else 0x00082020)
  else none

/-- The word a configuration register holds where nothing is listed. -/
def cfgReset (r : Reg) (i : Nat) : Nat :=
  (resetSpecial r i).getD (resetOfTy r.desc.fields FieldTy.isCfg)

/-- The words of the stand-alone defaults for the boughs 0 to 16,383: bough i bound to stand i with bough index 0, and their assured rates (R519). -/
def aloneWord (r : Reg) (i : Nat) : Option Nat :=
  if r = .BGH_BIND then some (2 ^ 31 + i)
  else if r = .BGH_ASSURED then some 0x1AF1
  else if r = .SCH_BGH_ASSURED then some 0x61A80
  else none

/-- The word a configuration register holds where nothing is listed: its reset word, or, in a device that started with the stand-alone defaults, the word
that these give the boughs 0 to 16,383. -/
def cfgBase (alone : Bool) (r : Reg) (i : Nat) : Nat :=
  if alone = true ∧ i < 16384 then (aloneWord r i).getD (cfgReset r i) else cfgReset r i

/-- The word a status register holds where nothing is listed. -/
def stsReset (r : Reg) (_i : Nat) : Nat := resetOfTy r.desc.fields FieldTy.isSts

/-- A register file: the words that differ from the reset words. -/
structure RegFile where
  cells : SMap Nat
  deriving DecidableEq, Repr

/-- The empty register file: every register at its reset word. -/
def RegFile.reset : RegFile := ⟨[]⟩

/-- A register of a file whose unlisted words read as `d`. -/
def RegFile.word (f : RegFile) (d : Reg → Nat → Nat) (r : Reg) (i : Nat) : Nat :=
  f.cells.getD (regKey r i) (d r i)

/-- Write a register of a file whose unlisted words read as `d`. -/
def RegFile.setWord (f : RegFile) (d : Reg → Nat → Nat) (r : Reg) (i v : Nat) : RegFile :=
  ⟨f.cells.setD (regKey r i) v (d r i)⟩

/-- A field of a file. -/
def RegFile.fld (f : RegFile) (d : Reg → Nat → Nat) (x : Fld) (i : Nat) : Nat :=
  bitsOf (f.word d x.reg i) x.lo x.width

/-- Write a field of a file. -/
def RegFile.setFld (f : RegFile) (d : Reg → Nat → Nat) (x : Fld) (i v : Nat) : RegFile :=
  f.setWord d x.reg i (setBits (f.word d x.reg i) x.lo x.width v)

/-- The flat index of a register address inside its (count, stride) dimensions, if every index is in range
and nothing is left over. -/
def flatIndex : List (Nat × Nat) → Nat → Nat → Option Nat
  | [], off, acc => if off = 0 then some acc else none
  | (c, st) :: t, off, acc =>
    let i := off / st
    if i < c then flatIndex t (off % st) (acc * c + i) else none

/-- The register at an offset of a region, with its flat index (R606). -/
def findReg : List RegDesc → Nat → Option (RegDesc × Nat)
  | [], _ => none
  | d :: t, off =>
    if d.off ≤ off then
      match flatIndex d.dims (off - d.off) 0 with
      | some i => some (d, i)
      | none => findReg t off
    else findReg t off

/-- The block that holds an address (R604), as (region, offset in the block). -/
def blockOf (addr : Nat) : Option (Nat × Nat) :=
  match blocks.find? (fun b => decide (b.2.1 ≤ addr ∧ addr < b.2.1 + b.2.2)) with
  | some b => some (b.1, addr - b.2.1)
  | none => none

/-- The register at a BAR0 offset (R604 to R606): none where the offset is unassigned (R607). -/
def decodeAddr (addr : Nat) : Option (RegDesc × Nat) :=
  match blockOf addr with
  | some (rg, off) => findReg (regsOfRegion rg) off
  | none => none

/-- The offset of an index inside the dimensions of a register. -/
def offsetOfIndex : List (Nat × Nat) → Nat → Nat
  | [], _ => 0
  | (_, st) :: t, i =>
    let below := t.foldl (fun a p => a * p.1) 1
    i / below * st + offsetOfIndex t (i % below)

/-- The BAR0 offset of a register at a flat index. -/
def addrOf (r : Reg) (i : Nat) : Nat :=
  let d := r.desc
  let base := ((blocks.find? (fun b => b.1 == d.region)).map (fun b => b.2.1)).getD 0
  base + d.off + offsetOfIndex d.dims i

end Sys2Proof.Machine
end

