-- ==== Sys2Proof/Machine/State.lean ====
section
/-!
DEFINITION. The state of the block as plain data: the commands that wait, the configuration that software sets (with its staged writes), and
the device's own state, file by file of the spec; the faults and refusals; and the state after reset.
-/

namespace Sys2Proof.Machine

/-! ### Time and staging (spec file 02) -/

/-- A staged write that has not committed (R34 to R38): the master, the register and index, the bits it sets,
their values, the core clock of its acceptance, counted since reset, and its commit edge, `none` while the master holds. -/
structure Staged where
  master : Nat
  reg    : Reg
  idx    : Nat
  mask   : Nat
  value  : Nat
  cyc    : Nat
  due    : Option Nat
  deriving DecidableEq, Repr

/-- What the device keeps of a master's staged writes (R38): the edge of its last accepted staged write, and its count of held writes. -/
structure StageRec where
  edge    : Nat
  /-- writes whose edge is not fixed because the master holds -/
  held    : Nat
  deriving DecidableEq, Repr

/-- The kinds of timer of R46 that the model runs. -/
inductive TimerKind where
  | disc | rng | reacq | lost | silence | reasm | poll | key | rekeyInt | retire | groupSwitch
  | bridgeAge | frag | lock | wtr | sectorFlush | pairing | plaxonSilent | pinSilent | syncA | syncB
  | alignSrc | peerAnswer | linkRetry
  deriving DecidableEq, Repr

/-- A timer of R46: its count, whether it runs, whether it is to be armed at the next edge (R48), and whether a
qualifying arrival was recorded in the current tick. -/
structure Tmr where
  c      : Nat
  run    : Bool
  arming : Bool
  arr    : Bool
  deriving DecidableEq, Repr

/-! ### Line messages (spec file 06) -/

/-- A line message before its placement in a frame (R174, R177): type, addressed stand-in-grove or 0x1FF,
body, and whether it is a host message that takes a placement ticket (R179). -/
structure LineMsg where
  ty    : Nat
  stand : Nat
  body  : List Byte
  host  : Bool
  deriving DecidableEq, Repr

/-- A message placed in a frame: its slot position and its 64 bytes. -/
structure PlacedMsg where
  slot  : Nat
  bytes : List Byte
  deriving DecidableEq, Repr

/-- An upstream message accepted under R178 and waiting to be judged: sender, type, body, and the whole 64 bytes. -/
structure InMsg where
  stand : Nat
  ty    : Nat
  body  : List Byte
  raw   : List Byte
  deriving DecidableEq, Repr

/-- A discovery answer, or a Serial_Number_ONU, waiting to be judged (R135): its frame, accepted position in symbols after edge k + T_loop,
serial, random delay and precoder support. -/
structure Answer where
  frame    : Nat
  pos      : Nat
  serial   : Nat
  r        : Nat
  precoder : Bool
  deriving DecidableEq, Repr

/-! ### Stands (spec files 05 and 06) -/

/-- The stand states of R8, in the order of their codes in STD_STATE. -/
inductive StandSt where
  | absent | discovered | ranging | active | resting | silenced
  deriving DecidableEq, Repr

/-- The commands of STD_CMD that wait for the next edge (R186). -/
inductive StdCmd where
  | admitCmd | silence | unsilence | deregister
  deriving DecidableEq, Repr

/-- A burst preset: eight feed-forward taps, the feedback tap, the continuous-time code, the sampling phase and the gain. -/
structure Preset where
  ffe  : List Int
  dfe  : Int
  ctle : Nat
  samp : Nat
  vga  : Nat
  deriving DecidableEq, Repr

/-- A keep-store record of a stand position (R154). -/
structure KeepRec where
  serial   : Nat
  eqd      : Nat
  tloop    : Nat
  preset   : Preset
  learned  : Bool
  precoder : Bool
  current  : Option Nat
  epochA   : Bool
  epochB   : Bool
  sfc      : Nat
  compat   : Bool
  /-- the upstream rate of the mode -/
  rate     : Bool
  crcOk    : Bool
  deriving DecidableEq, Repr

/-- A rest grant whose message has been placed (R180): its entry and wake edges. Until then its period waits in the message. -/
structure RestGrant where
  entry  : Nat
  wake   : Nat
  deriving DecidableEq, Repr

/-- The lifecycle of a stand (R165): state, the edge of its last transition (R189), commands waiting for the edge,
the flag of a DEREGISTER message not yet placed (R172), the serial, the rest grants placed and not yet entered, and the last wake edge. -/
structure Life where
  st        : StandSt
  lastTrans : Option Nat
  cmds      : List StdCmd
  discEdge  : Nat
  deregMsg  : Bool
  serial    : Nat
  rest      : List RestGrant
  wake      : Nat
  deriving DecidableEq, Repr

/-- The ranging record of a stand (R138 to R153). -/
structure Ranging where
  eqd        : Nat
  loopSum    : Nat
  lastCorr   : Int
  lastPhase  : Int
  drift      : Int
  attempts   : Nat
  precoder   : Bool
  preset     : Option Preset
  learned    : Bool
  learnSamp  : Nat
  learnCount : Nat
  missRun    : Nat
  /-- phases of the bursts of the current tick -/
  phases     : List Int
  /-- the ranging burst of the current tick: `some none` a failed attempt -/
  resNow     : Option (Option Int)
  /-- the ranging result closed at the last edge and not yet judged -/
  res        : Option (Option Int)
  driftRun   : Nat
  driftM     : Int
  /-- drift is not judged before this edge (R146) -/
  driftFrom  : Nat
  /-- a delay message is queued and not yet placed -/
  delayWait  : Nat
  /-- the frame that carried the latest delay message -/
  delayFrame : Option Nat
  /-- the next ranging grant is due (R140, R142, R407) -/
  grantDue   : Bool
  /-- the first ordinary twig is to be a ranging twig (R148) -/
  twigDue    : Bool
  /-- ranged: the last judged phase was within one symbol -/
  ranged     : Bool
  /-- on a standby: whether the mirror has shown that the stand ranges again from ACTIVE (R443) -/
  reacq      : Option Bool := none
  deriving DecidableEq, Repr

/-- The message side of a stand: the slot owed after a burst with msg_flag (R168), the number of the engine-built map of its last message
slot (R213), the last burst sequence (R116), and the bursts of the stand that were missed, as (frame, start). -/
structure Mail where
  slotDue   : Bool
  /-- a burst of the current tick has carried msg_flag: the edge that judges it sets `slotDue` (R168) -/
  slotNow   : Bool
  /-- the reports of the current tick, read at the edge under the configuration then in force (R198, R217): frame, start of the reporting twig, and
  (bough index, occupancy) -/
  reps      : Option (Nat × Nat × List (Nat × Nat))
  /-- bursts of upstream frames up to this one are discarded: their maps were sealed when the stand became SILENCED or ABSENT (R117) -/
  voidTo    : Option Nat
  lastSlot  : Option Nat
  prevSeq   : Option Nat
  missed    : List (Nat × Nat)
  /-- the served time at which the delimiter of the stand's latest burst arrived (R463) -/
  stamp     : Nat
  deriving DecidableEq, Repr

/-! ### Boughs (spec file 07) -/

/-- A grant recorded for a bough (R198): the upstream frame, the start of its twig and the leaves. -/
structure GrantRec where
  frame  : Nat
  start  : Nat
  leaves : Nat
  deriving DecidableEq, Repr

/-- A report taken for a bough: the frame, the start of the reporting twig and the occupancy. -/
structure Report where
  frame : Nat
  start : Nat
  occ   : Nat
  deriving DecidableEq, Repr

/-- The partial packet of a bough (R101): its key index and the payload received so far. -/
structure Partial where
  keyIndex : Nat
  bytes    : List Byte
  /-- the stamp of the burst that carried the packet's first byte (R463) -/
  stamp    : Nat
  /-- the packet may be a remainder whose beginning was lost (R101) -/
  doubt    : Bool
  /-- the twig whose share brought its last fragment: frame and start -/
  twig     : Nat × Nat
  deriving DecidableEq, Repr

/-- The upstream state of a bough. -/
structure Bough where
  accFixed : Nat
  accAssur : Nat
  accMax   : Nat
  entFixed : Nat
  entAssur : Nat
  entMax   : Nat
  report   : Option Report
  /-- reports of the current tick, taken at the next edge -/
  newRep   : Option Report
  grants   : List GrantRec
  request  : Nat
  leaves   : Nat
  predLv   : Nat
  rateE    : Nat
  /-- data-fragment bytes of shares received, as (frame, start, bytes), since the last report -/
  dataRx   : List (Nat × Nat × Nat)
  pollDue  : Bool
  /-- the watchdog expired at the edge whose report made the request non-zero (R219) -/
  pollHold : Bool
  part     : Option Partial
  /-- the beginning of the bough's packet may have been lost (R101) -/
  orphan   : Bool
  deriving DecidableEq, Repr

/-! ### Groves (spec files 03 to 08) -/

/-- A clearing whose maps are built or being received (R126): first frame, length, s0, discovery delay, differential reach and
good answers so far. -/
structure Clearing where
  frame   : Nat
  len     : Nat
  s0      : Nat
  eqdDisc : Nat
  diffKm  : Nat
  answers : Nat
  compat  : Bool
  /-- T_loop when the clearing was built (R159) -/
  tloop   : Nat
  /-- the end of the suspension after the last accepted delimiter, as a position (R134) -/
  resume  : Option Int
  deriving DecidableEq, Repr

/-- A fragment of a frame's payload region (R70, R71). -/
structure Fragment where
  hdr     : EncapHdr
  payload : List Byte
  deriving DecidableEq, Repr

/-- A continuation that the next frame owes (R76). -/
structure Continuation where
  stand    : Nat
  bough    : Nat
  keyIndex : Nat
  rest     : List Byte
  group    : Bool
  deriving DecidableEq, Repr

/-- A PLOAM message queued for a compatibility grove (R231): the kind by name, the addressed stand or 0x1FF, and its numbers. -/
inductive PloamKind where
  | burstProfile | assignOnuId | rangingTime | deactivate | disableSerial | requestRegistration
  | assignAllocId | keyControl | acknowledge
  deriving DecidableEq, Repr

/-- A PLOAM message queued or sent, with the integrity check that it gets as it is placed (R231). -/
structure Ploam where
  kind : PloamKind
  onu  : Nat
  args : List Nat
  mic  : Nat := 0
  deriving DecidableEq, Repr

/-- A downstream frame as sealed and built (R65, R66): number, map, messages, header fields, slice frames by slot, fragments, and
the headers of the idle fragments that end its payload region. -/
structure DsFrame where
  sfc      : Nat
  map      : List MapEntry
  mapWords : Nat
  msgs     : List PlacedMsg
  slots    : Nat
  precoder : Bool
  slices   : List (Nat × List Byte)
  frags    : List Fragment
  idle     : List EncapHdr
  /-- compatibility groves: the PLOAM messages and the OMCI message (stand-in-grove and bytes) of the frame -/
  ploams   : List Ploam
  omci     : Option (Nat × List Byte)
  /-- the slices whose frames are AIS frames (R257) -/
  ais      : List Nat
  deriving DecidableEq, Repr

/-- An OMCI message held for the host: sender and bytes (R237). -/
structure OmciMsg where
  stand : Nat
  bytes : List Byte
  deriving DecidableEq, Repr

/-- The state of a grove. -/
structure Grove where
  inService  : Bool
  /-- the edge at which the grove last entered service -/
  since      : Nat
  msgQ       : List LineMsg
  announce   : Option LineMsg
  waiting    : List LineMsg
  ticket     : Nat
  done       : List (Nat × Nat × Nat)
  rxFifo     : List (List Byte)
  inbox      : List InMsg
  judge      : List InMsg
  ansInbox   : List Answer
  answers    : List Answer
  takenSer   : List Nat
  maps       : List SealedMap
  computed   : Option BuiltMap
  lastMap    : Option BuiltMap
  abandoned  : Bool
  forceNow   : Bool
  forceNext  : Bool
  /-- maps that the engine has built for the grove (R213) -/
  built      : Nat
  fairPtr    : Nat
  rotPtr     : Nat
  /-- clearings whose frames are built or still awaited, newest first -/
  clearings  : List Clearing
  /-- the frames at which clearings forced by clear_now begin (R132) -/
  clearAt    : List Nat
  /-- the start frame that was last judged for a clearing -/
  clrSeen    : Option Nat
  fastEvent  : Option Nat
  /-- a bad answer has come in the current tick (R131, R136) -/
  badAns     : Bool
  ansLast    : Nat
  cont       : Option Continuation
  frame      : Option DsFrame
  onAir      : Option DsFrame
  rssiArm    : Option Nat
  /-- the equalizer banks of the grove's lane (R107): the preset read for a burst that starts behind the present one, by frame and start leaf, and the active one -/
  eqShadow   : Option ((Nat × Nat) × Preset)
  eqActive   : Option Preset
  capArm     : Bool
  loopDelay  : Nat
  /-- the OMCI message in transmission: stand, bytes, and the tick of its command (R237, R241) -/
  omciTx     : Option (Nat × List Byte × Nat)
  omciRx     : List OmciMsg
  ploamQ     : List Ploam
  /-- granted and missed bursts of the upstream frame that the tick receives, and of the one that the last edge closed (R116, R449) -/
  tally      : Nat × Nat
  lastTally  : Nat × Nat
  /-- the edge of the grove's last TIME_MARK (R469) -/
  marked     : Option Nat := none
  deriving DecidableEq, Repr


/-! ### Keys (spec file 14) -/

/-- One epoch of a stand or group as the engines hold it: its secret is in its key-store slot; here are its counters. `usFrom` is the
first edge at which upstream packets of the epoch are accepted (R410); `restored` epochs accept none (R417). -/
structure EpochSt where
  held      : Bool
  dsCtr     : Nat
  dsStopped : Bool
  usHigh    : Nat
  usStopped : Bool
  usFrom    : Nat
  restored  : Bool
  peerPub   : Nat
  deriving DecidableEq, Repr

/-- The progress of an agreement (R406, R424). -/
inductive Agree where
  | idle | offered | answered | failed
  deriving DecidableEq, Repr

/-- The key state of a stand (R400 to R411). -/
structure StandKeys where
  epA       : EpochSt
  epB       : EpochSt
  cur       : Nat
  ready     : Bool
  agree     : Agree
  target    : Nat
  scalar    : Nat
  tries     : Nat
  /-- waits for the key engine to serve it (R24) -/
  queued    : Bool
  /-- the agreement is a rekey of an ACTIVE stand -/
  isRekey   : Bool
  /-- the next offer is made at the checkpoint edge (R408) -/
  retryCkpt : Bool
  /-- triggers held until the retirement edge (R409) -/
  heldTrig  : Bool
  /-- the epoch that retires, while its timer runs -/
  retiring  : Option Nat
  /-- from this frame on packets go under `cur` (R410) -/
  curFrom   : Nat
  /-- ticks of the failures that count under R403 -/
  fails     : List Nat
  /-- the built-map index of the next grant of R407 -/
  grantAt   : Option Nat
  /-- the edge of the last completed agreement -/
  lastDone  : Option Nat
  /-- compatibility: data keys loaded, by index, and the switch named by Key_Control (R238) -/
  dataKey   : Option Nat
  nextKey   : Option (Nat × Nat)
  /-- groups whose membership the last GROUP_SET queued for the stand announced (R185) -/
  joined    : List Nat
  deriving DecidableEq, Repr

/-- A multicast group's or grove's shared key (R412). -/
structure SharedKey where
  valid    : Bool
  epoch    : Nat
  ctr      : Nat
  stopped  : Bool
  pending  : Bool
  /-- stands whose delivery of the pending key is not yet placed -/
  deliver  : List Nat
  /-- the edge from which the pending key is used -/
  switchAt : Option Nat
  /-- the edge at which the former epoch's slot is erased -/
  eraseAt  : Option Nat
  deriving DecidableEq, Repr

/-- The key engine (R397, R414, R415, R422): the queue of stands to serve, the seal counter and its ceiling. -/
structure KeyEngine where
  queue    : List Nat
  sealCtr  : Nat
  sealCeil : Nat
  deriving DecidableEq, Repr

/-! ### Hard slices (spec file 09) -/

/-- A connection of the slot interchange: upstream slice, leg and downstream slice (R255). -/
structure Conn where
  src : Nat
  leg : Nat
  dst : Nat
  deriving DecidableEq, Repr

/-- A slice frame in plaintext, received from upstream frame `frame` (R249). -/
structure SliceRx where
  frame : Nat
  bytes : List Byte
  deriving DecidableEq, Repr

/-- The state of a slice. -/
structure SliceSt where
  /-- frames received and not yet passed on -/
  rx        : List SliceRx
  /-- the slice twig of the current tick: `some true` received, `some false` missed -/
  twigNow   : Option Bool
  /-- BIP-8 of the payload area of the last frame received, and of the last frame sent -/
  bipRx     : Nat
  bipTx     : Nat
  bipBad    : Bool
  aisNow    : Option Bool
  los       : Bool
  lost      : Bool
  lod       : Bool
  ais       : Bool
  deg       : Bool
  lodMiss   : Nat
  lodGood   : Nat
  aisSet    : Nat
  aisClr    : Nat
  errFrames : Nat
  badInt    : Nat
  goodInt   : Nat
  /-- defects not suppressed, as the bits of SLC_SL_STATUS -/
  shown     : Nat
  deriving DecidableEq, Repr

/-- A protection group (R261 to R265). -/
structure Pg where
  standing : Nat
  cmd      : Option Nat
  wtr      : Bool
  farRun   : Nat
  farBytes : Nat × Nat
  farReq   : Nat
  req      : Nat
  selected : Bool
  /-- the selection of the edge before, which governs the frames received in the tick before this one (R263) -/
  prev     : Bool
  deriving DecidableEq, Repr

/-- A frame held in a de-jitter buffer: the downstream frame it plays into, and its packets as (index, bytes). -/
structure DjFrame where
  frame : Nat
  pkts  : List (Nat × List Byte)
  deriving DecidableEq, Repr

/-- A 1914.3 flow (R266 to R268). -/
structure FlowSt where
  locked  : Bool
  delta   : Nat
  buf     : List DjFrame
  lateNow : Bool
  lateRun : Nat
  ovfRun  : Nat
  quiet   : Nat
  gotNow  : Bool
  lossDef : Bool
  /-- the frame number of the packet whose ingress stamp was recorded last (R472) -/
  rxFrame : Option Nat
  /-- BIP-8 of the payload area sent last, 256 added where the device made that payload (R252) -/
  bipTx   : Nat
  deriving DecidableEq, Repr


/-! ### Packets, queues, buffers and shapers (spec files 10, 12 and 13) -/

/-- A buffer of a pool of a tier: its state bit and generation (R342). -/
structure Buf where
  alloc : Bool
  gen   : Nat
  deriving DecidableEq, Repr

/-- A packet held in a queue: a unique number, its bytes, the pool, buffer and generation that hold it, the tick and core clock of its
admission, the replicas still to be sent (R379), whether it has moved into the hold tier and the tick of that move. -/
structure QPkt where
  uid   : Nat
  bytes : List Byte
  pool  : Nat
  buf   : Nat
  gen   : Nat
  tick  : Nat
  clock : Nat
  reps  : Nat
  moved : Bool
  /-- it has its place in the stand's stream of sectors; the bytes wait in the near tier until the last of its sectors is written (R354) -/
  packed : Bool := false
  /-- the sectors of the held area that it spans, by the stand's own numbering (R354) -/
  sec0  : Nat
  sec1  : Nat
  /-- where it begins in the first of them -/
  off   : Nat
  /-- it stays in the near tier, in front of later packets for the hold tier (R28) -/
  stay  : Bool
  /-- the ingress stamp of an upstream stand packet (R463, R467) -/
  stamp : Option Nat
  /-- a flow packet of R267: its flow, slice frame and place in the frame -/
  flow  : Option (Nat × Nat × Nat)
  deriving DecidableEq, Repr

/-- A queue as its segments (R343). -/
structure Queue where
  head    : List QPkt
  deep    : List QPkt
  held    : List QPkt
  tail    : List QPkt
  deriving DecidableEq, Repr

/-- A token bucket: its content, negative for debt, and the fraction of its accumulator (R370). -/
structure Bkt where
  b   : Int
  acc : Nat
  deriving DecidableEq, Repr

/-- A meter's two counts and their accumulators (R387). -/
structure Meter where
  tc   : Nat
  tp   : Nat
  accC : Nat
  accP : Nat
  deriving DecidableEq, Repr

/-- The place of a stand on its wheel (R374 to R376): NET, `none` where it has left the wheel until its rate changes, and whether it lies in the
overflow list. -/
structure Wheel where
  net    : Option Nat
  inList : Bool
  deriving DecidableEq, Repr

/-- The ingress kinds of R276. -/
inductive PktKind where
  | uplink | stand | recirc
  deriving DecidableEq, Repr

/-- A packet in a pipeline: kind of its first pass, its bytes, source numbers (lane and first lane of the port, or stand and bough), arrival
time and ingress stamp, the bank stamped on it, and the hash of its first pass. -/
structure PipePkt where
  kind    : PktKind
  bytes   : List Byte
  a       : Nat
  b       : Nat
  tick    : Nat
  clock   : Nat
  stamp   : Nat
  bank    : Nat
  hash    : Nat
  /-- its GCM tag verifies; a packet without one has nothing to verify (R21, R302) -/
  tagOk   : Bool
  deriving DecidableEq, Repr

/-- A fragment-table entry (R282): its key and four port bytes. -/
structure FragEntry where
  key   : List Byte
  ports : List Byte
  age   : Tmr
  deriving DecidableEq, Repr

/-- A shadow-ring entry (R350), with its byte offset in its grove's ring or replay area. -/
structure ShadowEnt where
  queue : Nat
  bytes : List Byte
  tick  : Nat
  addr  : Nat
  deriving DecidableEq, Repr

/-- The open sector of a stand's held packets (R354): its number, how many bytes are in it, the tick of its oldest byte, and the bytes. -/
structure HoldSt where
  next   : Nat
  fill   : Nat
  oldest : Nat
  part   : List Byte
  deriving DecidableEq, Repr

/-- The deep-tier states of R348, in the order of their codes. -/
inductive DeepSt where
  | untrained | active | withdrawing | withdrawn
  deriving DecidableEq, Repr


/-! ### Pipelines and tables (spec files 10 and 11) -/

/-- A learn request (R309): the source key (domain, MAC), the override kind and value of the learned source. -/
structure LearnReq where
  key  : Nat
  kind : Nat
  val  : Nat
  deriving DecidableEq, Repr

/-- A bridging entry (R307): its key, static bit, action index, override kind and value, and its aging watchdog (R312). -/
structure BrEntry where
  key    : Nat
  static : Bool
  act    : Nat
  kind   : Nat
  val    : Nat
  age    : Tmr
  deriving DecidableEq, Repr

/-- A route of an LPM table (R324). -/
structure Route where
  pfx : Nat
  len : Nat
  act : Nat
  deriving DecidableEq, Repr

/-- An entry of the associative memory (R320): its width code, value, mask and side word. -/
structure AscEntry where
  width : Nat
  value : Nat
  mask  : Nat
  side  : Nat
  deriving DecidableEq, Repr

/-- What a finished pass shows the sampler and the slot counters (R593, R596). -/
structure PassRec where
  second  : Bool
  outcome : Nat
  dest    : Nat
  drop    : Option Ctr
  md      : List Byte
  hash    : Nat
  bytes   : List Byte
  tick    : Nat
  clock   : Nat
  deriving DecidableEq, Repr

/-- A pass as parsed (R278 to R286): the packet, whether this is its second pass, its profile, key and metadata block, and its tag count. -/
structure Parsed where
  pkt     : PipePkt
  second  : Bool
  profile : Nat
  key     : List Byte
  md      : List Byte
  tags    : Nat
  deriving DecidableEq, Repr

/-- A pass whose cascade lookup is out on the ring (R326): the pass, the answers that earlier cascade slots of the pass have had, and the core
clock at which the lookup went out. -/
structure CasWait where
  pass    : Parsed
  answers : List (Option RingHit)
  since   : Nat
  deriving DecidableEq, Repr

/-- A pipeline: its ingress buffer, its recirculation queue, its learn FIFO, the pass that waits for the cascade ring, and the last pass completed
and not yet offered to the sampler. -/
structure PipeSt where
  ingress : List PipePkt
  recirc  : List PipePkt
  learn   : List LearnReq
  wait    : Option CasWait
  last    : Option PassRec
  deriving DecidableEq, Repr

/-- A sampler (R595): its event count, the skid while armed, its records and the next sequence number. -/
structure Sampler where
  count : Nat
  armed : Option Nat
  recs  : List (List Nat)
  seq   : Nat
  deriving DecidableEq, Repr

/-! ### Key-store slots (spec file 14) -/

/-- What a key-store slot records beside its secret (R404, R414): usage, length and whether its checksum holds. -/
structure SlotMeta where
  usage : Nat
  len   : Nat
  ok    : Bool
  deriving DecidableEq, Repr

/-! ### The mate (spec file 15) -/

/-- The mate offsets of a grove (R437 to R439), with the phases of the bursts of the current tick. -/
structure MateOfs where
  u       : Int
  w       : Int
  learned : Bool
  phases  : List Int
  sum     : Int
  num     : Nat
  deriving DecidableEq, Repr

/-- The delivered-frame counters of a grove (R430). -/
structure MateDlv where
  d    : Nat
  mark : Nat
  ud   : Nat
  deriving DecidableEq, Repr

/-- A verified upstream packet that the standby holds (R436): its grove, upstream frame and the packet. -/
structure HeldUp where
  grove : Nat
  frame : Nat
  pkt   : PipePkt
  /-- its near buffer: pool, buffer and generation -/
  pool  : Nat
  buf   : Nat
  gen   : Nat
  deriving DecidableEq, Repr

/-- The mate logic. -/
structure Mate where
  /-- 0 none, 1 waiting for the mate's request, 2 for its identity, 3 for its public value, 4 for its confirmation -/
  step      : Nat
  asked     : Bool
  /-- the mate's MATE_GRV_EN, bit g for grove g (R426) -/
  peerGroves : Nat
  scalar    : Nat
  peerPub   : Nat
  frames    : List MirrorFrame
  ofs       : SMap MateOfs
  dlv       : SMap MateDlv
  digests   : SMap Nat
  /-- the boughs whose digests differ at present (R434) -/
  differ    : List Nat
  /-- the role of the mate's last mirror frame -/
  peerActive : Bool
  /-- shadowed packets handed to frames that are not yet fully sent, by grove: the last frame that carries a part, and the tick of admission (R435) -/
  handed    : SMap (List (Nat × Nat))
  bulkEnd   : Bool
  /-- the takeover edge while its witness frames are judged (R444), and the frame of the last mirrored map -/
  tookAt    : Option Nat
  lastMap   : Nat
  /-- the takeover edge whose next eight frames are searched widely (R443) -/
  wideFrom  : Option Nat
  fibreNow  : Bool
  witness   : Bool
  learnFrom : Option Nat
  swapAt    : Option Nat
  swapOk    : Option Bool
  lastDsd   : Option Nat
  revert    : Option Nat
  held      : List HeldUp
  sent      : List MirrorItem
  unpairReq : Bool
  hbOut     : Bool
  deriving DecidableEq, Repr

/-! ### Time (spec file 16) -/

/-- What the served time goes on from within a tick (R457, R461): the core clock, whether the selected domain is set, its value, its freq_adj, the adjustment left with its
rate, and the served offset with its greatest slew. -/
structure TimeBase where
  clock : Nat
  valid : Bool
  t     : Nat
  freq  : Int
  left  : Int
  rate  : Nat
  sigma : Int
  slew  : Nat
  deriving DecidableEq, Repr

/-- The selection as it stood before an edge judged it (R460, R475): the domain, the offset, and the flags that the judgement may set. -/
structure SelBack where
  served   : Nat
  sigma    : Int
  holdover : Nat
  switched : Nat
  deriving DecidableEq, Repr

/-- A time domain (R457): whether it is set, its value in units of 1/(48·10^12) ns, and the adjustment not yet applied. -/
structure TimeDom where
  set  : Bool
  t    : Nat
  left : Int
  deriving DecidableEq, Repr

/-- A capture record (R465). -/
structure CapRec where
  time   : Nat
  port   : Nat
  egress : Bool
  ty     : Nat
  dom    : Nat
  seq    : Nat
  src    : List Byte
  deriving DecidableEq, Repr

/-- An injected message that has not left (R466). -/
structure TxMsg where
  port    : Nat
  onestep : Bool
  bytes   : List Byte
  deriving DecidableEq, Repr

/-! ### Clocks, power, image (spec files 17 and 18) -/

/-- Where the device stands between PORST_N and running (R500). -/
inductive Phase where
  /-- PORST_N is low, or the device is about to start -/
  | held
  /-- started: step 7 has been reached -/
  | run
  /-- gated (R496) -/
  | standby
  deriving DecidableEq, Repr

/-- A running flash command or check (R522). -/
inductive FlashOp where
  | read (addr len : Nat)
  | program (addr : Nat) (bytes : List Byte)
  | erase (addr : Nat)
  | check (which : Nat)
  deriving DecidableEq, Repr

/-- A running key-engine command (R424): opcode, target, length, the flag bits of its command word, and its master. -/
structure KeyCmd where
  op     : Nat
  target : Nat
  len    : Nat
  aad    : Nat
  master : Nat
  deriving DecidableEq, Repr

/-- A running direct-window command (R336). -/
structure WinCmd where
  op     : Nat
  addr   : Nat
  master : Nat
  deriving DecidableEq, Repr

/-! ### Interrupts (spec file 20) -/

/-- A source in service (R572): the vector that claimed it, whether it was asserted when it was last looked at, and whether it has de-asserted by other
means than a write of its target (R575). -/
structure InServ where
  vec      : Nat
  last     : Bool
  released : Bool
  deriving DecidableEq, Repr

/-- A vector (R571 to R575): a message outstanding, a claim since the last message, its MSI-X mask, and its pending bit in the PBA. -/
structure VecSt where
  out     : Bool
  claimed : Bool
  masked  : Bool
  pba     : Bool
  deriving DecidableEq, Repr

/-- What the block sends out. -/
inductive Output where
  | readData (master addr value : Nat)
  | msix (function vector : Nat)
  | frame (g : Nat) (fr : DsFrame) (early : Int)
  | burstEn (g : Nat) (high : List (Int × Int))
  | rssi (g : Nat) (from_ to_ : Int)
  | uplink (port : Nat) (bytes : List Byte)
  | uplinkCut (port : Nat)
  | plaxonMirror (m : MirrorFrame)
  | plaxonPair (m : PairMsg)
  | ringKey (k : RingKey)
  | ringResult (r : Option RingHit)
  | descDone (ring at_ : Nat) (words : List Nat) (buf : Nat) (recs : List (Nat × TblRec))
  | lineMsg (g n : Nat) (bytes : List Byte)
  | ploam (g : Nat) (p : Ploam)
  | omci (stand : Nat) (bytes : List Byte)
  | hold (stand bytes : Nat)
  deriving DecidableEq, Repr


/-! ### The state -/

/-- What software configures: whether the stand-alone defaults were applied at the start (R519), the active words of RW and RWS fields that differ from the
default or reset words, the staging area (R36) and its per-master records (R38). -/
structure Cfg where
  alone  : Bool
  regs   : RegFile
  staged : List Staged
  stages : SMap StageRec
  deriving DecidableEq, Repr

/-- The device's own state. -/
structure Dev where
  phase     : Phase
  /-- the superframe counter (R40) -/
  sfc       : Nat
  /-- the core clock within the tick (R30) -/
  clock     : Nat
  /-- the model's own: the core clocks that have passed since reset, by which acceptances are ordered (R55) -/
  cyc       : Nat
  /-- the RO and W1C fields that have no other home -/
  sts       : RegFile
  /-- the counters, modulo 2^64 (R586) -/
  cnt       : SMap Nat
  /-- the counts of events that no command delivers, up to the last commit edge (R539, R544, R546, R358, R359) -/
  amb       : SMap Nat
  /-- the model's own: how many free values the device has drawn -/
  free      : Nat
  timers    : SMap Tmr
  /-- lengths of runs of consecutive counting ticks, and what counted in the current tick (R151) -/
  runs      : SMap Nat
  hits      : SMap Nat
  /-- high words latched per master (R9) -/
  latches   : SMap Nat
  /-- the model's own: what the block has sent, newest first -/
  outbox    : List Output
  life      : SMap Life
  rng       : SMap Ranging
  mail      : SMap Mail
  keys      : SMap StandKeys
  boughs    : SMap Bough
  groves    : SMap Grove
  /-- the keep store (R154, R41, R523, R404): records, superframe checkpoint, hmac_required, root key, and the slots with their ceilings -/
  keep      : SMap KeepRec
  keepSfc   : Option Nat
  keepHmac  : Nat
  slots     : SMap Nat
  slotMeta  : SMap SlotMeta
  ceil      : SMap Nat
  /-- the last counter verified on a bough under an epoch (R402) -/
  lastCtr   : SMap Nat
  keng      : KeyEngine
  keyCmd    : Option KeyCmd
  shared    : SMap SharedKey
  slices    : SMap SliceSt
  /-- the connection pages A and B (R255) -/
  conns     : SMap (List Conn)
  /-- the edge of the last page swap (R256) -/
  slcSwap   : Option Nat
  pgs       : SMap Pg
  flows     : SMap FlowSt
  pipes     : SMap PipeSt
  frag      : SMap FragEntry
  bridge    : SMap BrEntry
  deferred  : List LearnReq
  /-- the model's own: no commit edge has passed since the bridging lock was last held (R317) -/
  ageHold   : Bool
  /-- shadowed packets that a takeover could not move back yet for want of a near buffer, oldest first (R341, R443) -/
  replayWait : SMap (List ShadowEnt)
  /-- the pipeline at which the learn engine's rotation goes on (R309) -/
  learnPtr  : Nat
  lpm4      : List Route
  lpm6      : List Route
  asc       : SMap AscEntry
  /-- the descriptor ring at which the table engine's rotation goes on (R313) -/
  ringPtr   : Nat
  /-- the masters that hold table locks (R316) -/
  locks     : SMap Nat
  winCmd    : Option WinCmd
  /-- CAS_MI is up (R328) -/
  casMi     : Bool
  bufs      : SMap Buf
  caches    : SMap (List Nat)
  queues    : SMap Queue
  /-- the next number of a packet held -/
  uid       : Nat
  /-- replica lists of multicast boughs (R379): queue and packet number -/
  reps      : SMap (List (Nat × Nat))
  hold      : SMap HoldSt
  /-- the sector of the held area that each sector of a stand's held packets has: the stand's number times 2^32 and its own numbering (R354) -/
  heldAt    : SMap Nat
  /-- a port of the hold tier has left since the last edge (R357) -/
  holdFell  : Bool
  /-- the queue at which the spills go on (R347) -/
  spillPtr  : Nat
  /-- the stand at which the moves into the hold tier go on (R353) -/
  holdPtr   : Nat
  /-- the two XTS keys of the tier engines, 0 the deep tier's and 1 the hold tier's (R413) -/
  tierKeys  : SMap (Nat × Nat)
  /-- what the HBM2E holds, by the byte address of a 256-byte line, and what the CXL memory holds, by sector: encrypted (R349, R355) -/
  hbm       : SMap (List Byte)
  cxl       : SMap (List Byte)
  /-- budgets used in the current tick (R347, R353, R309) -/
  used      : SMap Nat
  /-- HBM2E training runs, and its success waits for the edge (R359) -/
  training  : Bool
  trained   : Bool
  shadow    : SMap (List ShadowEnt)
  replay    : SMap (List ShadowEnt)
  bkts      : SMap Bkt
  restAcc   : Nat
  meters    : SMap Meter
  wheels    : SMap Wheel
  samplers  : SMap Sampler
  mate      : Mate
  domA      : TimeDom
  domB      : TimeDom
  sigma     : Int
  edgeTime  : Nat
  /-- the served time at the edge before -/
  prevEdge  : Nat
  /-- time_valid at the last edge (R477) -/
  edgeSet   : Bool
  /-- the last edge and the changes of the selected domain in its tick, newest first (R463, R475) -/
  bases     : List TimeBase
  selBack   : Option SelBack
  /-- where the last edge of TICK_IN or of the mate came, as a core clock of the tick (R51) -/
  srcEdge   : Option Nat
  /-- step 7 of the present edge is still to come (R32) -/
  edgeOpen  : Bool
  caps      : List CapRec
  txMsg     : Option TxMsg
  /-- the core clock since tick 0 at which the packet that a port is sending has left it (R550) -/
  outgoing  : SMap Nat
  /-- clock sources lost at present (R485) -/
  srcLost   : List Nat
  /-- outputs held safe (R488): 0 all of them, 1 + q the uplink lanes of quadrant q, 5 + p Plaxon port p -/
  safeOut   : List Nat
  /-- selectors whose outgoing clock has not acknowledged (R487), numbered as `safeOut` -/
  muxWait   : List Nat
  resumeReq : Bool
  /-- what start-up found strapped and fitted (R499) -/
  board     : Option Straps
  flash     : SMap Byte
  flashOp   : Option FlashOp
  inServ    : SMap InServ
  /-- sources saved pending on entry to STANDBY and not yet claimed (R497) -/
  savedPend : List Nat
  vecs      : SMap VecSt
  /-- functions with MSI-X enabled, with the function mask set, and whether VF Enable is set (R557) -/
  msixEn    : List Nat
  funcMask  : List Nat
  vfEn      : Bool
  deriving DecidableEq, Repr

/-- The state of the block. -/
structure State where
  pending : List Instr
  cfg     : Cfg
  dev     : Dev
  deriving DecidableEq, Repr

/-- The faults of the block. The spec gives it none that stops it: every command that the rules refuse is answered with a status, and
no command of this model raises a fault. Safe. -/
inductive Fault where
  /-- Raised by no command: kept so that the type is not empty. Safe. -/
  | none
  deriving DecidableEq, Repr

/-- The refusals of the block. -/
inductive Refusal where
  /-- Raised by a command that the model does not give a meaning. Safe. -/
  | notModelled (mnemonic : String)
  deriving DecidableEq, Repr

/-- The configuration after reset: every register at its reset word, nothing staged (R59 and the other register tables). -/
def Cfg.reset : Cfg := { alone := false, regs := RegFile.reset, staged := [], stages := [] }

/-- A time domain after reset: unset (R457). -/
def TimeDom.reset : TimeDom := { set := false, t := 0, left := 0 }

/-- The mate logic after reset: unpaired (R454). -/
def Mate.reset : Mate :=
  { step := 0, asked := false, peerGroves := 0, scalar := 0, peerPub := 0, frames := [], ofs := [], dlv := [], digests := [], differ := [], peerActive := false, handed := [],
    bulkEnd := false,
    tookAt := none, lastMap := 0, wideFrom := none, fibreNow := false, witness := false, learnFrom := none, swapAt := none, swapOk := none,
    lastDsd := none, revert := none, held := [], sent := [], unpairReq := false, hbOut := false }

/-- The key engine after reset: nothing queued. -/
def KeyEngine.reset : KeyEngine := { queue := [], sealCtr := 0, sealCeil := 0 }

/-- The device after reset, held before its start-up sequence, with an empty keep store: a device that has never run (R41). -/
def Dev.reset : Dev :=
  { phase := .held, sfc := 0, clock := 0, cyc := 0, sts := RegFile.reset, cnt := [], amb := [], free := 0, timers := [], runs := [], hits := [],
    latches := [], outbox := [], life := [], rng := [], mail := [], keys := [], boughs := [], groves := [], keep := [],
    keepSfc := none, keepHmac := 0, slots := [], slotMeta := [], ceil := [], lastCtr := [], keng := KeyEngine.reset, keyCmd := none, shared := [],
    slices := [], conns := [], slcSwap := none, pgs := [], flows := [], pipes := [], frag := [], bridge := [], deferred := [], ageHold := false, replayWait := [], learnPtr := 0, lpm4 := [], lpm6 := [],
    asc := [], ringPtr := 0, locks := [], winCmd := none, casMi := false, bufs := [], caches := [], queues := [], uid := 0, reps := [], hold := [], heldAt := [], holdFell := false, spillPtr := 0, holdPtr := 0, tierKeys := [], hbm := [], cxl := [], used := [], training := false, trained := false, shadow := [],
    replay := [], bkts := [], restAcc := 0, meters := [], wheels := [], samplers := [], mate := Mate.reset, domA := TimeDom.reset,
    domB := TimeDom.reset, sigma := 0, edgeTime := 0, prevEdge := 0, edgeSet := false, bases := [], selBack := none, srcEdge := none, edgeOpen := false, caps := [], txMsg := none, outgoing := [], srcLost := [], safeOut := [], muxWait := [],
    resumeReq := false, board := none, flash := [],
    flashOp := none, inServ := [], savedPend := [], vecs := [], msixEn := [], funcMask := [], vfEn := false }

/-- The block right after reset: PORST_N has been asserted and START_UP has not run; nothing is queued. -/
def State.reset : State := { pending := [], cfg := Cfg.reset, dev := Dev.reset }

end Sys2Proof.Machine
end

