-- ==== Sys2Proof/Machine/Ops.lean ====
section
/-!
DEFINITION. The named operations that every meaning uses: fields of the two register files, counters, flags, timers (R46 to R48), runs of
consecutive ticks (R151), free values, outputs, the served time (R457 to R461), and the update of one entry of a sparse map.
-/

namespace Sys2Proof.Machine

/-! ### Outcomes -/

/-- The outcome of every command that goes on. -/
abbrev Outcome := Host.Outcome State Fault Refusal

/-- The state with another device part. -/
def State.withDev (s : State) (d : Dev) : State := { s with dev := d }

/-- The state with another configuration. -/
def State.withCfg (s : State) (c : Cfg) : State := { s with cfg := c }

/-- A command of the device itself: it reads the configuration and changes the device only. -/
def onDev (f : Cfg → Dev → Dev) (s : State) : Outcome := .next (s.withDev (f s.cfg s.dev))

/-! ### Register files -/

/-- A configuration field (an RW or RWS field) in force. -/
def Cfg.get (c : Cfg) (x : Fld) (i : Nat) : Nat := c.regs.fld (cfgBase c.alone) x i

/-- A configuration field read as a flag. -/
def Cfg.flag (c : Cfg) (x : Fld) (i : Nat) : Bool := c.get x i == 1

/-- Set a configuration field. -/
def Cfg.set (c : Cfg) (x : Fld) (i v : Nat) : Cfg := { c with regs := c.regs.setFld (cfgBase c.alone) x i v }

/-- A whole configuration word. -/
def Cfg.word (c : Cfg) (r : Reg) (i : Nat) : Nat := c.regs.word (cfgBase c.alone) r i

/-- Set a whole configuration word. -/
def Cfg.setWord (c : Cfg) (r : Reg) (i v : Nat) : Cfg := { c with regs := c.regs.setWord (cfgBase c.alone) r i v }

/-- A status field (RO or W1C). -/
def Dev.get (d : Dev) (x : Fld) (i : Nat) : Nat := d.sts.fld stsReset x i

/-- A status field read as a flag. -/
def Dev.flag (d : Dev) (x : Fld) (i : Nat) : Bool := d.get x i == 1

/-- Set a status field. -/
def Dev.set (d : Dev) (x : Fld) (i v : Nat) : Dev := { d with sts := d.sts.setFld stsReset x i v }

/-- Set a status flag. -/
def Dev.raise (d : Dev) (x : Fld) (i : Nat) : Dev := d.set x i 1

/-- Set one bit of a status field, bit 0 being the field's lowest. -/
def Dev.raiseBit (d : Dev) (x : Fld) (i bit : Nat) : Dev := d.set x i (d.get x i ||| 2 ^ bit)

/-- A status field that is a signed number (two's complement in the field's width). -/
def Dev.setInt (d : Dev) (x : Fld) (i : Nat) (v : Int) : Dev :=
  d.set x i (v % (2 ^ x.width : Int)).toNat

/-- A 48-bit number kept as a low and a high register. -/
def Dev.set48 (d : Dev) (lo hi : Fld) (i v : Nat) : Dev := (d.set lo i (v % 2 ^ 32)).set hi i (v / 2 ^ 32)

/-- A signed field of a given width. -/
def signed (width v : Nat) : Int := if 2 ^ (width - 1) ≤ v then (v : Int) - 2 ^ width else v

/-! ### Counters, outputs, free values -/

/-- Add to a counter (R586: modulo 2^64). -/
def Dev.count (d : Dev) (f : Fam) (c : Ctr) (i : Nat) (n : Nat := 1) : Dev :=
  { d with cnt := d.cnt.setD (ctrKey f c i) ((d.cnt.getD (ctrKey f c i) 0 + n) % 2 ^ 64) 0 }

/-- The value of a counter. -/
def Dev.counter (d : Dev) (f : Fam) (c : Ctr) (i : Nat) : Nat := d.cnt.getD (ctrKey f c i) 0

/-- The counters of the device family whose events no command delivers (R358, R359, R539, R544): corrected bit errors, transmit taps at their limit per lane,
and fillers per Plaxon port. -/
def ambientKeys : List Nat :=
  [ctrKey .device .nearCe 0, ctrKey .device .deepCe 0] ++ (List.range 64).map (ctrKey .device .txEqLimit)
    ++ (List.range 2).flatMap (fun p => [ctrKey .device .fillersDeleted p, ctrKey .device .fillersInserted p])

/-- Send something out. -/
def Dev.emit (d : Dev) (o : Output) : Dev := { d with outbox := o :: d.outbox }

/-- Draw a free value below a bound: nothing constrains it. -/
def Dev.draw (d : Dev) (bound : Nat) : Nat × Dev :=
  (Config.freeValue d.free % bound, { d with free := d.free + 1 })

/-! ### Sparse maps -/

/-- Change the value of one key, `d` where none is listed. -/
def SMap.upd {α : Type} (m : SMap α) (k : Nat) (d : α) (f : α → α) : SMap α := m.put k (f (m.getD k d))

/-- Change every value of a map. -/
def SMap.mapVals {α : Type} (m : SMap α) (f : Nat → α → α) : SMap α := m.map (fun p => (p.1, f p.1 p.2))

/-- Put a value, or take the key out. -/
def SMap.setOpt {α : Type} (m : SMap α) (k : Nat) : Option α → SMap α
  | some v => m.put k v
  | none => m.erase k

/-! ### Timers (R46 to R48) -/

/-- The key of a timer. -/
def timerKey (k : TimerKind) (i : Nat) : Nat := k.ctorIdx * 2 ^ 22 + i

/-- Watchdogs restart when an arrival satisfies them; the other timers are one-shot (R46). -/
def TimerKind.watchdog : TimerKind → Bool
  | .lost => true
  | .poll => true
  | .lock => true
  | .plaxonSilent => true
  | .pinSilent => true
  | .syncA => true
  | .syncB => true
  | .alignSrc => true
  | _ => false

/-- Arm a timer at the edge in progress. -/
def Dev.armNow (d : Dev) (k : TimerKind) (i : Nat) : Dev :=
  { d with timers := d.timers.put (timerKey k i) { c := 0, run := true, arming := false, arr := false } }

/-- Arm a timer at the next edge (R48). -/
def Dev.armNext (d : Dev) (k : TimerKind) (i : Nat) : Dev :=
  { d with timers := d.timers.put (timerKey k i) { c := 0, run := false, arming := true, arr := false } }

/-- Disarm a timer. -/
def Dev.disarm (d : Dev) (k : TimerKind) (i : Nat) : Dev :=
  { d with timers := d.timers.erase (timerKey k i) }

/-- Whether a timer is armed or about to be. -/
def Dev.armed (d : Dev) (k : TimerKind) (i : Nat) : Bool := (d.timers.get? (timerKey k i)).isSome

/-- Record a qualifying arrival for a timer, if it is armed. -/
def Dev.arrive (d : Dev) (k : TimerKind) (i : Nat) : Dev :=
  match d.timers.get? (timerKey k i) with
  | some t => { d with timers := d.timers.put (timerKey k i) { t with arr := true } }
  | none => d

/-- A timer has expired when it runs and its count has reached its length (R46). -/
def Tmr.expired (t : Tmr) (len : Nat) : Bool := t.run && decide (len ≤ t.c)

/-- Whether a timer has expired at the edge in progress. -/
def Dev.expired (d : Dev) (k : TimerKind) (i len : Nat) : Bool :=
  match d.timers.get? (timerKey k i) with
  | some t => t.expired len
  | none => false

/-- One edge of a timer (R46, R48): none where a satisfied one-shot timer disarms. -/
def Tmr.edge (t : Tmr) (watchdog : Bool) : Option Tmr :=
  if t.arming then some { c := 0, run := true, arming := false, arr := false }
  else if t.arr then (if watchdog then some { t with c := 0, arr := false } else none)
  else some { t with c := t.c + 1 }

/-- The kind of a timer key. -/
def timerWatchdog (key : Nat) : Bool :=
  [TimerKind.lost, .poll, .lock, .plaxonSilent, .pinSilent, .syncA, .syncB, .alignSrc].any
    (fun k => k.ctorIdx == key / 2 ^ 22)

/-- One edge of every timer. -/
def timersEdge (ts : SMap Tmr) : SMap Tmr :=
  ts.filterMap (fun p => (p.2.edge (timerWatchdog p.1)).map (fun t => (p.1, t)))

/-! ### Runs of consecutive counting ticks (R151) -/

/-- What is counted tick by tick. -/
inductive RunKind where
  | preset | pred | queue | offset | trim | rx | phase | light | smpOrder | srcReady | linkHold | window | los | phaseSeen | srcWin | srcBad
  deriving DecidableEq, Repr

/-- The key of a run. -/
def runKey (k : RunKind) (i : Nat) : Nat := k.ctorIdx * 2 ^ 22 + i

/-- The length of a run. -/
def Dev.run (d : Dev) (k : RunKind) (i : Nat) : Nat := d.runs.getD (runKey k i) 0

/-- Set the length of a run. -/
def Dev.setRun (d : Dev) (k : RunKind) (i n : Nat) : Dev := { d with runs := d.runs.setD (runKey k i) n 0 }

/-- Mark the current tick: 1 counts, 2 resets, 3 restarts the run whatever else the tick brings. A mark that counts is kept against one that resets. -/
def Dev.mark (d : Dev) (k : RunKind) (i v : Nat) : Dev :=
  if d.hits.getD (runKey k i) 0 = 1 ∨ d.hits.getD (runKey k i) 0 = 3 then d else { d with hits := d.hits.put (runKey k i) v }

/-- Close the marks of the tick: a counting tick lengthens its run, a resetting one ends it, a tick with no mark leaves it. -/
def Dev.closeRuns (d : Dev) : Dev :=
  { d with
    runs := d.hits.foldl (fun r p => if p.2 = 1 then r.setD p.1 (r.getD p.1 0 + 1) 0 else r.erase p.1) d.runs
    hits := [] }

/-! ### The served time (R457, R461) -/

/-- Units of a nanosecond in which times are held: one unit is 1/(48·10^12) ns, so that every rate of R457, R458 and R461 is a whole number of units
per core clock. -/
def nsUnits : Nat := 48000000000000

/-- Units of a second. -/
def secUnits : Nat := nsUnits * 1000000000

/-- The register index of a domain: 0 A, 1 B. -/
def Dev.dom (d : Dev) (x : Nat) : TimeDom := if x = 0 then d.domA else d.domB

/-- Set a domain. -/
def Dev.setDom (d : Dev) (x : Nat) (t : TimeDom) : Dev :=
  if x = 0 then { d with domA := t } else { d with domB := t }

/-- How far an adjustment moves in a number of core clocks at a rate in ns per second: towards its amount, never past it. -/
def slew (left : Int) (rate clocks : Nat) : Int :=
  let m : Int := ((rate * 32000 * clocks : Nat) : Int)
  if 0 ≤ left then min left m else max left (-m)

/-- A domain after some core clocks (R457, R458). -/
def TimeDom.advance (t : TimeDom) (freq : Int) (rate clocks : Nat) : TimeDom :=
  if t.set then
    let mv := slew t.left rate clocks
    { t with t := ((t.t : Int) + 32 * (1000000000000 + freq) * clocks + mv).toNat, left := t.left - mv }
  else t

/-- Let some core clocks pass: for both domains and the served offset. -/
def Dev.passTime (c : Cfg) (clocks : Nat) (d : Dev) : Dev :=
  let rate := fun x => c.get Fields.TIME_X_ADJ_RATE_adj_rate x
  let freq := fun x => signed 32 (c.get Fields.TIME_X_FREQ_freq_adj x)
  { d with
    cyc := d.cyc + clocks
    domA := d.domA.advance (freq 0) (rate 0) clocks
    domB := d.domB.advance (freq 1) (rate 1) clocks
    sigma := d.sigma - slew d.sigma (c.get Fields.TIME_CTRL_slew_max 0) clocks }

/-- How far an adjustment moves in `num / den` core clocks. -/
def slewOver (left : Int) (rate : Nat) (num den : Int) : Int :=
  let m : Int := ((rate * 32000 : Nat) : Int) * num / den
  if 0 ≤ left then min left m else max left (-m)

/-- The selected domain (R460). -/
def Dev.served (d : Dev) : Nat := d.get Fields.TIME_STATUS_served 0

/-- The served time S = T_sel + σ in units, and zero while the selected domain is unset (R460, R462). -/
def Dev.servedTime (d : Dev) : Nat :=
  if (d.dom d.served).set then (((d.dom d.served).t : Int) + d.sigma).toNat else 0

/-- A stamp: a time truncated to the 16 bits of f (R457). -/
def stampOf (t : Nat) : Nat := t - t % (nsUnits / 65536)

/-- What the served time goes on from now. -/
def timeBase (c : Cfg) (d : Dev) : TimeBase :=
  let x := d.served
  { clock := d.clock, valid := (d.dom x).set, t := (d.dom x).t, freq := signed 32 (c.get Fields.TIME_X_FREQ_freq_adj x), left := (d.dom x).left
    rate := c.get Fields.TIME_X_ADJ_RATE_adj_rate x, sigma := d.sigma, slew := c.get Fields.TIME_CTRL_slew_max 0 }

/-- The served time goes on from here in another way than before. -/
def noteTime (c : Cfg) (d : Dev) : Dev := { d with bases := timeBase c d :: d.bases }

/-- The served time `num / den` core clocks behind a base (R457, R458, R461). -/
def TimeBase.later (b : TimeBase) (num den : Int) : Nat :=
  if b.valid then
    ((b.t : Int) + 32 * (1000000000000 + b.freq) * num / den + slewOver b.left b.rate num den + b.sigma - slewOver b.sigma b.slew num den).toNat
  else 0

/-- The served time of an instant of the tick, `num / den` core clocks behind its edge: it goes on from the last change before it (R457, R463). -/
def tickTime (d : Dev) (num den : Nat) : Nat :=
  match d.bases.find? (fun b => decide (b.clock * den ≤ num)) with
  | some b => b.later ((num : Int) - (b.clock * den : Nat)) den
  | none => 0

/-- Units of a sixteenth of a nanosecond. -/
def sixteenth : Nat := 3000000000000

/-- The ingress stamp of a frame that arrives now on the port of a first lane (R463, R462). -/
def ingressStamp (c : Cfg) (lane : Nat) (d : Dev) : Nat := stampOf (d.servedTime - c.get Fields.TIME_LANE_DLY_rx_dly lane * sixteenth)

/-- The egress stamp of a frame that leaves now (R463, R462). -/
def egressStamp (c : Cfg) (lane : Nat) (d : Dev) : Nat :=
  if (d.dom d.served).set then stampOf (d.servedTime + c.get Fields.TIME_LANE_DLY_tx_dly lane * sixteenth) else 0

/-- Seconds of a time. -/
def timeSec (t : Nat) : Nat := t / secUnits

/-- Nanoseconds of a time. -/
def timeNs (t : Nat) : Nat := t % secUnits / nsUnits

/-- The 16-bit fraction of a nanosecond of a time, truncated (R457). -/
def timeFrac (t : Nat) : Nat := t % nsUnits * 65536 / nsUnits

/-! ### The tick -/

/-- Core clocks of a tick (R30). -/
def tickClocks : Nat := 187500

/-- The core clock that numbers every clock since tick 0. -/
def Dev.now (d : Dev) : Nat := d.sfc * tickClocks + d.clock

/-- The region of a core clock (R31). -/
def regionOf (clock : Nat) : Nat :=
  if clock < 1024 then 0 else if clock < 150000 then 1 else if clock < 165000 then 2 else if clock < 172500 then 3 else 4

/-- Let the core clock run on to a clock of the same tick; a clock already past stands. -/
def Dev.runTo (c : Cfg) (clk : Nat) (d : Dev) : Dev :=
  if d.clock < clk then { Dev.passTime c (clk - d.clock) d with clock := clk } else d

/-- Whether the device runs: start-up has reached step 7 and it is not gated. -/
def Dev.running (d : Dev) : Bool := d.phase == .run && d.flag Fields.TICK_STATUS_running 0

/-- Every output is held safe (R488). -/
def coreSafe (d : Dev) : Bool := d.safeOut.contains 0

/-! ### Numbers of the hierarchy (R5 to R8) -/

/-- The grove of a stand id. -/
def groveOf (i : Nat) : Nat := i / 256

/-- The stand-in-grove of a stand id. -/
def inGrove (i : Nat) : Nat := i % 256

/-- The stand id of a stand-in-grove. -/
def standId (g s : Nat) : Nat := g * 256 + s

end Sys2Proof.Machine
end

