-- ==== Sys2Proof/Machine/Buffers.lean ====
section
/-!
DEFINITION. Bindings of boughs, multicast membership, buffer pools (R338 to R342), queues and their segments (R343), flushing (R27), and the
held area (R352 to R354).
-/

namespace Sys2Proof.Machine

/-! ### Bindings and membership -/

/-- The registers of one kind that the file lists, as (index, word) in ascending index. -/
def Cfg.cellsOf (c : Cfg) (r : Reg) : List (Nat × Nat) :=
  c.regs.cells.filterMap (fun p => if p.1 / 2 ^ 22 = r.id then some (p.1 % 2 ^ 22, p.2) else none)

/-- The registers of one kind that hold other words than those after reset, or may, as (index, word) in ascending index. -/
def Cfg.listed (c : Cfg) (r : Reg) : List (Nat × Nat) :=
  if c.alone && (aloneWord r 0).isSome then
    (List.range 16384).map (fun i => (i, c.word r i)) ++ (c.cellsOf r).filter (fun p => decide (16384 ≤ p.1))
  else c.cellsOf r

/-- The stand that a bough is bound to (R193). -/
def standOfBough (c : Cfg) (b : Nat) : Option Nat :=
  if c.flag Fields.BGH_BIND_bound b then some (c.get Fields.BGH_BIND_stand b) else none

/-- The bound boughs, in ascending bough id. -/
def boundBoughs (c : Cfg) : List Nat :=
  (c.listed .BGH_BIND).filterMap (fun p => if c.flag Fields.BGH_BIND_bound p.1 then some p.1 else none)

/-- The boughs that may be bound to the stands from `lo` on, `n` of them, in ascending bough id: those whose binding is listed, and those that the stand-alone
defaults bind to these stands. -/
def boughsNear (c : Cfg) (lo n : Nat) : List Nat :=
  let bs := (c.cellsOf .BGH_BIND).map Prod.fst
  bs.filter (fun b => decide (b < lo)) ++ (List.range n).map (fun k => lo + k) ++ bs.filter (fun b => decide (lo + n ≤ b))

/-- The boughs bound to a stand. -/
def boughsOf (c : Cfg) (i : Nat) : List Nat := (boughsNear c i 1).filter (fun b => standOfBough c b == some i)

/-- The boughs bound to the stands of a grove. -/
def boughsOfGrove (c : Cfg) (g : Nat) : List Nat := (boughsNear c (g * 256) 256).filter (fun b => (standOfBough c b).map (· / 256) == some g)

/-- The bough index of a bough within its stand. -/
def boughIdx (c : Cfg) (b : Nat) : Nat := c.get Fields.BGH_BIND_bough_idx b

/-- The bough of a stand with a bough index. -/
def boughAt (c : Cfg) (i idx : Nat) : Option Nat := (boughsOf c i).find? (fun b => boughIdx c b == idx)

/-- The first multicast bough (R6). -/
def mcBase : Nat := 65024

/-- The member bit of a stand for a multicast group (R190). -/
def memberBit (c : Cfg) (i grp : Nat) : Bool := (c.word .STD_MCAST (i * 16 + grp / 32)).testBit (grp % 32)

/-- The lifecycle of a stand that has none listed: ABSENT. -/
def Life.init : Life :=
  { st := .absent, lastTrans := none, cmds := [], discEdge := 0, deregMsg := false, serial := 0, rest := [], wake := 0 }

/-- The lifecycle record of a stand. -/
def Dev.lifeOf (d : Dev) (i : Nat) : Life := d.life.getD i Life.init

/-- The state of a stand. -/
def Dev.st (d : Dev) (i : Nat) : StandSt := (d.lifeOf i).st

/-- Change the lifecycle record of a stand. -/
def Dev.updLife (d : Dev) (i : Nat) (f : Life → Life) : Dev := { d with life := d.life.upd i Life.init f }

/-- The stands of a grove that the device lists. -/
def Dev.standsOf (d : Dev) (g : Nat) : List Nat :=
  (d.life.map Prod.fst).filter (fun i => groveOf i == g)

/-- A GROUP_SET of a group that waits for its frame. -/
def LineMsg.setsGroup (m : LineMsg) (stand grp : Nat) : Bool :=
  m.ty == 0x0A && m.stand == stand && m.body.take 2 == toBytesBE 2 grp

/-- A stand's membership of a group on the line (R185): its member bit as last announced, unchanged until the GROUP_SET that changes it has been placed. -/
def lineMember (d : Dev) (i grp : Nat) : Bool :=
  let queued := match d.groves.get? (groveOf i) with | some x => x.msgQ ++ x.waiting | none => []
  match queued.find? (fun m => m.setsGroup (inGrove i) grp) with
  | some m => m.body.getD 2 0#8 == 0#8
  | none => match d.keys.get? i with | some k => k.joined.contains grp | none => false

/-- Whether a grove has an ACTIVE or RESTING member of a group (R185, R379). -/
def groupOnGrove (_c : Cfg) (d : Dev) (grp g : Nat) : Bool :=
  (d.standsOf g).any (fun i => (d.st i == .active || d.st i == .resting) && lineMember d i grp)

/-! ### Pools -/

/-- The buffer size of a pool (R338). -/
def poolSize (p : Nat) : Nat := if p = 0 then 256 else if p = 1 then 1024 else if p = 2 then 4096 else 16384

/-- The smallest pool whose buffers hold a length (R338). -/
def poolFor (len : Nat) : Nat := if len ≤ 256 then 0 else if len ≤ 1024 then 1 else if len ≤ 4096 then 2 else 3

/-- The buffers of a pool in a tier, 0 near and 1 deep (R339). -/
def poolCount (c : Cfg) (tier p : Nat) : Nat :=
  (if tier = 0 then c.get Fields.BUF_POOL_NEAR_near_mib p * 2 ^ 20
   else c.get Fields.BUF_POOL_DEEP_deep_256m p * 2 ^ 28) / poolSize p

/-- The key of a buffer. -/
def bufKey (tier p b : Nat) : Nat := (tier * 4 + p) * 2 ^ 24 + b

/-- The key of a cache (R340). -/
def cacheKey (tier p req : Nat) : Nat := (tier * 4 + p) * 64 + req

/-- A buffer. -/
def Dev.buf (d : Dev) (tier p b : Nat) : Buf := d.bufs.getD (bufKey tier p b) { alloc := false, gen := 0 }

/-- The allocated buffers of a pool in a tier. -/
def Dev.allocated (d : Dev) (tier p : Nat) : List Nat :=
  d.bufs.filterMap (fun x => if x.1 / 2 ^ 24 = tier * 4 + p ∧ x.2.alloc then some (x.1 % 2 ^ 24) else none)

/-- A cache of free buffers. -/
def Dev.cache (d : Dev) (tier p req : Nat) : List Nat := d.caches.getD (cacheKey tier p req) []

/-- The free buffers of a pool that lie in caches. -/
def Dev.cached (d : Dev) (tier p : Nat) : List Nat :=
  d.caches.flatMap (fun x => if x.1 / 64 = tier * 4 + p then x.2 else [])

/-- The budgets of a tick (R347, R353, R309). -/
def usedDeepWrite : Nat := 0
/-- The read budget of the deep tier. -/
def usedDeepRead : Nat := 1
/-- The write budget of the hold tier. -/
def usedHoldWrite : Nat := 2
/-- The read budget of the hold tier. -/
def usedHoldRead : Nat := 3
/-- The requests that the learn engine takes from the FIFOs. -/
def usedLearn : Nat := 4
/-- The requests that the learn engine takes to the table. -/
def usedTable : Nat := 5

/-- What is used of a budget. -/
def Dev.usedOf (d : Dev) (k : Nat) : Nat := d.used.getD k 0

/-- Use some of a budget. -/
def Dev.use (d : Dev) (k n : Nat) : Dev := { d with used := d.used.upd k 0 (· + n) }

/-- Bytes that an entry of a tier's free ring costs the deep tier's budgets (R347): 4 where the ring lies in the HBM2E (R339). The deep rings always lie there,
the near ones unless they are on die (R340). -/
def Dev.ringCost (d : Dev) (tier : Nat) : Nat := if tier = 1 || (tier == 0 && d.get Fields.BUF_DEEP_STATUS_rings_on_die 0 == 0) then 4 else 0

/-- The traffic of one entry of a tier's free ring. What exceeds the budget of its tick is served in the next one (R347; DESIGN CHOICE, log 89). -/
def Dev.ringTraffic (d : Dev) (tier k : Nat) : Dev := if d.ringCost tier = 0 then d else d.use k (d.ringCost tier)

/-- The lowest number not in a list. -/
def lowestNotIn (used : List Nat) : Nat :=
  ((List.range (used.length + 1)).find? (fun n => !(used.contains n))).getD 0

/-- The buffer that a pool's ring gives next, if it holds one. The spec does not say in which order a ring holds its buffers: the
model takes the lowest (DESIGN CHOICE, log 11). -/
def ringNext (c : Cfg) (d : Dev) (tier p : Nat) : Option Nat :=
  let b := lowestNotIn (d.allocated tier p ++ d.cached tier p)
  if b < poolCount c tier p then some b else none

/-- Mark a buffer allocated under a new generation (R342). -/
def Dev.allocate (d : Dev) (tier p b : Nat) : Nat × Dev :=
  let gen := ((d.buf tier p b).gen + 1) % 256
  (gen, { d with bufs := d.bufs.put (bufKey tier p b) { alloc := true, gen := gen } })

/-- Take a buffer of one pool for a requester: from its cache, else from the ring (R340, R341). -/
def takeFrom (c : Cfg) (tier p req : Nat) (d : Dev) : Option (Nat × Nat × Dev) :=
  match d.cache tier p req with
  | b :: rest =>
    let (gen, d') := { d with caches := d.caches.setD (cacheKey tier p req) rest [] }.allocate tier p b
    some (b, gen, d')
  | [] =>
    match ringNext c d tier p with
    | some b => let (gen, d') := (d.ringTraffic tier usedDeepRead).allocate tier p b; some (b, gen, d')
    | none => none

/-- Take a buffer for a packet: the smallest pool that holds it, then the next larger ones, each step counted as
pool_promote (R338). -/
def takeBuf (c : Cfg) (tier req : Nat) : List Nat → Dev → Option (Nat × Nat × Nat) × Dev
  | [], d => (none, d)
  | p :: ps, d =>
    match takeFrom c tier p req d with
    | some (b, gen, d') => (some (p, b, gen), d')
    | none => takeBuf c tier req ps (if ps.isEmpty then d else d.count .device .poolPromote p)

/-- The pools from a packet's own upward. -/
def poolsFrom (len : Nat) : List Nat := (List.range 4).drop (poolFor len)

/-- The freeing blocks of BUF_DFREE_CAP (R367). -/
def srcPlacement : Nat := 32
/-- The wheels as a freeing block. -/
def srcWheels : Nat := 33
/-- The uplink egress as a freeing block. -/
def srcEgress : Nat := 34

/-- Free a buffer that was allocated under a generation; a stale free is discarded, counted and recorded (R342). -/
def Dev.freeBuf (d : Dev) (tier p b gen source : Nat) : Dev :=
  let x := d.buf tier p b
  if x.alloc ∧ x.gen = gen then
    { d with bufs := d.bufs.put (bufKey tier p b) { x with alloc := false } }.ringTraffic tier usedDeepWrite
  else
    (((((((d.count .device .doubleFree tier).set Fields.BUF_DFREE_CAP_tier 0 tier).set Fields.BUF_DFREE_CAP_source 0 source).set
      Fields.BUF_DFREE_CAP_buffer 0 b).set Fields.BUF_DFREE_CAP1_pool 0 p).set Fields.BUF_DFREE_CAP1_gen 0 gen).raiseBit
      Fields.INT_DEV_CAUSE_dfree 0 tier)

/-! ### Queues -/

/-- The number of bough queues; uplink queues follow (R385). -/
def upQueueBase : Nat := 524288

/-- The queue of an uplink port's class. -/
def upQueue (lane cls : Nat) : Nat := upQueueBase + lane * 8 + cls

/-- A queue with nothing in it. -/
def Queue.init : Queue := { head := [], deep := [], held := [], tail := [] }

/-- A queue. -/
def Dev.queue (d : Dev) (q : Nat) : Queue := d.queues.getD q Queue.init

/-- Set a queue. -/
def Dev.setQueue (d : Dev) (q : Nat) (x : Queue) : Dev := { d with queues := d.queues.setD q x Queue.init }

/-- Bytes of some packets. -/
def bytesOf (ps : List QPkt) : Nat := (ps.map (fun p => p.bytes.length)).sum

/-- Bytes in the near segments; what a rest left there in front of its held packets is near content still (R28). -/
def Queue.nearBytes (x : Queue) : Nat := bytesOf x.head + bytesOf x.tail + bytesOf (x.held.filter (fun p => p.stay))

/-- The depth of R384: near and deep segments. -/
def Queue.depth (x : Queue) : Nat := x.nearBytes + bytesOf x.deep

/-- Whether the queue holds nothing. -/
def Queue.isEmpty (x : Queue) : Bool := x.head.isEmpty && x.deep.isEmpty && x.held.isEmpty && x.tail.isEmpty

/-- What stays in front of held packets is tail again once none of those is left. -/
def Queue.unstay (x : Queue) : Queue :=
  if x.held.all QPkt.stay then { x with tail := x.held.map (fun p => { p with stay := false }) ++ x.tail, held := [] } else x

/-- When nothing lies between the head and the tail, the tail joins the head (R343). -/
def Queue.join (x : Queue) : Queue :=
  let x := x.unstay
  if x.deep.isEmpty && x.held.isEmpty then { x with head := x.head ++ x.tail, tail := [] } else x

/-- A packet at the back of a queue's near segments. -/
def Queue.push (x : Queue) (p : QPkt) : Queue :=
  if x.deep.isEmpty && x.held.isEmpty then { x with head := x.head ++ [p] } else { x with tail := x.tail ++ [p] }

/-- The stand that a queue serves. -/
def standOfQueue (c : Cfg) (q : Nat) : Option Nat := if q < upQueueBase then standOfBough c (q / 8) else none

/-- Whether a queue may use the deep tier (R345, R379, R385). -/
def queueDeepOk (c : Cfg) (q : Nat) : Bool :=
  if q < mcBase * 8 then c.flag Fields.BUF_Q_CFG_tier_max q
  else if q < upQueueBase then false
  else c.flag Fields.SCH_UP_PLACE_tier_max (q - upQueueBase)

/-- The placement profile of a queue. -/
def queueProfile (c : Cfg) (q : Nat) : Nat :=
  if q < upQueueBase then c.get Fields.BUF_Q_CFG_profile q else c.get Fields.SCH_UP_PLACE_profile (q - upQueueBase)

/-- spill_on of a queue in bytes. -/
def spillOn (c : Cfg) (q : Nat) : Nat := c.get Fields.BUF_PRF_SPILL_spill_on (queueProfile c q) * 1024

/-- keep of a queue in bytes. -/
def keepOf (c : Cfg) (q : Nat) : Nat := c.get Fields.BUF_PRF_KEEP_keep (queueProfile c q) * 1024

/-- deep_max of a queue in bytes. -/
def deepMax (c : Cfg) (q : Nat) : Nat := c.get Fields.BUF_PRF_DEEP_deep_max (queueProfile c q) * 2 ^ 20

/-- Whether the hold tier is up. -/
def Dev.holdUp (d : Dev) : Bool := !(d.flag Fields.BUF_HOLD_STATUS_hold_down 0) && !d.holdFell

/-- The state of the deep tier (R348). -/
def Dev.deepState (d : Dev) : Nat := d.get Fields.BUF_DEEP_STATUS_state 0

/-- Bytes of the deep tier's budget of a tick, each way (R347). -/
def deepBudget : Nat := 28750000

/-- Bytes of the hold tier's budget of a tick, each way (R353). -/
def holdBudget : Nat := 12800000

/-! ### The held area (R352 to R354) -/

/-- The packets of a stand's held segments. -/
def heldPkts (c : Cfg) (d : Dev) (i : Nat) : List QPkt :=
  (boughsOf c i).flatMap (fun b => (List.range 8).flatMap (fun k => (d.queue (b * 8 + k)).held))

/-- The open sector of a stand. -/
def Dev.holdOf (d : Dev) (i : Nat) : HoldSt := d.hold.getD i { next := 0, fill := 0, oldest := 0, part := [] }

/-- A packet spans into a sector of its stand. -/
def QPkt.spans (p : QPkt) (own : Nat) : Bool := p.packed && decide (p.sec0 ≤ own) && decide (own ≤ p.sec1)

/-- A sector of a stand is still spanned by a held packet. -/
def sectorHeld (ps : List QPkt) (own : Nat) : Bool := ps.any (fun p => p.spans own)

/-- The written sectors, those before `next`, that a stand's packets occupy. -/
def sectorsUsed (next : Nat) (ps : List QPkt) : Nat :=
  (((ps.filter (fun p => p.packed)).flatMap (fun p => List.range' p.sec0 (p.sec1 + 1 - p.sec0))).filter (fun s => decide (s < next))).eraseDups.length

/-- The hold usage of a stand in bytes (R354): whole written sectors, and the bytes that wait in the near tier, for their sector or for the write budget. -/
def holdUsage (c : Cfg) (d : Dev) (i : Nat) : Nat :=
  let ps := heldPkts c d i
  let h := d.holdOf i
  sectorsUsed h.next ps * 4096 + (if sectorHeld ps h.next then h.fill else 0) + bytesOf (ps.filter (fun p => !p.packed && !p.stay))

/-- The quota of a stand in bytes. -/
def holdQuota (c : Cfg) (i : Nat) : Nat := c.get Fields.BUF_HOLD_QUOTA_hold_quota i * 2 ^ 20

/-- Sectors of the held area (R352). -/
def heldSectors (c : Cfg) (d : Dev) : Nat :=
  (d.get Fields.BUF_HOLD_STATUS_cap_gib 0 * 1024 - 64 * c.get Fields.BUF_HOLD_CTRL_replay_mib 0) * 256

/-! ### Freeing packets and flushing -/

/-- Free the buffer of a packet in a tier, unless it lies in the hold tier. -/
def Dev.freePkt (d : Dev) (tier source : Nat) (p : QPkt) : Dev := d.freeBuf tier p.pool p.buf p.gen source

/-- Free the near buffer of a held packet that has not moved. -/
def Dev.freeHeld (d : Dev) (source : Nat) (p : QPkt) : Dev := if p.moved then d else d.freePkt 0 source p

/-- Empty a queue, freeing every buffer. -/
def Dev.dropQueue (d : Dev) (q source : Nat) : Dev :=
  let x := d.queue q
  let d := (x.head ++ x.tail).foldl (fun d p => d.freePkt 0 source p) d
  let d := x.deep.foldl (fun d p => d.freePkt 1 source p) d
  let d := x.held.foldl (fun d p => d.freeHeld source p) d
  d.setQueue q Queue.init

/-- Packets in a queue. -/
def Queue.pkts (x : Queue) : Nat := x.head.length + x.deep.length + x.held.length + x.tail.length

/-- The queues of a stand, in ascending queue number. -/
def queuesOf (c : Cfg) (i : Nat) : List Nat := (boughsOf c i).flatMap (fun b => (List.range 8).map (fun k => b * 8 + k))

/-- Flush the queues of a stand in every tier and count the packets (R27, R172). -/
def flushStand (c : Cfg) (i : Nat) (d : Dev) : Dev :=
  let qs := queuesOf c i
  let n := (qs.map (fun q => (d.queue q).pkts)).sum
  let d := qs.foldl (fun d q => d.dropQueue q srcPlacement) d
  { d.count .stand .flushedPkts i n with hold := d.hold.erase i, heldAt := d.heldAt.filter (fun x => !(x.1 / 2 ^ 32 == i)) }

/-- Drop the replicas that a grove holds of one multicast bough (R379): the buffer is freed with the last replica. -/
def dropReplica (q uid : Nat) (d : Dev) : Dev :=
  let x := d.queue q
  match x.head.find? (fun p => p.uid == uid) with
  | none => d
  | some p =>
    if p.reps ≤ 1 then
      (d.setQueue q { x with head := x.head.filter (fun p => !(p.uid == uid)) }).freePkt 0 srcWheels p
    else
      d.setQueue q { x with head := x.head.map (fun p => if p.uid == uid then { p with reps := p.reps - 1 } else p) }

/-- The key of the replica list of a grove for a multicast group. -/
def repKey (g grp : Nat) : Nat := g * 512 + grp

/-- Drop every replica of a grove for a group, counted (R379). -/
def dropReplicas (g grp : Nat) (d : Dev) : Dev :=
  let l := d.reps.getD (repKey g grp) []
  if l.isEmpty then { d with reps := d.reps.erase (repKey g grp) }
  else
    let d := l.foldl (fun d r => dropReplica r.1 r.2 d) d
    { d.count .grove .mcReplicaDrop g l.length with reps := d.reps.erase (repKey g grp) }

/-- Drop the replicas of every group of a grove. -/
def dropGroveReplicas (g : Nat) (d : Dev) : Dev :=
  (List.range 512).foldl (fun d grp => dropReplicas g grp d) d

/-- Drop the replicas of the groups whose last member on the grove has left ACTIVE and RESTING. -/
def dropOrphanReplicas (c : Cfg) (g : Nat) (d : Dev) : Dev :=
  (List.range 512).foldl (fun d grp => if groupOnGrove c d grp g then d else dropReplicas g grp d) d

end Sys2Proof.Machine
end

