-- ==== Sys2Proof/Machine/Sources.lean ====
section
/-!
DEFINITION. The causes of the interrupt sources (R568, R569), and the watch that the controller keeps on sources in service (R575).
-/

namespace Sys2Proof.Machine

/-- The status words of one kind that differ from reset, as (index, word). -/
def Dev.listed (d : Dev) (r : Reg) : List (Nat × Nat) :=
  d.sts.cells.filterMap (fun p => if p.1 / 2 ^ 22 = r.id then some (p.1 % 2 ^ 22, p.2) else none)

/-- The causes of a grove's eight sources (R569, sources 8g + k). -/
def groveAsserted (d : Dev) (g k : Nat) : Bool :=
  match k with
  | 0 => d.flag Fields.GRV_US_STATUS_rogue g
  | 1 => d.flag Fields.INT_GRV_CAUSE_dup_serial g
  | 2 => d.flag Fields.INT_GRV_CAUSE_eqd_range g
  | 3 => (List.range 8).any (fun w => decide (d.get Fields.INT_GRV_STANDS_stands (g * 8 + w) ≠ 0))
  | 4 => match d.groves.get? g with | some x => !x.rxFifo.isEmpty | none => false
  | 5 => match d.groves.get? g with | some x => !x.omciRx.isEmpty | none => false
  | 6 => d.flag Fields.GNT_GRV_STATUS_overrun g
  | _ => false

/-- The causes of the device's own sources 551 to 561 (R569). -/
def deviceAsserted (d : Dev) (s : Nat) : Bool :=
  match s with
  | 551 => d.flag Fields.BUF_DEEP_STATUS_withdrawn 0
  | 552 => d.flag Fields.BUF_HOLD_STATUS_hold_down 0
  | 553 => d.flag Fields.KEY_CTRL_rng_fail 0
  | 554 => (d.listed .KEY_GRP_CTRL).any (fun p => d.flag Fields.KEY_GRP_CTRL_ctr_warn p.1)
  | 555 => decide (d.get Fields.CLK_STATUS_lost 0 ≠ 0) || d.flag Fields.CLK_STATUS_stopped_source_escape 0
  | 556 => d.flag Fields.TICK_STATUS_staging_full 0 || d.flag Fields.TICK_STATUS_phase_excess 0 || d.flag Fields.TICK_STATUS_src_lost 0
  | 557 => d.flag Fields.INT_DEV_CAUSE_load_err 0
  | 558 => d.flag Fields.MATE_STATUS_dsd_fault 0 || d.flag Fields.MATE_STATUS_mate_lost 0 || d.flag Fields.MATE_STATUS_split_alarm 0
      || d.flag Fields.MATE_STATUS_path_alarm 0
  | 559 => d.flag Fields.TIME_STATUS_switched 0
  | 560 => decide (d.get Fields.ACC_VIOL_viol 0 ≠ 0)
  | 561 => decide (d.get Fields.INT_LINK_CAUSE0_uplink_lo 0 ≠ 0) || decide (d.get Fields.INT_LINK_CAUSE1_uplink_hi 0 ≠ 0)
      || decide (d.get Fields.INT_LINK_CAUSE2_other 0 ≠ 0)
  | _ => false

/-- Whether a source is asserted: its cause is set (R568, R569). Reserved numbers never are. -/
def asserted (d : Dev) (s : Nat) : Bool :=
  if s < 512 then groveAsserted d (s / 8) (s % 8)
  else if s < 528 then d.flag Fields.GNT_LANE_ECC_ecc_fatal (s - 512)
  else if s < 544 then (d.get Fields.INT_DEV_CAUSE_ring_done 0).testBit (s - 528)
  else if s < 548 then (d.get Fields.INT_DEV_CAUSE_lock_exp 0).testBit (s - 544)
  else if s < 551 then (d.get Fields.INT_DEV_CAUSE_dfree 0).testBit (s - 548)
  else if s < 562 then deviceAsserted d s
  else if s < 594 then (match d.samplers.get? (s - 562) with | some x => !x.recs.isEmpty | none => false)
  else if 1024 ≤ s ∧ s < 3072 then (d.get Fields.INT_SLC_CAUSE_slices ((s - 1024) / 32)).testBit ((s - 1024) % 32)
  else false

/-- The source numbers that the source map lists (R569). -/
def sourceListed (s : Nat) : Bool := decide ((s < 512 ∧ s % 8 ≠ 7) ∨ (512 ≤ s ∧ s < 594) ∨ (1024 ≤ s ∧ s < 3072))

/-- Look at the sources in service: one that has de-asserted since the last look was released by other means than a write of its target,
unless `mine` says that the function it targets made it so (R575). -/
def watchSources (mine : Nat → Bool) (d : Dev) : Dev :=
  { d with inServ := d.inServ.mapVals (fun s x =>
      { x with last := asserted d s, released := x.released || (x.last && !(asserted d s) && !(mine (x.vec / 64))) }) }

end Sys2Proof.Machine
end

