-- ==== Sys2Proof/Machine/Memory.lean ====
section
/-!
DEFINITION. The memory tiers (spec file 12): the placement engine's moves between near, deep and hold tier, the shadow rings of a standby,
buffer frees and cache refills, pinned queues, and the events of the tiers themselves.
-/

namespace Sys2Proof.Machine

/-! ### Pinning (R151) -/

/-- A run that has reached 64 counting ticks sets its flag and is counted once; while the flag stands nothing happens (R151). -/
def pinIf (k : RunKind) (i : Nat) (flag : Fld) (j : Nat) (f : Fam) (ctr : Ctr) (inst : Nat) (d : Dev) : Dev :=
  if 64 ≤ d.run k i ∧ d.flag flag j = false then (d.raise flag j).count f ctr inst else d

/-- A queue is pinned (R346). -/
def queuePinned (q : Nat) (d : Dev) : Dev := pinIf .queue q Fields.BUF_Q_DEEP_pinned q .device .qPinned 0 d

/-- QUEUE_PINNED. -/
def execQueuePinned (q : Fin 524288) (s : State) : Outcome := onDev (fun _ d => queuePinned q d) s

/-! ### Frees and refills -/

/-- BUFFER_FREE: a free names its buffer, the generation it was allocated under, and the freeing block (R342). The hold tier allocates no buffers, so that
every free of one is stale. -/
def execBufferFree (tier : Fin 3) (pool : Fin 4) (buf gen : Nat) (source : Fin 64) (s : State) : Outcome :=
  onDev (fun _ d => d.freeBuf tier pool buf gen source) s

/-- Entries that a cache of a pool holds at most (R340). -/
def cacheCap (c : Cfg) (tier p : Nat) : Nat := min 512 (poolCount c tier p / 128)

/-- Move free buffers from the ring into a cache, as many as asked and as the ring holds. -/
def refill (c : Cfg) (tier p req : Nat) : Nat → Dev → Dev
  | 0, d => d
  | n + 1, d =>
    match (if d.usedOf usedDeepRead + d.ringCost tier ≤ deepBudget then ringNext c d tier p else none) with
    | some b => refill c tier p req n ({ d with caches := d.caches.put (cacheKey tier p req) (d.cache tier p req ++ [b]) }.ringTraffic tier usedDeepRead)
    | none => d

/-- A cache below half is refilled up to its bound (R340). Pipelines hold near-tier caches only. -/
def cacheRefill (c : Cfg) (tier req p : Nat) (d : Dev) : Dev :=
  let cap := cacheCap c tier p
  let have_ := (d.cache tier p req).length
  if have_ < cap / 2 ∧ (tier = 0 ∨ req = srcPlacement) then refill c tier p req (cap - have_) d else d

/-- CACHE_REFILL. -/
def execCacheRefill (tier : Fin 2) (requester : Fin 33) (pool : Fin 4) (s : State) : Outcome :=
  onDev (fun c d => cacheRefill c tier requester pool d) s

/-! ### Spill and return (R344 to R347) -/

/-- The packets of the head that stay, the one that spills and the ones behind it: the first packet that begins more than keep bytes
behind the head. -/
def splitHead (keep : Nat) : Nat → List QPkt → List QPkt × Option QPkt × List QPkt
  | _, [] => ([], none, [])
  | at_, p :: ps =>
    if keep < at_ then ([], some p, ps)
    else
      let (a, m, b) := splitHead keep (at_ + p.bytes.length) ps
      (p :: a, m, b)

/-- What a spill takes from a queue: the packet and the queue without it (R344). -/
def spillPick (keep : Nat) (x : Queue) : Option (QPkt × Queue) :=
  if x.deep.isEmpty then
    match splitHead keep 0 x.head with
    | (a, some p, b) => some (p, { x with head := a, tail := b ++ x.tail })
    | _ => none
  else
    match x.tail with
    | p :: rest => some (p, { x with tail := rest })
    | [] => none

/-- A queue has a held segment (R343): its stand is RESTING, or has woken with held content not yet returned. -/
def hasHeld (c : Cfg) (d : Dev) (q : Nat) : Bool :=
  (d.queue q).held.any (fun p => !p.stay) || (match standOfQueue c q with | some i => d.st i == .resting | none => false)

/-- R344 would spill the queue but for its bounds. -/
def spillWanted (c : Cfg) (d : Dev) (q : Nat) : Bool :=
  decide (spillOn c q < (d.queue q).nearBytes) && !(hasHeld c d q) && (d.queue q).held.isEmpty

/-- Its bounds allow a spill (R345). -/
def spillAllowed (c : Cfg) (q : Nat) (x : Queue) : Bool := queueDeepOk c q && decide (bytesOf x.deep < deepMax c q)

/-- Mark the tick of a queue that would spill and may not (R346). -/
def markHinder (c : Cfg) (q : Nat) (d : Dev) : Dev :=
  if spillWanted c d q && !(spillAllowed c q (d.queue q)) && decide (q < upQueueBase) then d.mark .queue q 1 else d

/-- Whether the device is a standby (R427). -/
def Dev.isStandby (d : Dev) : Bool := d.get Fields.MATE_STATUS_role 0 == 2

/-- Whether the device is paired (R426 to R428). -/
def Dev.isPaired (d : Dev) : Bool := d.get Fields.MATE_STATUS_pair_state 0 == 2

/-- The groves of MATE_GRV_EN, bit g for grove g. -/
def pairMask (c : Cfg) : Nat := c.get Fields.MATE_GRV_EN_HI_groves_hi 0 * 2 ^ 32 + c.get Fields.MATE_GRV_EN_LO_groves_lo 0

/-- Whether a grove is paired: set in MATE_GRV_EN on both devices (R426). -/
def pairedGrove (c : Cfg) (d : Dev) (g : Nat) : Bool := d.isPaired && (pairMask c).testBit g && d.mate.peerGroves.testBit g

/-- The quadrant of a grove (R8). -/
def quadrantOf (g : Nat) : Nat := g / 16

/-- Whether a quadrant is parked (R494). -/
def quadParked (d : Dev) (q : Nat) : Bool := (d.get Fields.CLK_PWR_STAT_parked 0).testBit q

/-- Whether a grove's quadrant is parked (R494). -/
def groveParked (d : Dev) (g : Nat) : Bool := quadParked d (quadrantOf g)

/-- The engine and the framer of a grove work (R433, R541): it is in service, or it is a paired grove of a standby. -/
def worksOn (c : Cfg) (d : Dev) (g : Nat) (inService : Bool) : Bool :=
  inService || (d.isStandby && pairedGrove c d g && !(groveParked d g))

/-- The packet under its new buffer. -/
def QPkt.at (p : QPkt) (pool buf gen : Nat) : QPkt := { p with pool := pool, buf := buf, gen := gen }

/-! ### The tier cipher engines (R349, R355, R413) -/

/-- Whether the key engine serves new work (R397). -/
def Dev.rngGood (d : Dev) : Bool := !(d.flag Fields.KEY_CTRL_rng_fail 0)

/-- Draw the two keys of a tier's engines, 0 the deep tier's and 1 the hold tier's (R413). -/
def drawTierKeys (tier : Nat) (d : Dev) : Dev :=
  let (a, d) := d.draw (2 ^ 256)
  let (b, d) := d.draw (2 ^ 256)
  { d with tierKeys := d.tierKeys.put tier (a, b) }

/-- A data unit under a tier's keys; the tweak is a 128-bit little-endian value. -/
def tierCipher (d : Dev) (tier tweak : Nat) (bs : List Byte) : List Byte :=
  let k := d.tierKeys.getD tier (0, 0)
  Config.xts k.1 k.2 (toBytesLE 16 tweak) bs

/-- Bytes that a length takes in lines of the HBM2E. -/
def lineSpan (n : Nat) : Nat := (n + 255) / 256 * 256

/-- Write the lines of some bytes to the HBM2E, line `k` at `addr k` (R349). -/
def writeLines (addr : Nat → Nat) (bs : List Byte) (d : Dev) : Dev :=
  (List.range (lineSpan bs.length / 256)).foldl (fun d k =>
    { d with hbm := d.hbm.put (addr k) (tierCipher d 0 (addr k) (padTo 256 (bs.drop (256 * k)))) }) d

/-- The byte address in the HBM2E of a buffer of the deep tier: the pools lie at the bottom (R339), the smallest buffers first (DEDUCED, log 89). -/
def deepAddr (c : Cfg) (pool b : Nat) : Nat :=
  ((List.range pool).map (fun p => c.get Fields.BUF_POOL_DEEP_deep_256m p * 2 ^ 28)).sum + b * poolSize pool

/-- Write a sector of the hold tier (R355): the tweak is its number. -/
def writeSector (n : Nat) (bs : List Byte) (d : Dev) : Dev := { d with cxl := d.cxl.put n (tierCipher d 1 n (padTo 4096 bs)) }

/-- A return of a queue is due (R344): its head holds fewer than keep bytes, or the tier is being withdrawn (R359). -/
def returnWanted (c : Cfg) (d : Dev) (q : Nat) (x : Queue) : Bool :=
  !x.deep.isEmpty && ((d.deepState == 1 && decide (bytesOf x.head < keepOf c q)) || d.deepState == 2)

/-- The near buffer for a packet that returns: none where no pool has one, or where the budgets do not admit the move with its ring entries (R347). -/
def returnBuf (c : Cfg) (d : Dev) (p : QPkt) : Option ((Nat × Nat × Nat) × Dev) :=
  match takeBuf c 0 srcPlacement (poolsFrom p.bytes.length) d with
  | (some b, d') =>
    if d'.usedOf usedDeepRead + p.bytes.length ≤ deepBudget ∧ d'.usedOf usedDeepWrite + d.ringCost 1 ≤ deepBudget then some (b, d') else none
  | (none, _) => none

/-- A return of a queue could be taken now: the budgets and a near pool admit its next packet. -/
def returnReady (c : Cfg) (d : Dev) (q : Nat) (x : Queue) : Bool :=
  returnWanted c d q x && (match x.deep.head? with
    | some p => (returnBuf c d p).isSome
    | none => false)

/-- The packet that a queue would spill within its bounds and the budgets, its ring entries among what it writes and reads (R344, R345, R347). -/
def spillNow (c : Cfg) (d : Dev) (q : Nat) : Option (QPkt × Queue) :=
  let x := d.queue q
  if spillWanted c d q && spillAllowed c q x && d.deepState == 1 && !d.isStandby then
    (spillPick (keepOf c q) x).filter (fun r => decide (d.usedOf usedDeepWrite + r.1.bytes.length + d.ringCost 0 ≤ deepBudget)
      && ((d.cache 1 (poolFor r.1.bytes.length) srcPlacement).isEmpty == false || decide (d.usedOf usedDeepRead + d.ringCost 1 ≤ deepBudget)))
  else none

/-- The queue that spills next: cyclically in ascending queue number, one packet a visit, and only where no return could be taken (R347). -/
def spillTurn (c : Cfg) (d : Dev) : Option Nat :=
  if d.queues.any (fun x => returnReady c d x.1 x.2) then none
  else
    let qs := (d.queues.map Prod.fst).filter (fun q => (spillNow c d q).isSome)
    (qs.find? (fun q => decide (d.spillPtr ≤ q))) <|> qs.head?

/-- A spill of one packet (R344) by the queue whose turn it is: a deep buffer is taken and its lines written, the near one freed, the write budget used. Where its pool's
deep ring is empty the move does not happen, and stalls (R341, R348). -/
def spillMove (c : Cfg) (q : Nat) (d : Dev) : Dev :=
  match spillNow c d q with
  | some (p, x') =>
      if spillTurn c d = some q then
        let d := { d with spillPtr := q + 1 }
        match takeFrom c 1 (poolFor p.bytes.length) srcPlacement d with
        | none => ({ d with used := d.used.put (16 + poolFor p.bytes.length) 1 }).count .device .moveStall (poolFor p.bytes.length)
        | some (b, gen, d') =>
          let addr := deepAddr c (poolFor p.bytes.length) b
          let d' := writeLines (fun k => addr + 256 * k) p.bytes ((d'.freePkt 0 srcPlacement p).use usedDeepWrite p.bytes.length)
          ((d'.setQueue q { x' with deep := x'.deep ++ [p.at (poolFor p.bytes.length) b gen] }).mark .queue q 2).count
            .device .spillBytes 0 p.bytes.length
      else d
  | none => markHinder c q d

/-- SPILL_MOVE. -/
def execSpillMove (q : Fin 524800) (s : State) : Outcome := onDev (fun c d => spillMove c q d) s

/-- A return of one packet (R344, R341): while the head holds fewer than keep bytes, and at any time while the tier is being withdrawn (R359). -/
def returnMove (c : Cfg) (q : Nat) (d : Dev) : Dev :=
  let x := d.queue q
  match x.deep with
  | [] => d
  | p :: rest =>
    if returnWanted c d q x then
      match returnBuf c d p with
      | some ((pool, b, gen), d') =>
        let d' := (d'.freePkt 1 srcPlacement p).use usedDeepRead p.bytes.length
        (d'.setQueue q { x with head := x.head ++ [p.at pool b gen], deep := rest }.join).count .device .returnBytes 0 p.bytes.length
      | none =>
        if d.usedOf usedDeepRead + p.bytes.length ≤ deepBudget ∧ (takeBuf c 0 srcPlacement (poolsFrom p.bytes.length) d).1 = none then
          (takeBuf c 0 srcPlacement (poolsFrom p.bytes.length) d).2.count .device .moveStall (poolFor p.bytes.length)
        else d
    else d

/-- RETURN_MOVE. -/
def execReturnMove (q : Fin 524800) (s : State) : Outcome := onDev (fun c d => returnMove c q d) s

/-! ### The hold tier (R352 to R357) -/

/-- Bytes of a packet in the held area: 8-byte aligned (R354). -/
def heldLen (p : QPkt) : Nat := (p.bytes.length + 7) / 8 * 8

/-- The packet as it lies in the held area: packed behind the stand's last one (R354). -/
def packHeld (h : HoldSt) (tick : Nat) (p : QPkt) : QPkt × HoldSt :=
  let len := heldLen p
  let last := h.next + (h.fill + len - 1) / 4096
  let full := h.next + (h.fill + len) / 4096
  let bs := h.part ++ padTo len p.bytes
  ({ p with packed := true, sec0 := h.next, sec1 := last, off := h.fill },
   { next := full, fill := (h.fill + len) % 4096, oldest := if full = h.next ∧ h.fill ≠ 0 then h.oldest else tick
     part := bs.drop (4096 * (full - h.next)) })

/-- The key of a stand's sector by its own numbering. -/
def heldKey (i own : Nat) : Nat := i * 2 ^ 32 + own

/-- Give a stand's sector a free sector of the held area, if it has none: the lowest (DESIGN CHOICE, log 11). None where the area is full. -/
def takeSector (c : Cfg) (i own : Nat) (d : Dev) : Option Dev :=
  if (d.heldAt.get? (heldKey i own)).isSome then some d
  else
    let n := lowestNotIn (d.heldAt.map Prod.snd)
    if n < heldSectors c d then some { d with heldAt := d.heldAt.put (heldKey i own) n } else none

/-- Give sectors to a stand's numbers from `own` on. -/
def takeSectors (c : Cfg) (i : Nat) : Nat → Nat → Dev → Option Dev
  | 0, _, d => some d
  | n + 1, own, d => (takeSector c i own d).bind (takeSectors c i n (own + 1))

/-- Write the full sectors of a stand's stream, from its number `own` on. -/
def writeFull (i : Nat) : Nat → Nat → List Byte → Dev → Dev
  | 0, _, _, d => d
  | n + 1, own, bs, d => writeFull i n (own + 1) (bs.drop 4096) (writeSector (d.heldAt.getD (heldKey i own) 0) (bs.take 4096) d)

/-- A packet of a queue that waits for the hold tier. -/
def Queue.waits (x : Queue) : Option QPkt := x.held.find? (fun p => !p.packed && !p.stay)

/-- Whether a RESTING stand has packets that wait for the hold tier. -/
def waitsHold (c : Cfg) (d : Dev) (i : Nat) : Bool := d.st i == .resting && (queuesOf c i).any (fun q => ((d.queue q).waits).isSome)

/-- The stand whose packets move into the hold tier next: cyclically in ascending stand id (R353). A stand is served until none of its packets waits
(DESIGN CHOICE, log 89). -/
def holdTurn (c : Cfg) (d : Dev) : Option Nat :=
  let is := (d.life.map Prod.fst).filter (waitsHold c d)
  (is.find? (fun i => decide (d.holdPtr ≤ i))) <|> is.head?

/-- The sectors of a stand before `next` are written: the packets that lie wholly in them leave the near tier (R354). -/
def settleHeld (c : Cfg) (i next : Nat) (d : Dev) : Dev :=
  let done := fun (p : QPkt) => p.packed && !p.moved && decide (p.sec1 < next)
  (queuesOf c i).foldl (fun d q =>
    let x := d.queue q
    if x.held.any done then
      ((x.held.filter done).foldl (fun d p => d.freePkt 0 srcPlacement p) d).setQueue q
        { x with held := x.held.map (fun p => if done p then { p with moved := true } else p) }
    else d) d

/-- Move the first packet of a queue that waits for the hold tier (R353), where it is its stand's turn. One that finds no free sector is dropped (R354). -/
def holdWrite (c : Cfg) (q : Nat) (d : Dev) : Dev :=
  let x := d.queue q
  match standOfQueue c q, x.waits with
  | some i, some p =>
    if d.holdUp && holdTurn c d == some i && decide (d.usedOf usedHoldWrite + p.bytes.length ≤ holdBudget) then
      let h := d.holdOf i
      let r := packHeld h d.sfc p
      match takeSectors c i (r.1.sec1 + 1 - h.next) h.next { d with holdPtr := i } with
      | none => ((d.freePkt 0 srcPlacement p).setQueue q { x with held := x.held.filter (fun y => !(y.uid == p.uid)) }.join).count .stand .holdFull i
      | some d' =>
        let d' := writeFull i (r.2.next - h.next) h.next (h.part ++ padTo (heldLen p) p.bytes) d'
        let d' := settleHeld c i r.2.next ((d'.use usedHoldWrite p.bytes.length).setQueue q
          { x with held := x.held.map (fun y => if y.uid = p.uid then r.1 else y) })
        ({ d' with hold := d'.hold.put i r.2 }.emit (.hold i p.bytes.length)).count .device .holdWriteBytes 0 p.bytes.length
    else d
  | _, _ => d

/-- HOLD_WRITE. -/
def execHoldWrite (q : Fin 524288) (s : State) : Outcome := onDev (fun c d => holdWrite c q d) s

/-- A partly filled sector is written once its oldest byte has waited 8 ticks, and at the wake edge; the next packet starts a new one (R354). -/
def sectorFlush (c : Cfg) (i : Nat) (d : Dev) : Dev :=
  let h := d.holdOf i
  if h.fill ≠ 0 ∧ (h.oldest + 8 ≤ d.sfc ∨ (d.lifeOf i).wake = d.sfc) then
    { settleHeld c i (h.next + 1) (writeSector (d.heldAt.getD (heldKey i h.next) 0) h.part d) with hold := d.hold.put i { next := h.next + 1, fill := 0, oldest := d.sfc, part := [] } }
  else d

/-- SECTOR_FLUSH. -/
def execSectorFlush (i : Fin 16384) (s : State) : Outcome := onDev (fun c d => sectorFlush c i d) s

/-- The first queue of a stand with held content and no deep segment in front of it (R356). -/
def returnQueue (c : Cfg) (d : Dev) (i : Nat) : Option Nat :=
  (queuesOf c i).find? (fun q => !((d.queue q).held.isEmpty) && (d.queue q).deep.isEmpty)

/-- The stand whose held content returns next: by wake edge, then by stand id (R356). -/
def returnTurn (c : Cfg) (d : Dev) : Option Nat :=
  ((d.life.map Prod.fst).filter (fun i => !(d.st i == .resting) && (returnQueue c d i).isSome)).foldl (fun best i =>
    match best with
    | some b => if (d.lifeOf i).wake < (d.lifeOf b).wake then some i else best
    | none => some i) none

/-- Free the sectors of a stand that no held packet spans any longer (R356); an open sector among them is given up. -/
def freeSectors (c : Cfg) (i : Nat) (d : Dev) : Dev :=
  let ps := heldPkts c d i
  let h := d.holdOf i
  let d := { d with heldAt := d.heldAt.filter (fun x => !(x.1 / 2 ^ 32 == i) || sectorHeld ps (x.1 % 2 ^ 32)) }
  if h.fill ≠ 0 ∧ sectorHeld ps h.next = false then { d with hold := d.hold.put i { next := h.next + 1, fill := 0, oldest := d.sfc, part := [] } } else d

/-- The packet without a place in the hold tier. -/
def QPkt.unpacked (p : QPkt) : QPkt := { p with stay := false, moved := false, packed := false, sec0 := 0, sec1 := 0, off := 0 }

/-- The packets of a poisoned sector are discarded with those that span into it, from every queue of the stand (R359); one that the near tier still holds is not. -/
def loseSector (c : Cfg) (i own : Nat) (d : Dev) : Dev :=
  let lost := fun (p : QPkt) => p.moved && p.spans own
  let n := ((heldPkts c d i).filter lost).length
  let d := (queuesOf c i).foldl (fun d q => d.setQueue q { d.queue q with held := (d.queue q).held.filter (fun p => !(lost p)) }.join) d
  (freeSectors c i d).count .stand .holdUe i n

/-- Return the first held packet of a stand that has woken (R356), where it is its turn: a packet still in the near tier joins the head as it lies; another one is read
within the budget into a near buffer. A poisoned read discards every packet of the sector (R359). -/
def holdReturn (c : Cfg) (i : Nat) (poisoned : Bool) (d : Dev) : Dev :=
  match (if returnTurn c d == some i then returnQueue c d i else none) with
  | none => d
  | some q =>
    let x := d.queue q
    match x.held with
    | [] => d
    | p :: rest =>
      if !p.moved then freeSectors c i (d.setQueue q { x with head := x.head ++ [p.unpacked], held := rest }.join)
      else if poisoned then loseSector c i (p.sec0 + (d.draw (p.sec1 + 1 - p.sec0)).1) (d.draw (p.sec1 + 1 - p.sec0)).2
      else if d.usedOf usedHoldRead + p.bytes.length ≤ holdBudget then
        match takeBuf c 0 srcPlacement (poolsFrom p.bytes.length) d with
        | (none, d') => d'.count .device .moveStall (poolFor p.bytes.length)
        | (some (pool, b, gen), d') =>
          let p' := (p.at pool b gen).unpacked
          (freeSectors c i ((d'.use usedHoldRead p.bytes.length).setQueue q { x with head := x.head ++ [p'], held := rest }.join)).count
            .device .holdReadBytes 0 p.bytes.length
      else d

/-- HOLD_RETURN. -/
def execHoldReturn (i : Fin 16384) (poisoned : Bool) (s : State) : Outcome := onDev (fun c d => holdReturn c i poisoned d) s

/-- The packets of a queue's held segment that lie in the hold tier are lost; those that wait stay in the near tier (R357). -/
def loseHeld (c : Cfg) (q : Nat) (d : Dev) : Dev :=
  let x := d.queue q
  let n := (x.held.filter QPkt.moved).length
  let d := d.setQueue q { x with held := [], tail := (x.held.filter (fun (p : QPkt) => !p.moved)).map QPkt.unpacked ++ x.tail }.join
  match standOfQueue c q with
  | some i => d.count .stand .holdLost i n
  | none => d

/-- The ports in use for the hold tier, as bits (R352). -/
def Dev.holdPorts (d : Dev) : Nat := d.get Fields.BUF_HOLD_STATUS_ports 0

/-- A CXL port leaves: where it was in use, the hold tier goes down, with what follows at the next commit edge (R357). -/
def holdTierDown (port : Nat) (d : Dev) : Dev :=
  let d := (d.set Fields.LANE_CXL_STATUS_up port 0).raiseBit Fields.INT_LINK_CAUSE2_other 0 (2 + port)
  if d.holdPorts.testBit port && d.holdUp then { d with holdFell := true } else d

/-- HOLD_TIER_DOWN. -/
def execHoldTierDown (port : Fin 2) (s : State) : Outcome := onDev (fun _ d => holdTierDown port d) s

/-- A CXL port returns: the hold tier is up again at the next commit edge (R357). -/
def holdTierUp (port : Nat) (d : Dev) : Dev :=
  (d.set Fields.LANE_CXL_STATUS_up port 1).raiseBit Fields.INT_LINK_CAUSE2_other 0 (2 + port)

/-- Every port that the hold tier uses is up (R352). -/
def holdPortsUp (d : Dev) : Bool :=
  d.holdPorts != 0 && (List.range 2).all (fun p => !(d.holdPorts.testBit p) || d.flag Fields.LANE_CXL_STATUS_up p)

/-- The hold tier at a commit edge (R357): one that has gone down loses what it held; with every port of the set up, it is up again, empty and under fresh
keys (R413), which a random source that has failed does not give (R397). -/
def holdEdge (c : Cfg) (d : Dev) : Dev :=
  let d := if d.holdFell then
      let d := ((d.queues.filter (fun x => !(x.2.held.isEmpty))).map Prod.fst).foldl (fun d q => loseHeld c q d) d
      { d with hold := [], heldAt := [], replay := [], holdFell := false }.set Fields.BUF_HOLD_STATUS_hold_down 0 1
    else d
  if holdPortsUp d && d.flag Fields.BUF_HOLD_STATUS_hold_down 0 && d.rngGood then
    let d := watchSources (fun _ => false) d
    watchSources (fun _ => false) { drawTierKeys 1 (d.set Fields.BUF_HOLD_STATUS_hold_down 0 0) with hold := [], heldAt := [], replay := [] }
  else d

/-- HOLD_TIER_UP. -/
def execHoldTierUp (port : Fin 2) (s : State) : Outcome := onDev (fun _ d => holdTierUp port d) s

/-! ### The shadow rings of a standby (R350, R351) -/

/-- Bytes of shadow entries in their ring: each begins a line (DESIGN CHOICE, log 89). -/
def shadowBytes (es : List ShadowEnt) : Nat := (es.map (fun e => lineSpan e.bytes.length)).sum

/-- The shadow reserve begins above the buffer area (R339, R350); its rings lie in grove order (DEDUCED, log 89). -/
def shadowBase : Nat := 14 * 2 ^ 30

/-- A shadow ring's size. -/
def shadowRing : Nat := 32 * 2 ^ 20

/-- Drop the oldest entries until a length fits. -/
def makeRoom (len : Nat) : List ShadowEnt → List ShadowEnt × Nat
  | [] => ([], 0)
  | e :: es =>
    if shadowBytes (e :: es) + lineSpan len ≤ shadowRing then (e :: es, 0)
    else let (r, n) := makeRoom len es; (r, n + 1)

/-- Whether a full ring's oldest entries have a replay area to move to (R351). -/
def replayOk (c : Cfg) (d : Dev) : Bool := d.holdUp && decide (c.get Fields.BUF_HOLD_CTRL_replay_mib 0 ≠ 0)

/-- Release the entries admitted 8 ticks ago and earlier, in the ring and the replay area (R350, R351). -/
def shadowRelease (g : Nat) (d : Dev) : Dev :=
  let keep := fun (es : List ShadowEnt) => es.filter (fun e => decide (d.sfc < e.tick + 8))
  { d with shadow := d.shadow.setD g (keep (d.shadow.getD g [])) [], replay := d.replay.setD g (keep (d.replay.getD g [])) [] }

/-- The groves whose rings take a packet of a shadowed queue: its stand's grove, or, of a multicast queue, those that hold a replica of it (R350, R379). -/
def shadowGroves (c : Cfg) (d : Dev) (q uid : Nat) : List Nat :=
  if mcBase ≤ q / 8 then (List.range 64).filter (fun g => (d.reps.getD (repKey g (q / 8 - mcBase)) []).contains (q, uid))
  else ((standOfQueue c q).map groveOf).toList

/-- A ring is full for a packet (R351). -/
def shadowFull (d : Dev) (g : Nat) (p : QPkt) : Bool := decide (shadowRing < shadowBytes (d.shadow.getD g []) + lineSpan p.bytes.length)

/-- Write a packet into a grove's ring, over the oldest entries where it is full; one that the write budget does not take is dropped (R347, R350, R351). -/
def shadowInto (q : Nat) (p : QPkt) (g : Nat) (d : Dev) : Dev :=
  let ring := d.shadow.getD g []
  if deepBudget < d.usedOf usedDeepWrite + p.bytes.length + d.ringCost 0 then d.count .grove .shadowDrop g
  else
    let (kept, n) := makeRoom p.bytes.length ring
    let at_ := match ring.getLast? with | some e => (e.addr + lineSpan e.bytes.length) % shadowRing | none => 0
    let e : ShadowEnt := { queue := q, bytes := p.bytes, tick := p.tick, addr := at_ }
    let d := writeLines (fun k => shadowBase + g * shadowRing + (at_ + 256 * k) % shadowRing) p.bytes (d.use usedDeepWrite p.bytes.length)
    { d.count .grove .shadowOverwrite g n with shadow := d.shadow.put g (kept ++ [e]) }

/-- A queue is shadowed, and the deep tier takes what is admitted to it (R348, R350). -/
def shadows (c : Cfg) (d : Dev) (q : Nat) : Bool := d.isStandby && c.flag Fields.BUF_Q_CFG_shadow_en q && d.deepState == 1

/-- Move the head packet of a shadowed queue into its grove's ring (R350), a multicast packet into that of each grove that it is for. One that finds a ring full
waits while the ring's oldest entries have a replay area to move to (R351). -/
def shadowMove (c : Cfg) (q : Nat) (d : Dev) : Dev :=
  let x := d.queue q
  match x.head with
  | p :: rest =>
    let gs := shadowGroves c d q p.uid
    if shadows c d q && !gs.isEmpty then
      let d := gs.foldl (fun d g => shadowRelease g d) d
      if gs.any (fun g => shadowFull d g p) && replayOk c d then d
      else
        let d := gs.foldl (fun d g => shadowInto q p g d) d
        let reps := gs.foldl (fun (m : SMap (List (Nat × Nat))) g => m.upd (repKey g (q / 8 - mcBase)) [] (fun l => l.filter (fun y => !(y == (q, p.uid))))) d.reps
        { (d.freePkt 0 srcPlacement p).setQueue q { x with head := rest } with reps := if mcBase ≤ q / 8 then reps else d.reps }
    else d
  | [] => d

/-- SHADOW_MOVE. -/
def execShadowMove (q : Fin 524288) (s : State) : Outcome := onDev (fun c d => shadowMove c q d) s

/-- SHADOW_RELEASE. -/
def execShadowRelease (g : Fin 64) (s : State) : Outcome := onDev (fun _ d => shadowRelease g d) s

/-- Bytes of shadow entries in their replay area: each begins a sector (DESIGN CHOICE, log 89). -/
def areaBytes (es : List ShadowEnt) : Nat := (es.map (fun e => (e.bytes.length + 4095) / 4096 * 4096)).sum

/-- Write an entry into its grove's replay area (R351, R355): the areas lie behind the held area, in grove order (DESIGN CHOICE, log 89). -/
def writeArea (c : Cfg) (g : Nat) (e : ShadowEnt) (d : Dev) : Dev :=
  let n := c.get Fields.BUF_HOLD_CTRL_replay_mib 0 * 256
  let base := heldSectors c d + g * n
  (List.range ((e.bytes.length + 4095) / 4096)).foldl (fun d k => writeSector (base + (e.addr / 4096 + k) % n) ((e.bytes.drop (4096 * k)).take 4096) d) d

/-- A packet waits for a grove's ring, which is full (R351). -/
def ringWaited (c : Cfg) (d : Dev) (g : Nat) : Bool :=
  d.queues.any (fun x => match x.2.head with
    | p :: _ => shadows c d x.1 && (shadowGroves c d x.1 p.uid).contains g && shadowFull d g p
    | [] => false)

/-- A shadowed packet goes back into its queue, ahead of later arrivals (R443): none where no near buffer is to be had (R341). A multicast packet is a replica of
its grove alone. -/
def replayOne (c : Cfg) (g : Nat) (e : ShadowEnt) (d : Dev) : Option Dev :=
  match takeBuf c 0 srcPlacement (poolsFrom e.bytes.length) d with
  | (some (pool, b, gen), d) =>
    let grp := decide (mcBase ≤ e.queue / 8)
    let pk : QPkt := { uid := d.uid, bytes := e.bytes, pool := pool, buf := b, gen := gen, tick := e.tick, clock := 0, reps := grp.toNat, moved := false,
                       sec0 := 0, sec1 := 0, off := 0, stay := false, stamp := none, flow := none }
    let x := d.queue e.queue
    let early := fun (p : QPkt) => decide (p.tick ≤ e.tick)
    let d := (d.setQueue e.queue { x with head := x.head.takeWhile early ++ pk :: x.head.dropWhile early }).count .grove .replayPkts g
    some { d with uid := d.uid + 1, reps := if grp then d.reps.upd (repKey g (e.queue / 8 - mcBase)) [] (fun l => l ++ [(e.queue, pk.uid)]) else d.reps }
  | (none, _) => none

/-- Put shadowed packets back in order, up to the first that finds no buffer: that one and those behind it wait (R341, R443). -/
def replayAll (c : Cfg) (g : Nat) : List ShadowEnt → Dev → Dev
  | [], d => { d with replayWait := d.replayWait.erase g }
  | e :: es, d =>
    match replayOne c g e d with
    | some d => replayAll c g es d
    | none => { d with replayWait := d.replayWait.put g (e :: es) }.count .device .moveStall (poolFor e.bytes.length)

/-- Try again to put back what waits: in the next core clock that comes to it, and at a commit edge (DESIGN CHOICE, log 94). -/
def replayAgain (c : Cfg) (g : Nat) (d : Dev) : Dev :=
  match d.replayWait.getD g [] with
  | [] => d
  | es => replayAll c g es d

/-- Move the oldest entry of a ring that is full for a packet into the replay area, within the hold write budget (R351). An entry whose
release is due is released, not moved (R366). -/
def replayMove (c : Cfg) (g : Nat) (d : Dev) : Dev :=
  let d := shadowRelease g (if d.isStandby then d else replayAgain c g d)
  match d.shadow.getD g [] with
  | [] => d
  | e :: es =>
    let area := d.replay.getD g []
    if replayOk c d && ringWaited c d g
        && decide (areaBytes area + areaBytes [e] ≤ c.get Fields.BUF_HOLD_CTRL_replay_mib 0 * 2 ^ 20)
        && decide (d.usedOf usedHoldWrite + e.bytes.length ≤ holdBudget) then
      let at_ := match area.getLast? with
        | some x => (x.addr + areaBytes [x]) % (c.get Fields.BUF_HOLD_CTRL_replay_mib 0 * 2 ^ 20)
        | none => 0
      let e := { e with addr := at_ }
      { writeArea c g e (d.use usedHoldWrite e.bytes.length) with shadow := d.shadow.setD g es [], replay := d.replay.put g (area ++ [e]) }
    else d

/-- REPLAY_MOVE. -/
def execReplayMove (g : Fin 64) (s : State) : Outcome := onDev (fun c d => replayMove c g d) s

/-! ### Errors and the states of the deep tier (R348, R358, R359) -/

/-- Discard one packet of a queue, wherever it lies, freeing its buffer. -/
def discardPkt (q uid : Nat) (d : Dev) : Dev :=
  let x := d.queue q
  let gone := fun (p : QPkt) => p.uid == uid
  let d := ((x.head ++ x.tail ++ x.held.filter (fun (p : QPkt) => !p.moved)).filter gone).foldl (fun d p => d.freePkt 0 srcPlacement p) d
  let d := (x.deep.filter gone).foldl (fun d p => d.freePkt 1 srcPlacement p) d
  let rest := fun (ps : List QPkt) => ps.filter (fun p => !(gone p))
  d.setQueue q { x with head := rest x.head, deep := rest x.deep, tail := rest x.tail, held := rest x.held }.join

/-- Count an uncorrectable near-tier read for what read it (R358): item 0 of the device counter is the tier, item 1 + p pipeline p. -/
def nearUeBy (r : UeReader) (d : Dev) : Dev :=
  match r with
  | .pipeline p => d.count .device .nearUe (1 + p)
  | .grove g => d.count .grove .nearUe g
  | .other => d

/-- A near-tier read found an uncorrectable error: the packet is discarded (R358). -/
def nearUe (q uid : Nat) (r : UeReader) (d : Dev) : Dev :=
  if ((d.queue q).head ++ (d.queue q).tail ++ (d.queue q).held.filter (fun (p : QPkt) => !p.moved)).any (fun p => p.uid == uid) then
    nearUeBy r ((discardPkt q uid d).count .device .nearUe 0)
  else d

/-- NEAR_UE. -/
def execNearUe (q : Fin 524800) (hit : NearHit) (s : State) : Outcome := onDev (fun _ d => nearUe q hit.uid hit.reader d) s

/-- An uncorrectable HBM2E error discards the affected packet, of a queue or of a shadow ring, and counts toward the window (R359). -/
def deepUe (part : DeepPart) (k : Nat) (d : Dev) : Dev :=
  let hit := fun (d : Dev) => (d.count .device .deepUe 0).setRun .window 0 (d.run .window 0 + 1)
  match part with
  | .queue q => if (d.queue q).deep.any (fun p => p.uid == k) then hit (discardPkt q k d) else d
  | .shadow g =>
    if k < (d.shadow.getD g []).length then hit { d with shadow := d.shadow.setD g ((d.shadow.getD g []).eraseIdx k) [] } else d

/-- DEEP_UE. -/
def execDeepUe (part : DeepPart) (k : Nat) (s : State) : Outcome := onDev (fun _ d => deepUe part k d) s

/-- Whether the deep tier holds nothing. -/
def deepEmpty (d : Dev) : Bool := d.queues.all (fun p => p.2.deep.isEmpty) && d.shadow.all (fun p => p.2.isEmpty)

/-- The deep tier is withdrawn once it holds nothing (R359). -/
def deepWithdrawn (d : Dev) : Dev :=
  if d.deepState == 2 && deepEmpty d then
    (d.set Fields.BUF_DEEP_STATUS_state 0 3).set Fields.BUF_DEEP_STATUS_rings_on_die 0 1
  else d

/-- DEEP_WITHDRAWN. -/
def execDeepWithdrawn (s : State) : Outcome := onDev (fun _ d => deepWithdrawn d) s

/-- Training ends (R359): success waits for the next edge, failure leaves the tier UNTRAINED. -/
def hbmTrainDone (ok : Bool) (d : Dev) : Dev :=
  if d.training then
    if ok then { d with training := false, trained := true }
    else { d.set Fields.BUF_DEEP_STATUS_state 0 0 with training := false }.count .device .trainFail 0
  else d

/-- HBM_TRAIN_DONE. -/
def execHbmTrainDone (ok : Bool) (s : State) : Outcome := onDev (fun _ d => hbmTrainDone ok d) s

/-- The deep tier at a commit edge: a training that has succeeded makes it ACTIVE, with no error counted yet, and the errors of the window are judged (R348, R359).
The near rings lie in the HBM2E while it is ACTIVE, and on die at all other times (R340). -/
def deepEdge (c : Cfg) (d : Dev) : Dev :=
  let d := if d.trained then
      { ((d.set Fields.BUF_DEEP_STATUS_state 0 1).set Fields.BUF_DEEP_STATUS_rings_on_die 0 0).setRun .window 0 0 with trained := false }
    else d
  let d := if d.deepState == 1 && decide (c.get Fields.BUF_DEEP_WD_wd_errs 0 ≤ d.run .window 0) then
      { ((d.set Fields.BUF_DEEP_STATUS_state 0 2).set Fields.BUF_DEEP_STATUS_rings_on_die 0 1).raise Fields.BUF_DEEP_STATUS_withdrawn 0 with shadow := [] }
    else d
  if d.sfc % c.get Fields.BUF_DEEP_WD_wd_ticks 0 = 0 then d.setRun .window 0 0 else d

/-- The budgets at a commit edge (R347, R353): what a pool's empty deep ring stopped is counted, and every budget refills. Ring entries that the deep tier has not
served yet come out of the budget of the tick that begins. -/
def budgetEdge (d : Dev) : Dev :=
  let d := (List.range 4).foldl (fun d p => if d.usedOf (16 + p) = 1 then d.count .device .deepFull p else d) d
  let late := fun (m : SMap Nat) k => m.setD k (d.usedOf k - deepBudget) 0
  { d.set Fields.BUF_DEEP_USED_write_bytes 0 (min (d.usedOf usedDeepWrite) deepBudget) with used := late (late [] usedDeepWrite) usedDeepRead }

end Sys2Proof.Machine
end

