-- ==== Sys2Proof/Machine/Stands.lean ====
section
/-!
DEFINITION. The records of stands, boughs and groves and how they are read and changed; line messages waiting for their frames (R68, R177); the keep
store (R154); key agreements as the key engine starts and abandons them (R406, R409, R418); and the transitions of R165 as shared operations.
-/

namespace Sys2Proof.Machine

/-! ### Records with nothing listed -/

/-- The ranging record of a stand that has none listed. -/
def Ranging.init : Ranging :=
  { eqd := 0, loopSum := 0, lastCorr := 0, lastPhase := 0, drift := 0, attempts := 0, precoder := false, preset := none, learned := false,
    learnSamp := 0, learnCount := 0, missRun := 0, phases := [], resNow := none, res := none, driftRun := 0, driftM := 0, driftFrom := 0,
    delayWait := 0, delayFrame := none, grantDue := false, twigDue := false, ranged := false }

/-- The message record of a stand that has none listed. -/
def Mail.init : Mail := 
  { slotDue := false, slotNow := false, reps := none, voidTo := none, lastSlot := none, prevSeq := none, missed := [], stamp := 0 }

/-- An epoch that holds no key. -/
def EpochSt.init : EpochSt :=
  { held := false, dsCtr := 0, dsStopped := false, usHigh := 0, usStopped := false, usFrom := 0, restored := false, peerPub := 0 }

/-- The key record of a stand that holds no key. -/
def StandKeys.init : StandKeys :=
  { epA := EpochSt.init, epB := EpochSt.init, cur := 0, ready := false, agree := .idle, target := 0, scalar := 0, tries := 0, queued := false,
    isRekey := false, retryCkpt := false, heldTrig := false, retiring := none, curFrom := 0, fails := [], grantAt := none, lastDone := none,
    dataKey := none, nextKey := none, joined := [] }

/-- A shared key not yet drawn. -/
def SharedKey.init : SharedKey :=
  { valid := false, epoch := 0, ctr := 0, stopped := false, pending := false, deliver := [], switchAt := none, eraseAt := none }

/-- A bough that the engine has not met. -/
def Bough.init : Bough :=
  { accFixed := 0, accAssur := 0, accMax := 0, entFixed := 0, entAssur := 0, entMax := 0, report := none, newRep := none, grants := [], request := 0,
    leaves := 0, predLv := 0, rateE := 0, dataRx := [], pollDue := false, pollHold := false, part := none, orphan := false }

/-- A grove that has not entered service. -/
def Grove.init : Grove :=
  { inService := false, since := 0, msgQ := [], announce := none, waiting := [], ticket := 0, done := [], rxFifo := [], inbox := [], judge := [],
    ansInbox := [], answers := [], takenSer := [], maps := [], computed := none, lastMap := none, abandoned := false, forceNow := false,
    forceNext := false, built := 0, fairPtr := 0, rotPtr := 0, clearings := [], clearAt := [], clrSeen := none, fastEvent := none, badAns := false, ansLast := 0,
    cont := none, frame := none, onAir := none, rssiArm := none, eqShadow := none, eqActive := none, capArm := false, loopDelay := 0,
    omciTx := none, omciRx := [], ploamQ := [], tally := (0, 0), lastTally := (0, 0) }

/-- The record of a grove. -/
def Dev.grove (d : Dev) (g : Nat) : Grove := d.groves.getD g Grove.init
/-- Change the record of a grove. -/
def Dev.updGrove (d : Dev) (g : Nat) (f : Grove → Grove) : Dev := { d with groves := d.groves.upd g Grove.init f }
/-- The ranging record of a stand. -/
def Dev.rngOf (d : Dev) (i : Nat) : Ranging := d.rng.getD i Ranging.init
/-- Change the ranging record of a stand. -/
def Dev.updRng (d : Dev) (i : Nat) (f : Ranging → Ranging) : Dev := { d with rng := d.rng.upd i Ranging.init f }
/-- The message record of a stand. -/
def Dev.mailOf (d : Dev) (i : Nat) : Mail := d.mail.getD i Mail.init
/-- Change the message record of a stand. -/
def Dev.updMail (d : Dev) (i : Nat) (f : Mail → Mail) : Dev := { d with mail := d.mail.upd i Mail.init f }
/-- The key record of a stand. -/
def Dev.keysOf (d : Dev) (i : Nat) : StandKeys := d.keys.getD i StandKeys.init
/-- Change the key record of a stand. -/
def Dev.updKeys (d : Dev) (i : Nat) (f : StandKeys → StandKeys) : Dev := { d with keys := d.keys.upd i StandKeys.init f }
/-- The record of a bough. -/
def Dev.bough (d : Dev) (b : Nat) : Bough := d.boughs.getD b Bough.init
/-- Change the record of a bough. -/
def Dev.updBough (d : Dev) (b : Nat) (f : Bough → Bough) : Dev := { d with boughs := d.boughs.upd b Bough.init f }
/-- A shared key: 0 to 511 a group, 512 + g the broadcast message key of grove g. -/
def Dev.sharedOf (d : Dev) (k : Nat) : SharedKey := d.shared.getD k SharedKey.init
/-- Change a shared key. -/
def Dev.updShared (d : Dev) (k : Nat) (f : SharedKey → SharedKey) : Dev := { d with shared := d.shared.upd k SharedKey.init f }

/-- An epoch of a stand's keys, 0 A and 1 B. -/
def StandKeys.ep (k : StandKeys) (e : Nat) : EpochSt := if e = 0 then k.epA else k.epB
/-- Change an epoch of a stand's keys. -/
def StandKeys.updEp (k : StandKeys) (e : Nat) (f : EpochSt → EpochSt) : StandKeys :=
  if e = 0 then { k with epA := f k.epA } else { k with epB := f k.epB }

/-! ### Modes and line units -/

/-- Whether a grove is in compatibility mode (R239). -/
def compat (c : Cfg) (g : Nat) : Bool := c.flag Fields.GRV_MODE_compat g

/-- Symbols of a tick, or upstream bit periods in compatibility mode at a rate (R163, R230). -/
def modeUnits (cpt rate : Bool) : Nat := if cpt then (if rate then 3110400 else 1555200) else 12800000

/-- Symbols of a tick, or upstream bit periods on a compatibility grove (R163, R230). -/
def tickUnits (c : Cfg) (g : Nat) : Nat := modeUnits (compat c g) (c.flag Fields.GRV_MODE_us_rate g)

/-- A keep-store record was written in the mode and at the rate of its grove (R239). -/
def recOfMode (c : Cfg) (g : Nat) (r : KeepRec) : Bool := r.compat == compat c g && modeUnits r.compat r.rate == tickUnits c g

/-- Units of a leaf. -/
def leafUnits : Nat := 256

/-- Leaves of an upstream frame (R33, R230). -/
def frameLeaves (c : Cfg) (g : Nat) : Nat := tickUnits c g / leafUnits

/-- T_loop in force on a grove (R44). -/
def tLoop (d : Dev) (g : Nat) : Nat := (d.grove g).loopDelay

/-- Whether an equalization delay can be assigned under a loop delay (R138, R147). -/
def eqdIn (c : Cfg) (g t : Nat) (e : Int) : Bool := decide (0 ≤ e) && decide (e < ((t * tickUnits c g : Nat) : Int))

/-- Whether an equalization delay can be assigned under the loop delay in force. -/
def eqdOk (c : Cfg) (d : Dev) (g : Nat) (e : Int) : Bool := eqdIn c g (tLoop d g) e

/-- Set the bit of a stand in INT_GRV_STANDS (R569). -/
def Dev.standEvent (d : Dev) (i : Nat) : Dev :=
  d.raiseBit Fields.INT_GRV_STANDS_stands (groveOf i * 8 + inGrove i / 32) (inGrove i % 32)

/-! ### Presets (R149 and GRV_RNG_PRESET0 to 2) -/

/-- A preset from its three words. -/
def presetOf (w0 w1 w2 : Nat) : Preset :=
  { ffe := ([24, 16, 8, 0].map (fun l => signed 8 (bitsOf w0 l 8))) ++ ([24, 16, 8, 0].map (fun l => signed 8 (bitsOf w1 l 8)))
    dfe := signed 8 (bitsOf w2 24 8), ctle := bitsOf w2 16 4, samp := bitsOf w2 8 6, vga := bitsOf w2 0 6 }

/-- A signed byte as it stands in a register. -/
def byteOf (v : Int) : Nat := (v % 256).toNat

/-- Word `k` of a preset. -/
def Preset.word (p : Preset) (k : Nat) : Nat :=
  if k = 2 then byteOf p.dfe * 2 ^ 24 + p.ctle % 16 * 2 ^ 16 + p.samp % 64 * 2 ^ 8 + p.vga % 64
  else ((p.ffe.drop (4 * k)).take 4).foldl (fun a v => a * 256 + byteOf v) 0

/-- The default preset of a grove (GRV_PRESET_DEF0 to 2). -/
def defPreset (c : Cfg) (g : Nat) : Preset :=
  presetOf (c.word .GRV_PRESET_DEF (3 * g)) (c.word .GRV_PRESET_DEF (3 * g + 1)) (c.word .GRV_PRESET_DEF (3 * g + 2))

/-- The preset that a stand's bursts are received under (R107, R149). -/
def presetFor (c : Cfg) (d : Dev) (i : Nat) : Preset := (d.rngOf i).preset.getD (defPreset c (groveOf i))

/-! ### Line messages before their frames (R68, R174 to R178) -/

/-- Body padded to its 46 bytes. -/
def lineMsg (ty stand : Nat) (body : List Byte) : LineMsg := { ty := ty, stand := stand, body := padTo 46 body, host := false }

/-- Types that are never keyed. -/
def neverKeyed (ty : Nat) : Bool := decide (ty ≤ 3)
/-- Types keyed after keys. -/
def afterKeys (ty : Nat) : Bool := [0x04, 0x05, 0x06, 0x07, 0x0F, 0x10].contains ty
/-- Types that are never sent unkeyed. -/
def alwaysKeyed (ty : Nat) : Bool := !(neverKeyed ty) && !(afterKeys ty)

/-- Types that wait at their source while the addressed stand rests (R408, R412); a GROUP_SET stays behind its KEY_DELIVER (R185). -/
def waitsForWake (ty : Nat) : Bool := [0x06, 0x09, 0x0A].contains ty

/-- Whether a message may be queued now, apart from room (R177). -/
def msgReady (d : Dev) (g : Nat) (m : LineMsg) : Bool :=
  if m.stand < 256 then
    let i := standId g m.stand
    !(alwaysKeyed m.ty && !((d.keysOf i).ready)) && !(waitsForWake m.ty && d.st i == .resting)
  else true

/-- Messages that a grove's queue holds (R68). -/
def msgRoom : Nat := 512

/-- Move what waits into the queue, in order, as long as there is room. -/
def pumpFrom (d : Dev) (g : Nat) : List LineMsg → List LineMsg → List LineMsg × List LineMsg
  | q, [] => (q, [])
  | q, m :: ms =>
    if msgReady d g m && decide (q.length < msgRoom) then pumpFrom d g (q ++ [m]) ms
    else
      let r := pumpFrom d g q ms
      (r.1, m :: r.2)

/-- Queue what can be queued (R68, R177). -/
def pumpMsgs (g : Nat) (d : Dev) : Dev :=
  let r := pumpFrom d g (d.grove g).msgQ (d.grove g).waiting
  d.updGrove g (fun x => { x with msgQ := r.1, waiting := r.2 })

/-- A message of the device: it takes its place in the queue, or waits at its source. A standby sends no line message (R433). -/
def sendMsg (g : Nat) (m : LineMsg) (d : Dev) : Dev :=
  if d.isStandby then d else pumpMsgs g (d.updGrove g (fun x => { x with waiting := x.waiting ++ [m] }))

/-- Queue a PLOAM message on a compatibility grove (R231). -/
def sendPloam (g : Nat) (p : Ploam) (d : Dev) : Dev := d.updGrove g (fun x => { x with ploamQ := x.ploamQ ++ [p] })

/-- A line message to a stand, or its PLOAM equivalent on a compatibility grove, if it has one (R232). -/
def tellStand (c : Cfg) (i ty : Nat) (body : List Byte) (p : Option (PloamKind × List Nat)) (d : Dev) : Dev :=
  if compat c (groveOf i) then
    match p with
    | some (k, args) => sendPloam (groveOf i) { kind := k, onu := inGrove i, args := args } d
    | none => d
  else sendMsg (groveOf i) (lineMsg ty (inGrove i) body) d

/-- Queue a delay assignment with a stand's EqD (R139, R156, R169, R171). -/
def sendDelay (c : Cfg) (i : Nat) (d : Dev) : Dev :=
  let e := (d.rngOf i).eqd
  (tellStand c i 0x04 (toBytesBE 4 e) (some (.rangingTime, [e])) d).updRng i (fun r => { r with delayWait := r.delayWait + 1 })

/-- A signed number as 4 bytes. -/
def bytesOfInt (v : Int) : List Byte := toBytesBE 4 (v % 2 ^ 32).toNat

/-- Apply a correction to a stand's EqD and queue it (R142, R145, R148). A correction that would take EqD out of its range is refused, counted and
raised (R147). The answer says whether it was made. -/
def correct (c : Cfg) (i : Nat) (phi : Int) (d : Dev) : Dev × Bool :=
  let r := d.rngOf i
  let e := (r.eqd : Int) - phi
  if eqdOk c d (groveOf i) e then
    let d := d.updRng i (fun r => { r with eqd := e.toNat, loopSum := tLoop d (groveOf i) * tickUnits c (groveOf i) - e.toNat, lastCorr := -phi, drift := r.drift - phi, delayWait := r.delayWait + 1 })
    (tellStand c i 0x05 (bytesOfInt (-phi)) (some (.rangingTime, [e.toNat])) d, true)
  else
    (((d.count .stand .eqdRange i).count .grove .eqdRange (groveOf i)).raise Fields.INT_GRV_CAUSE_eqd_range (groveOf i), false)

/-! ### Keys and slots (R404, R405) -/

/-- The key-store slot of an epoch of a stand. -/
def slotOf (i e : Nat) : Nat := 3 * i + e

/-- The slot of a shared key's epoch. -/
def sharedSlot (k e : Nat) : Nat := if k < 512 then 49280 + 2 * k + e else 49152 + 2 * (k - 512) + e

/-- The ASCII bytes of a label. -/
def ascii (s : String) : List Byte := s.toList.map (fun ch => BitVec.ofNat 8 ch.toNat)

/-- A working key of a stand's epoch, derived from its secret (R405). -/
def workKey (d : Dev) (i e : Nat) (label : String) : Nat := Config.hkdfExpand (d.slots.getD (slotOf i e) 0) (ascii label)

/-- A key of an ONU (R238): derived from its master session key where a blob is installed, else by the default derivation. -/
def compatKey (d : Dev) (i which : Nat) : Nat :=
  match d.slots.get? (3 * i + 2) with
  | some msk => Config.g9804Key msk which
  | none => Config.g9804Default which (d.lifeOf i).serial

/-- The key-encryption key of a compatibility stand. -/
def compatKek (d : Dev) (i : Nat) : Nat := compatKey d i 0

/-- The integrity check of a PLOAM message that is sent to an ONU, or to all of them (R231). -/
def Ploam.check (d : Dev) (g : Nat) (p : Ploam) : Nat :=
  Config.ploamMic (if p.onu < 256 then compatKey d (standId g p.onu) 1 else Config.g9804Default 1 0) p.kind.ctorIdx p.onu p.args

/-- The codes under which upstream PLOAM messages are checked: Serial_Number_ONU, Registration, Acknowledge and Key_Report. -/
def upSerial : Nat := 16
def upRegistration : Nat := 17
def upAcknowledge : Nat := 18
def upKeyReport : Nat := 19

/-- The integrity check that an ONU's message should carry (R231). -/
def ploamCheck (d : Dev) (i code : Nat) (args : List Nat) : Nat := Config.ploamMic (compatKey d i 1) code (inGrove i) args

/-- The integrity check of a Serial_Number_ONU: its ONU has no ONU-ID yet. -/
def serialCheck (serial delay : Nat) : Nat := Config.ploamMic (Config.g9804Default 1 serial) upSerial 0x3FF [serial, delay]

/-- The integrity check of an OMCI message to or from an ONU (R237). -/
def omciCheck (d : Dev) (i : Nat) (bs : List Byte) : Nat := Config.omciMic (compatKey d i 2) bs % 2 ^ 32

/-- The slot of a data key index on a compatibility grove. -/
def dataSlot (i index : Nat) : Nat := slotOf i ((index + 1) % 2)

/-- XGEM payloads of a stand under its data key in frame `f` (R227, R238): in clear while none is loaded. -/
def xgemText (d : Dev) (i f b : Nat) (bs : List Byte) : List Byte :=
  match (d.keysOf i).dataKey with
  | some k => padTo bs.length (Config.xgemCipher (d.slots.getD (dataSlot i k) 0) f b bs)
  | none => bs

/-- Erase a slot and what is kept with it. -/
def Dev.eraseSlot (d : Dev) (s : Nat) : Dev :=
  { d with slots := d.slots.erase s, slotMeta := d.slotMeta.erase s, ceil := d.ceil.erase s }

/-- Write a slot. -/
def Dev.writeSlot (d : Dev) (s v usage : Nat) : Dev :=
  { d with slots := d.slots.put s v, slotMeta := d.slotMeta.put s { usage := usage, len := 32, ok := true } }

/-- The raise of a ceiling (R401). -/
def ceilStep : Nat := 2 ^ 32

/-- The key of a bough's record for an epoch of a stand (R402): a bough that comes to another stand has other records there. -/
def upRec (i b e : Nat) : Nat := (i * 65536 + b) * 2 + e

/-- Erase an epoch of a stand: slot, record and the last counters of every bough that has had the stand's packets (R402, R410). -/
def eraseEpoch (i e : Nat) (d : Dev) : Dev :=
  let d := (d.eraseSlot (slotOf i e)).updKeys i (fun k => k.updEp e (fun _ => EpochSt.init))
  { d with lastCtr := d.lastCtr.filter (fun x => !(x.1 / 2 ^ 17 == i && x.1 % 2 == e)) }

/-- Write a stand's keep-store record (R154). -/
def keepWrite (c : Cfg) (i : Nat) (d : Dev) : Dev :=
  let r := d.rngOf i
  let k := d.keysOf i
  { d with keep := d.keep.put i (
      { serial := (d.lifeOf i).serial, eqd := r.eqd, tloop := tLoop d (groveOf i), preset := presetFor c d i, learned := r.learned
        precoder := r.precoder, current := if k.ready then some k.cur else none, epochA := k.epA.held, epochB := k.epB.held, sfc := d.sfc
        compat := compat c (groveOf i), rate := c.flag Fields.GRV_MODE_us_rate (groveOf i), crcOk := true } : KeepRec) }

/-- Rewrite an existing keep-store record so that it names no epoch (R154). -/
def keepNoEpoch (i : Nat) (d : Dev) : Dev :=
  match d.keep.get? i with
  | some r => { d with keep := d.keep.put i { r with current := none, epochA := false, epochB := false, sfc := d.sfc } }
  | none => d

/-- The epoch that an agreement of a stand targets (R406). -/
def StandKeys.nextTarget (k : StandKeys) : Nat := if k.epA.held then (if k.epB.held && k.cur == 1 then 0 else 1) else 0

/-- Start an agreement of a stand (R407, R409): nothing while one runs; held while a former epoch retires; else it takes its place in the key
engine's queue (R24). -/
def startAgreement (i : Nat) (rekey : Bool) (d : Dev) : Dev :=
  let k := d.keysOf i
  if k.queued || k.agree == .offered || k.agree == .answered then d
  else if k.retiring.isSome then d.updKeys i (fun k => { k with heldTrig := true })
  else
    let d := d.updKeys i (fun k =>
      { k with queued := true, agree := .idle, isRekey := rekey, tries := 0, retryCkpt := false,
               target := if k.ready then 1 - k.cur else k.nextTarget })
    { d with keng := { d.keng with queue := d.keng.queue ++ [i] } }

/-- Abandon an agreement of a stand and erase the epoch that it half installed (R418): the record names it no longer (R154). -/
def abandonAgreement (c : Cfg) (i : Nat) (d : Dev) : Dev :=
  let k := d.keysOf i
  let d := if k.agree == .answered then keepWrite c i (eraseEpoch i k.target d) else d
  let d := d.updKeys i (fun k => { k with queued := false, agree := .idle, scalar := 0, tries := 0, retryCkpt := false, grantAt := none })
  { d with keng := { d.keng with queue := d.keng.queue.filter (fun j => !(j == i)) } }.disarm .key i |>.updGrove (groveOf i)
    (fun x => { x with waiting := x.waiting.filter (fun m => !(m.ty == 0x06 && m.stand == inGrove i)) })

/-- Release a stand's key slots (R172, R423) and rewrite its record (R154). A message in the grove's queue stays there (R68). -/
def eraseKeys (i : Nat) (d : Dev) : Dev :=
  let d := eraseEpoch i 1 (eraseEpoch i 0 d)
  let d := (d.eraseSlot (3 * i + 2)).updKeys i (fun k => { StandKeys.init with joined := k.joined })
  keepNoEpoch i d

/-- Whether a stand's keys are in place (R407, R238). -/
def keysInPlace (c : Cfg) (d : Dev) (i : Nat) : Bool :=
  (d.keysOf i).ready || (compat c (groveOf i) && c.flag Fields.GRV_CPT_CTRL_clear_ok (groveOf i))

/-! ### Shared keys (R412) -/

/-- The shared key of a grove's broadcast messages. -/
def bcastKey (g : Nat) : Nat := 512 + g

/-- A shared key has been drawn: it is in use, or will be (R412). -/
def SharedKey.drawn (s : SharedKey) : Bool := s.valid || s.pending

/-- The epoch of the newest key: beside the one in use, where there is one (R412). -/
def SharedKey.newEpoch (s : SharedKey) : Nat := if s.pending && s.valid then 1 - s.epoch else s.epoch

/-- The KEY_DELIVER of a shared key's newest epoch as it waits for its frame: kind, group and epoch. The key is wrapped when the message is placed (R405, R412). -/
def deliverBody (d : Dev) (k : Nat) : List Byte :=
  toBytesBE 1 (if k < 512 then 1 else 0) ++ toBytesBE 2 (if k < 512 then k else 0) ++ toBytesBE 1 (d.sharedOf k).newEpoch

/-- The shared key that a waiting KEY_DELIVER of a grove names. -/
def deliverNames (g : Nat) (m : LineMsg) : Nat :=
  if ofBytesBE (m.body.take 1) = 1 then ofBytesBE ((m.body.drop 1).take 2) else bcastKey g

/-- The body of a KEY_DELIVER that is placed: the key goes wrapped under the KEK of the stand's current epoch (R177, R405). -/
def wrappedBody (d : Dev) (g : Nat) (m : LineMsg) : List Byte :=
  let i := standId g m.stand
  let e := ofBytesBE ((m.body.drop 3).take 1)
  m.body.take 4 ++ toBytesBE 40 (Config.keyWrap (workKey d i (d.keysOf i).cur "KEK") (d.slots.getD (sharedSlot (deliverNames g m) e) 0))

/-- Queue a delivery of a shared key to a stand; on a compatibility grove it goes wrapped under the member's key-encryption key (R238). -/
def deliverKey (c : Cfg) (k i : Nat) (d : Dev) : Dev :=
  let e := (d.sharedOf k).newEpoch
  tellStand c i 0x09 (deliverBody d k) (some (.keyControl, [2, k, e, Config.keyWrap (compatKek d i) (d.slots.getD (sharedSlot k e) 0)])) d

/-- The stands that need a shared key: the ACTIVE and RESTING stands of the grove, or the members of the group. -/
def needKey (c : Cfg) (d : Dev) (k : Nat) : List Nat :=
  (d.life.map Prod.fst).filter (fun i =>
    (d.st i == .active || d.st i == .resting) && (if k < 512 then memberBit c i k else groveOf i == k - 512))

/-- Draw a new key for a group or a grove's broadcast messages and deliver it (R412): also the first one is used only 16 ticks behind its last delivery, and a key drawn
while another waits for its use takes that one's place. Nothing is drawn while the random source has failed (R397). -/
def drawShared (c : Cfg) (k : Nat) (d : Dev) : Dev :=
  if d.rngGood then
    let s := d.sharedOf k
    let e := if s.valid then 1 - s.epoch else 0
    let (v, d) := d.draw (2 ^ 256)
    let d := d.writeSlot (sharedSlot k e) v 0
    let dest := needKey c d k
    let d := d.updShared k (fun s =>
      { s with pending := true, epoch := if s.valid then s.epoch else 0, deliver := dest, eraseAt := none
               switchAt := if dest.isEmpty then some (d.sfc + 16) else none })
    let d := { d with ceil := d.ceil.put (sharedSlot k e) ceilStep }
    dest.foldl (fun d i => deliverKey c k i d) d
  else d

/-- A stand is among those that a key is being delivered to. -/
def addDeliver (k i : Nat) (d : Dev) : Dev :=
  if (d.sharedOf k).pending then d.updShared k (fun s => { s with deliver := s.deliver ++ [i], switchAt := none }) else d

/-- A stand leaves the deliveries of every shared key: it is no longer ACTIVE or RESTING. -/
def undeliver (i : Nat) (d : Dev) : Dev :=
  { d with shared := d.shared.mapVals (fun _ s =>
      let rest := s.deliver.filter (fun j => !(j == i))
      { s with deliver := rest
               switchAt := if s.pending && s.switchAt.isNone && s.deliver.contains i && rest.isEmpty then some (d.sfc + 16) else s.switchAt }) }

/-! ### Transitions (R165, R189) -/

/-- A stand is in a state from the edge in progress on. -/
def moveTo (i : Nat) (st : StandSt) (d : Dev) : Dev := d.updLife i (fun l => { l with st := st, lastTrans := some d.sfc })

/-- A stand has taken no transition at this edge (R189). -/
def canMove (d : Dev) (i : Nat) : Bool := !((d.lifeOf i).lastTrans == some d.sfc) && !(d.isStandby)

/-- The failures of a stand in the window that this edge judges (R403). -/
def tagFails (c : Cfg) (d : Dev) (i : Nat) : Nat :=
  ((d.keysOf i).fails.filter (fun t => decide (d.sfc ≤ t + c.get Fields.KEY_TF_tf_window 0) && decide (t < d.sfc))).length

/-- The tag-failure rule applies to a stand at this edge (R403). -/
def silenceDue (c : Cfg) (d : Dev) (i : Nat) : Bool :=
  !(d.st i == .absent) && !(d.st i == .silenced) && decide (c.get Fields.KEY_TF_tf_limit 0 ≤ tagFails c d i)

/-- A good DYING_GASP of an ACTIVE or RESTING stand waits to be judged. -/
def gaspDue (d : Dev) (i : Nat) : Bool :=
  (d.st i == .active || d.st i == .resting) && (d.grove (groveOf i)).judge.any (fun m => m.ty == 0x11 && m.stand == i)

/-- A transition other than to ABSENT or SILENCED may be taken at this edge (R189). -/
def mayMove (c : Cfg) (d : Dev) (i : Nat) : Bool := canMove d i && !(silenceDue c d i) && !(gaspDue d i)

/-- The timers of a stand. -/
def stopTimers (i : Nat) (d : Dev) : Dev :=
  [TimerKind.disc, .rng, .reacq, .lost, .silence, .key, .rekeyInt, .retire].foldl (fun d k => d.disarm k i) d

/-- An OMCI message that waits for a stand which leaves ACTIVE is discarded, and its buffer is free (R241). -/
def dropOmci (i : Nat) (d : Dev) : Dev :=
  match (d.grove (groveOf i)).omciTx with
  | some (j, _) => if j = i then (d.updGrove (groveOf i) (fun x => { x with omciTx := none })).count .grove .omciTxDiscard (groveOf i) else d
  | none => d

/-- The stand is no longer granted, served or ranged: what hangs on its former state ends. The number of its last burst is forgotten too: a burst without a former
one counts no gap (R116; DESIGN CHOICE, log 92). -/
def clearStand (i : Nat) (d : Dev) : Dev :=
  let d := dropOmci i d
  let d := d.updRng i (fun r =>
    { r with attempts := 0, res := none, resNow := none, phases := [], driftRun := 0, grantDue := false, twigDue := false, ranged := false,
             missRun := 0 })
  let d := d.updMail i (fun m => { m with slotDue := false, slotNow := false, reps := none, lastSlot := none, prevSeq := none, missed := [] })
  { d with wheels := d.wheels.erase i }

/-- The stand's bursts of the frames whose maps are sealed are discarded when they come (R117). -/
def voidSealed (i : Nat) (d : Dev) : Dev := d.updMail i (fun m => { m with voidTo := some d.sfc })

/-- Entry to ABSENT (R172): flush, timers, key slots, record. `hold` keeps the keys until the DEREGISTER message has been placed. -/
def enterAbsent (c : Cfg) (i : Nat) (hold : Bool) (d : Dev) : Dev :=
  let d := stopTimers i (flushStand c i d)
  let d := abandonAgreement c i d
  let d := if hold then d else eraseKeys i d
  let d := d.updGrove (groveOf i) (fun x =>
    { x with waiting := x.waiting.filter (fun m => !(m.stand == inGrove i && alwaysKeyed m.ty)), fastEvent := some d.sfc })
  let d := (moveTo i .absent (voidSealed i (clearStand i d))).updLife i (fun l => { l with rest := [], cmds := [], deregMsg := hold })
  dropOrphanReplicas c (groveOf i) (undeliver i (d.set Fields.STD_STATE_tag_silenced i 0))

/-- Entry to SILENCED (R170). -/
def enterSilenced (c : Cfg) (i : Nat) (byTags : Bool) (d : Dev) : Dev :=
  let d := flushStand c i d
  let d := [TimerKind.disc, .rng, .reacq, .lost].foldl (fun d k => d.disarm k i) d
  let d := abandonAgreement c i d
  let d := moveTo i .silenced (voidSealed i (clearStand i d))
  let d := dropOrphanReplicas c (groveOf i) (undeliver i d)
  let d := tellStand c i 0x0F (toBytesBE 1 (if byTags then 2 else 1)) (some (.disableSerial, [(d.lifeOf i).serial])) d
  if byTags then
    let d := (d.set Fields.STD_STATE_tag_silenced i 1).standEvent i
    if c.get Fields.GRV_STD_SILENCE_T_silence_ticks (groveOf i) = 0 then d else d.armNow .silence i
  else d

/-- Entry to RANGING (R139, R169, R171): the delay assignment is queued (on a compatibility grove Ranging_Time waits until the stand is ranged, R232)
and the ranging grant is due. -/
def enterRanging (c : Cfg) (i : Nat) (timer : TimerKind) (d : Dev) : Dev :=
  let d := (dropOrphanReplicas c (groveOf i) (moveTo i .ranging d)).updRng i (fun r => { r with attempts := 0, ranged := false, grantDue := true, twigDue := false, res := none })
  let d := if compat c (groveOf i) then d else sendDelay c i d
  d.armNow timer i

/-- Keys of a stand are requested (R139, R171, R409): by an agreement, or on a compatibility grove by a Key_Control that asks for the data key of the index that is not in
use (R238). -/
def askKeys (c : Cfg) (i : Nat) (rekey : Bool) (d : Dev) : Dev :=
  if compat c (groveOf i) then
    sendPloam (groveOf i) { kind := .keyControl, onu := inGrove i, args := [0, if (d.keysOf i).dataKey = some 1 then 2 else 1] } d
  else startAgreement i rekey d

/-- The keys of a stand that ranges are requested (R139, R171, R238). -/
def requestKeys (c : Cfg) (i : Nat) (d : Dev) : Dev := askKeys c i false d

/-- A stand of a compatibility grove that ranges without a new discovery is asked to register again (R227, R231; DESIGN CHOICE, log 93). -/
def askRegistration (c : Cfg) (i : Nat) (d : Dev) : Dev :=
  if compat c (groveOf i) then sendPloam (groveOf i) { kind := .requestRegistration, onu := inGrove i, args := [] } d else d

/-- A stand leaves SILENCED (R171). -/
def leaveSilenced (c : Cfg) (i : Nat) (d : Dev) : Dev :=
  let d := askRegistration c i (enterRanging c i .rng ((d.disarm .silence i).set Fields.STD_STATE_tag_silenced i 0))
  let d := d.updKeys i (fun k => { k with fails := [] })
  if keysInPlace c d i then d else requestKeys c i d

/-- Entry to ACTIVE (R143, R165): the record is written, the watchdog armed, and a stand whose keys came from the keep store rekeys (R409). It receives
the shared keys that it needs (R412). -/
def enterActive (c : Cfg) (i : Nat) (d : Dev) : Dev :=
  let d := (((moveTo i .active d).disarm .rng i).disarm .reacq i).armNow .lost i
  let d := d.updRng i (fun r => { r with drift := 0, driftRun := 0, grantDue := false, attempts := 0 })
  let d := d.updKeys i (fun k => { k with grantAt := none })
  let d := keepWrite c i d
  let d := if (((d.keysOf i).ep (d.keysOf i).cur).restored) then startAgreement i true d else d
  let ks := (d.shared.filter (fun p => p.2.drawn && (if p.1 < 512 then memberBit c i p.1 else p.1 == bcastKey (groveOf i)))).map Prod.fst
  ks.foldl (fun d k => deliverKey c k i (addDeliver k i d)) d

/-- A RANGING stand that is ranged and has its keys becomes ACTIVE, unless another transition comes first at this edge (R143, R189). -/
def tryActive (c : Cfg) (i : Nat) (d : Dev) : Dev :=
  if d.st i == .ranging && (d.rngOf i).ranged && keysInPlace c d i && mayMove c d i then enterActive c i d else d

end Sys2Proof.Machine
end

