-- ==== Sys2Proof/Machine/SliceCfg.lean ====
section
/-!
DEFINITION. What the configuration says of hard slices (R245 to R248): enabled slices, their slots, their twigs, the committed leaves and
slots, and the clearings that the same leaves bound (R127, R129, R131).
-/

namespace Sys2Proof.Machine

/-! ### Slices (R245 to R247) -/

/-- The slices that are enabled, in ascending number. -/
def enabledSlices (c : Cfg) : List Nat :=
  (c.listed .SLC_SL_CTRL).filterMap (fun p => if c.flag Fields.SLC_SL_CTRL_en p.1 then some p.1 else none)

/-- Whether a slice is upstream. -/
def sliceUp (c : Cfg) (s : Nat) : Bool := c.flag Fields.SLC_SL_CTRL_dir s
/-- The stand of a slice. -/
def sliceStand (c : Cfg) (s : Nat) : Nat := c.get Fields.SLC_SL_CTRL_stand s
/-- The grove of a slice. -/
def sliceGrove (c : Cfg) (s : Nat) : Nat := groveOf (sliceStand c s)
/-- The slots of a slice. -/
def sliceN (c : Cfg) (s : Nat) : Nat := c.get Fields.SLC_SL_SLOTS_n s
/-- The first slot of a slice. -/
def sliceFirst (c : Cfg) (s : Nat) : Nat := c.get Fields.SLC_SL_SLOTS_first s
/-- The bough of an upstream slice. -/
def sliceBough (c : Cfg) (s : Nat) : Nat := c.get Fields.SLC_SL_UP_bough s

/-- The payload of a slice twig: the smallest value of at least 2 with D(p) ≥ 64 n (R247). -/
def slicePayload (n : Nat) : Nat :=
  20 * (64 * n / 1160) + (if 64 * n % 1160 = 0 then 0 else min 20 ((64 * n % 1160 + 120 + 63) / 64))

/-- The length of a slice twig (R247). -/
def sliceTwigLen (c : Cfg) (s : Nat) : Nat := slicePayload (sliceN c s) + 19

/-- The enabled slices of a grove in a direction. -/
def slicesOf (c : Cfg) (g : Nat) (up : Bool) : List Nat :=
  (enabledSlices c).filter (fun s => sliceGrove c s == g && sliceUp c s == up)

/-- Whether a stand carries a slice of either direction (R245). -/
def carriesSlice (c : Cfg) (i : Nat) : Bool := (enabledSlices c).any (fun s => sliceStand c s == i)

/-- Whether a bough carries an upstream slice: its fixed_pos flag (R194, R247). -/
def fixedPos (c : Cfg) (b : Nat) : Bool := (enabledSlices c).any (fun s => sliceUp c s && sliceBough c s == b)

/-- The map entry of a slice twig (R247). -/
def sliceEntry (c : Cfg) (s : Nat) : MapEntry :=
  { kind := .slice s, stand := inGrove (sliceStand c s), start := c.get Fields.SLC_SL_UP_start_leaf s, len := sliceTwigLen c s, cls := 1, rpt := false
    msg := false
    runs := [{ idx := boughIdx c (sliceBough c s), len := slicePayload (sliceN c s), bough := sliceBough c s, granted := slicePayload (sliceN c s) }] }

/-- The slice twigs of a grove, in ascending start leaf. -/
def sliceTwigs (c : Cfg) (g : Nat) : List MapEntry := sortEntries ((slicesOf c g true).map (sliceEntry c))

/-- The slice twigs that a map carries: those whose stand is ACTIVE (R247). -/
def activeSlices (c : Cfg) (d : Dev) (g : Nat) : List MapEntry := (sliceTwigs c g).filter (fun e => d.st (standId g e.stand) == .active)

/-- Set a bough FIXED with a rate, as the slice interchange does (R247, R248). -/
def fixBough (b rate : Nat) (c : Cfg) : Cfg := (c.set Fields.BGH_CTRL_type b 0).set Fields.BGH_FIXED_fixed b rate

/-- What an enabled upstream slice lays down for its bough: the bough and its payload leaves. -/
def sliceHold (c : Cfg) (s : Nat) : Option (Nat × Nat) :=
  if c.flag Fields.SLC_SL_CTRL_en s && sliceUp c s then some (sliceBough c s, slicePayload (sliceN c s)) else none

/-- Upstream slices that become enabled, or change while they are disabled and enabled again in one commit, set their boughs' leaves; those that cease leave them at
zero (R247, R248). -/
def sliceBinds (old new : Cfg) : Cfg :=
  let off := (enabledSlices old).filterMap (fun s => if sliceHold old s = sliceHold new s then none else sliceHold old s)
  let on := (enabledSlices new).filterMap (fun s => if sliceHold old s = sliceHold new s then none else sliceHold new s)
  on.foldl (fun c p => fixBough p.1 (256 * p.2) c) (off.foldl (fun c p => fixBough p.1 0 c) new)

/-! ### The committed sum and the capacity (R196) -/

/-- A rate field rounded up to whole leaves. -/
def ceilRate (r : Nat) : Nat := (r + 255) / 256

/-- The bough's part of U (R196): a bough that carries a slice has none. -/
def commitOf (c : Cfg) (b : Nat) : Nat :=
  if fixedPos c b then 0
  else if c.get Fields.BGH_CTRL_type b = 0 then ceilRate (c.get Fields.BGH_FIXED_fixed b)
  else ceilRate (c.get Fields.BGH_ASSURED_assured b)

/-- The committed sum U of a grove (R196). -/
def assureUsed (c : Cfg) (g : Nat) : Nat :=
  ((boughsOfGrove c g).map (commitOf c)).sum

/-- What the slices of a grove take from its capacity: L_s + 24 n_s. -/
def sliceCost (c : Cfg) (g : Nat) : Nat := ((sliceTwigs c g).map (fun e => e.len + 24)).sum

/-- The capacity K of a grove (R196, R236). -/
def assureCap (c : Cfg) (g : Nat) : Nat :=
  if compat c g then (if c.flag Fields.GRV_MODE_us_rate g then 9720 else 4860) else 39755 - sliceCost c g

/-! ### Clearings (R126 to R132, R233) -/

/-- The length of a clearing or quiet window in ticks. -/
def clrLen (c : Cfg) (g : Nat) : Nat :=
  if compat c g then c.get Fields.GRV_CPT_QUIET_quiet_len g else c.get Fields.GRV_CLEARING_CTRL_clr_len g
/-- The differential reach. -/
def clrDiff (c : Cfg) (g : Nat) : Nat :=
  if compat c g then c.get Fields.GRV_CPT_QUIET_diff_km g else c.get Fields.GRV_CLEARING_CTRL_diff_km g
/-- The shortest reach. -/
def clrReach (c : Cfg) (g : Nat) : Nat :=
  if compat c g then c.get Fields.GRV_CPT_QUIET_reach_min_km g else c.get Fields.GRV_CLEARING_CTRL_reach_min_km g
/-- Whether clearings are held. -/
def clrEn (c : Cfg) (g : Nat) : Bool :=
  if compat c g then c.flag Fields.GRV_CPT_QUIET_sn_en g else c.flag Fields.GRV_CLEARING_CTRL_clr_en g

/-- Leaves of the serial-number burst of a compatibility grove: profile 0's overhead and 4 leaves (R233). -/
def snLeaves (c : Cfg) (g : Nat) : Nat := Config.burstOverhead (c.get Fields.GRV_CPT_PROFILE_profile (4 * g)) + 4

/-- Whether a discovery window that begins at leaf `s0` fits (R129, R233). -/
def windowFits (c : Cfg) (g s0 len diff : Nat) : Bool :=
  if compat c g then
    let fast := c.flag Fields.GRV_MODE_us_rate g
    decide (s0 + (if fast then 4666 else 2333) + snLeaves c g + (if fast then 972 else 486) * diff ≤ frameLeaves c g * len)
  else decide (s0 + 19270 + 4000 * diff ≤ 50000 * len)

/-- The fibre reach of a loop delay in km (R44). -/
def fibreReach (t : Nat) : Nat := if t = 4 then 46 else if t = 5 then 59 else if t = 6 then 71 else if t = 7 then 84 else 96

/-- The lowest leaf that begins 70 leaves not covered by a slice twig (R127). -/
def discStart (slices : List MapEntry) : Nat :=
  slices.foldl (fun s e => if e.start < s + 70 ∧ s < e.start + e.len then e.start + e.len else s) 0

/-- The discovery delay EqD_disc (R128). -/
def discDelay (c : Cfg) (d : Dev) (g : Nat) : Nat :=
  let u := tickUnits c g
  tLoop d g * u - u * 35 / 125 - clrReach c g * (u * 10 / 125)

/-- The fast condition of R131. Every change of what it reads falls at a commit edge. -/
def clrFast (c : Cfg) (d : Dev) (g : Nat) : Bool :=
  (d.standsOf g).any (fun i => d.st i == .discovered || d.st i == .ranging) ||
    (match (d.grove g).fastEvent with
     | some e => decide (d.sfc < e + c.get Fields.GRV_CLR_HOLD_fast_hold g)
     | none => false)

/-- The interval between clearings in force (R131). -/
def clrInterval (c : Cfg) (d : Dev) (g : Nat) : Nat :=
  if clrFast c d g then c.get Fields.GRV_CLR_FAST_fast_ticks g else c.get Fields.GRV_CLR_SLOW_slow_ticks g

/-- Whether R131 starts a clearing at upstream frame `k`. -/
def clrScheduled (c : Cfg) (d : Dev) (g k : Nat) : Bool :=
  clrEn c g && k % clrInterval c d g == g * (clrInterval c d g / 64)

/-- The first frame from `k` at which R131 starts a clearing. -/
def clrNextFrom (c : Cfg) (d : Dev) (g k : Nat) : Nat :=
  let iv := clrInterval c d g
  k + (g * (iv / 64) + iv - k % iv) % iv

/-- Whether a clearing covers a frame. -/
def Clearing.covers (x : Clearing) (f : Nat) : Bool := decide (x.frame ≤ f) && decide (f < x.frame + x.len)

/-- The clearing that covers a frame, if one was begun. -/
def clearingAt (d : Dev) (g f : Nat) : Option Clearing := (d.grove g).clearings.find? (fun x => x.covers f)

/-- The discovery entry (R127). -/
def discEntry (s0 : Nat) : MapEntry :=
  { kind := .discovery, stand := 0x1FF, start := s0, len := 70, cls := 3, rpt := false, msg := true, runs := [⟨0, 3, 65536, 0⟩] }

/-- The serial-number grant of a quiet window (R233): profile 0's overhead, and 4 leaves for the burst header and the Serial_Number_ONU. -/
def serialEntry (c : Cfg) (g s0 : Nat) : MapEntry :=
  { kind := .discovery, stand := 0x1FF, start := s0, len := snLeaves c g, cls := 3, rpt := false, msg := true, runs := [⟨0, 4, 65536, 0⟩] }

/-- A clearing or quiet window begins at frame `k`, or is skipped (R126, R128, R130, R131). The place of every enabled slice counts as covered when s0 is chosen, one
whose stand is not ACTIVE among them (R127; DESIGN CHOICE, log 92). One that clear_now has placed begins although clr_en has committed to 0 meanwhile, and is skipped
and counted like a scheduled one where its window does not fit (R130, R131, R132; DESIGN CHOICE, log 96). -/
def clearingFrom (c : Cfg) (g k : Nat) (d : Dev) : Dev :=
  let x := d.grove g
  if x.inService && (clrScheduled c d g k || x.clearAt.contains k) && !(x.clrSeen == some k) && (clearingAt d g k).isNone then
    let d := d.updGrove g (fun x => { x with clrSeen := some k, clearAt := x.clearAt.filter (fun f => decide (k < f)) })
    let s0 := discStart (sliceTwigs c g)
    if windowFits c g s0 (clrLen c g) (clrDiff c g) && (compat c g || decide (0 < c.get Fields.GRV_DS_CTRL_msg_max g)) then
      let cl : Clearing := { frame := k, len := clrLen c g, s0 := s0, eqdDisc := discDelay c d g, diffKm := clrDiff c g, answers := 0
                             compat := compat c g, tloop := tLoop d g, resume := none }
      let m := lineMsg 0x01 0x1FF (toBytesBE 4 cl.eqdDisc ++ toBytesBE 1 cl.len ++ toBytesBE 2 19200)
      (d.updGrove g (fun x => { x with clearings := cl :: x.clearings, announce := if cl.compat then none else some m })).count
        .grove .clearings g
    else d.count .grove .clrSkipped g
  else d

/-- The clearing whose first map is that of the frame `sfc + 1`. -/
def clearing (c : Cfg) (g : Nat) (d : Dev) : Dev := clearingFrom c g (d.sfc + 1) d

/-- CLEARING. -/
def execClearing (g : Fin 64) (s : State) : Outcome := onDev (fun c d => clearing c g d) s

end Sys2Proof.Machine
end

