-- ==== Sys2Proof/Machine/Lifecycle.lean ====
section
/-!
DEFINITION. The lifecycle of stands (spec files 05, 06 and 08): discovery, admission, ranging, timers, drift, presets, rest, messages of the
terminals, and membership changes.
-/

namespace Sys2Proof.Machine

/-! ### Discovery (R137, R138, R233, R242) -/

/-- The ABSENT positions of a grove. -/
def absentAt (d : Dev) (g : Nat) : List Nat := ((List.range 256).map (standId g)).filter (fun i => d.st i == .absent)

/-- The position whose record of the grove's mode is oldest, the lowest of those. A record of the other mode is erased by the forget command alone (R239). -/
def oldestRecord (d : Dev) (cpt : Bool) (is : List Nat) : Option Nat :=
  (is.filter (fun i => ((d.keep.get? i).map KeepRec.compat) == some cpt)).foldl (fun best i =>
    match best, d.keep.get? i with
    | some b, some r => if r.sfc < ((d.keep.get? b).map KeepRec.sfc).getD 0 then some i else some b
    | none, _ => some i
    | some b, none => some b) none

/-- The position that a serial gets (R137, step 2): its former one, else the lowest without a record, else the one with the oldest record. -/
def choosePosition (c : Cfg) (d : Dev) (g serial : Nat) : Option Nat :=
  let free := absentAt d g
  let own := fun (r : KeepRec) => r.serial == serial && r.compat == compat c g
  match free.find? (fun i => ((d.keep.get? i).map own) == some true) with
  | some i => some i
  | none =>
    match free.find? (fun i => (d.keep.get? i).isNone) with
    | some i => some i
    | none => oldestRecord d (compat c g) free

/-- Leaves from the start of an answer's twig to its delimiter leaf (R138). -/
def answerLead (c : Cfg) (g : Nat) : Nat :=
  if compat c g then Config.burstOverhead (c.get Fields.GRV_CPT_PROFILE_profile (4 * g)) else 66

/-- A stand enters DISCOVERED (R137, R138, R165). What its position's record holds of presets is not taken: it starts with no preset of its own and none learned
(R149; DESIGN CHOICE, log 92). -/
def enterDiscovered (c : Cfg) (i serial eqd loop : Nat) (precoder : Bool) (d : Dev) : Dev :=
  let g := groveOf i
  let d := if ((d.keep.get? i).map KeepRec.serial) == some serial then d else { d with keep := d.keep.erase i }
  let d := (moveTo i .discovered d).updLife i (fun l => { l with serial := serial, discEdge := d.sfc, rest := [], cmds := [] })
  let d := { d with rng := d.rng.put i { Ranging.init with eqd := eqd, loopSum := loop - eqd, precoder := precoder } }
  let d := if compat c g then sendPloam g { kind := .assignOnuId, onu := inGrove i, args := [serial] } d
    else sendMsg g (lineMsg 0x03 0x1FF (toBytesBE 8 serial ++ toBytesBE 2 (inGrove i))) d
  d.armNow .disc i

/-- The good answers of the last clearing whose frames have all been received by edge `n` (R163). -/
def lastAnswers (n : Nat) (x : Grove) : Grove :=
  { x with ansLast := (((x.clearings.filter (fun k => decide (k.frame + k.len + k.tloop ≤ n))).getLast?).map Clearing.answers).getD x.ansLast }

/-- Judge a good discovery answer (R137, R138). An answer that is discarded for its range or for want of a position is taken all the same: a second one of its serial
at this edge is a duplicate (DESIGN CHOICE, log 92). A position that has become ABSENT at this edge takes no second transition (R189). -/
def judgeAnswer (c : Cfg) (g : Nat) (a : Answer) (d : Dev) : Dev :=
  let d := (d.count .grove .discAnswers g).updGrove g (fun x =>
    lastAnswers d.sfc { x with
      fastEvent := some d.sfc
      clearings := x.clearings.map (fun y => if y.covers a.frame then { y with answers := y.answers + 1 } else y) })
  let taken := (d.standsOf g).any (fun i => !(d.st i == .absent) && (d.lifeOf i).serial == a.serial)
  if taken || (d.grove g).takenSer.contains a.serial then
    (d.count .grove .discDup g).raise Fields.INT_GRV_CAUSE_dup_serial g
  else
    match clearingAt d g a.frame with
    | none => d
    | some cl =>
      let d := d.updGrove g (fun x =>
        { x with takenSer := a.serial :: x.takenSer })
      let delta : Int := (a.pos : Int) - ((cl.s0 + answerLead c g + a.r : Nat) : Int) * 256
      let e : Int := (cl.eqdDisc : Int) - delta
      if eqdIn c g cl.tloop e then
        let d := if delta < 0 then d.count .grove .discEarly g else d
        match choosePosition c d g a.serial with
        | none => d.count .grove .discNoRoom g
        | some i => if canMove d i = false then d else enterDiscovered c i a.serial e.toNat (cl.tloop * tickUnits c g) a.precoder d
      else (d.count .grove .eqdRange g).raise Fields.INT_GRV_CAUSE_eqd_range g

/-- DISCOVERY_ANSWER: the next good answer of a grove is judged, in order of arrival (R135). -/
def discoveryAnswer (c : Cfg) (g : Nat) (d : Dev) : Dev :=
  match (d.grove g).answers with
  | [] => d
  | a :: rest => judgeAnswer c g a (d.updGrove g (fun x => { x with answers := rest }))

/-- DISCOVERY_ANSWER. -/
def execDiscoveryAnswer (g : Fin 64) (s : State) : Outcome := onDev (fun c d => discoveryAnswer c g d) s

/-- A Serial_Number_ONU in a quiet window of a compatibility grove (R231 to R233, R242): it waits for the next edge, where it is judged like a discovery
answer. -/
def serialNumberOnu (c : Cfg) (g frame pos serial delay mic : Nat) (d : Dev) : Dev :=
  if compat c g && (clearingAt d g frame).isSome then
    if mic = serialCheck serial delay then
      (d.count .grove .ploamRx g).updGrove g (fun x =>
        { x with ansInbox := x.ansInbox ++ [{ frame := frame, pos := pos, serial := serial, r := delay, precoder := false }] })
    else d.count .grove .ploamMicFail g
  else d

/-- SERIAL_NUMBER_ONU. -/
def execSerialNumberOnu (g : Fin 64) (frame pos serial delay mic : Nat) (s : State) : Outcome :=
  onDev (fun c d => serialNumberOnu c g frame pos serial delay mic d) s

/-! ### Admission and ranging (R139, R142, R143, R167) -/

/-- The serial of an admission-list position. -/
def admSerial (c : Cfg) (i : Nat) : Nat :=
  c.get Fields.STD_ADMIT_SERIAL_HI_adm_hi i * 2 ^ 32 + c.get Fields.STD_ADMIT_SERIAL_LO_adm_lo i

/-- Whether a serial is in a grove's list (R167). -/
def listed (c : Cfg) (g serial : Nat) : Bool :=
  (c.listed .STD_ADMIT).any (fun p => groveOf p.1 == g && c.flag Fields.STD_ADMIT_admit_valid p.1 && admSerial c p.1 == serial)

/-- A DISCOVERED stand enters RANGING (R139). On a compatibility grove the data key is requested with Key_Control (R238). -/
def admitStand (c : Cfg) (i : Nat) (d : Dev) : Dev :=
  requestKeys c i (enterRanging c i .rng (d.disarm .disc i))

/-- STAND_ADMIT: the policy of the grove admits a stand at the edge after its discovery (R167). -/
def standAdmit (c : Cfg) (i : Nat) (d : Dev) : Dev :=
  let l := d.lifeOf i
  let p := c.get Fields.GRV_STD_CTRL_adm_policy (groveOf i)
  if l.st == .discovered && decide (l.discEdge + 1 = d.sfc) && (p == 0 || (p == 1 && listed c (groveOf i) l.serial)) && mayMove c d i
  then admitStand c i d else d

/-- STAND_ADMIT. -/
def execStandAdmit (i : Fin 16384) (s : State) : Outcome := onDev (fun c d => standAdmit c i d) s

/-- The next attempt of a stand is due (R142). -/
def nextAttempt (i : Nat) (d : Dev) : Dev := d.updRng i (fun r => { r with grantDue := true })

/-- A timer that ends RANGING expires (R144). -/
def rangingOver (c : Cfg) (d : Dev) (i : Nat) : Bool :=
  d.expired .rng i (c.get Fields.GRV_RNG_RNG_T_rng_ticks (groveOf i)) || d.expired .reacq i (c.get Fields.GRV_RNG_REACQ_T_reacq_ticks (groveOf i))

/-- The result of a RANGING stand's burst (R142, R407): ranged within one unit; else a correction, but for a stand that becomes ABSENT at this edge, with its last
attempt or by its timer (R158, R161). Once it is ranged, further bursts are no attempts. -/
def rangingResult (c : Cfg) (i : Nat) (phi : Option Int) (d : Dev) : Dev :=
  let was := (d.rngOf i).ranged
  let gone := rangingOver c d i
  let last := gone || (!was && decide (c.get Fields.GRV_RNG_CTRL_rng_attempts (groveOf i) ≤ (d.rngOf i).attempts + 1))
  let fail := fun (d : Dev) => if was then d else nextAttempt i (d.updRng i (fun r => { r with attempts := r.attempts + 1 }))
  match phi with
  | none => fail d
  | some p =>
    if p.natAbs ≤ 1 then
      let d := d.updRng i (fun r => { r with ranged := true, attempts := 0 })
      let d := if compat c (groveOf i) && !was && !(gone && !(keysInPlace c d i)) then sendDelay c i d else d
      tryActive c i d
    else fail (if last then d else (correct c i p d).1)

/-- The result of a ranging twig of a stand that is not RANGING (R148): a phase beyond one symbol is corrected without confirmation, and the drift is confirmed anew
from there (R145; DESIGN CHOICE, log 92). -/
def twigResult (c : Cfg) (i : Nat) (phi : Option Int) (d : Dev) : Dev :=
  match phi with
  | some p => if p.natAbs ≤ 1 then d else (correct c i p (d.updRng i (fun r => { r with driftRun := 0 }))).1
  | none => d

/-- An entry edge of a rest grant of an ACTIVE stand is due (R180). -/
def restDue (d : Dev) (i : Nat) : Bool := d.st i == .active && (d.lifeOf i).rest.any (fun r => decide (r.entry ≤ d.sfc))

/-- A stand becomes SILENCED, RESTING or ABSENT at this edge by what waits to be judged: no correction is made for it any more (R161). -/
def leavesRanging (c : Cfg) (d : Dev) (i : Nat) : Bool := silenceDue c d i || gaspDue d i || restDue d i

/-- RANGING_ATTEMPT: the ranging burst of the closed tick is judged. -/
def rangingAttempt (c : Cfg) (i : Nat) (d : Dev) : Dev :=
  match (d.rngOf i).res with
  | none => d
  | some phi =>
    let d := d.updRng i (fun r => { r with res := none })
    if leavesRanging c d i then d
    else if d.st i == .ranging then rangingResult c i phi d
    else if d.st i == .active then twigResult c i phi d
    else d

/-- RANGING_ATTEMPT. -/
def execRangingAttempt (i : Fin 16384) (s : State) : Outcome := onDev (fun c d => rangingAttempt c i d) s

/-- Count an event of a stand and of its grove. -/
def Dev.count2 (d : Dev) (ctr : Ctr) (i : Nat) : Dev := (d.count .stand ctr i).count .grove ctr (groveOf i)

/-- LOST_TICKS_EXPIRY: the stand ranges again with its EqD, preset and keys (R169). -/
def lostExpiry (c : Cfg) (i : Nat) (d : Dev) : Dev :=
  if d.st i == .active && mayMove c d i && d.expired .lost i (c.get Fields.GRV_STD_CTRL_lost_ticks (groveOf i)) then
    let d := ((d.set Fields.STD_STATE_lost i 1).standEvent i).count .stand .standLost i
    askRegistration c i (enterRanging c i .reacq (clearStand i (d.disarm .lost i)))
  else d

/-- LOST_TICKS_EXPIRY. -/
def execLostTicksExpiry (i : Fin 16384) (s : State) : Outcome := onDev (fun c d => lostExpiry c i d) s

/-- SILENCE_TICKS_EXPIRY: the automatic release of R170 and R171. -/
def silenceExpiry (c : Cfg) (i : Nat) (d : Dev) : Dev :=
  if d.st i == .silenced && canMove d i && d.expired .silence i (c.get Fields.GRV_STD_SILENCE_T_silence_ticks (groveOf i))
  then leaveSilenced c i d else d

/-- SILENCE_TICKS_EXPIRY. -/
def execSilenceTicksExpiry (i : Fin 16384) (s : State) : Outcome := onDev (fun c d => silenceExpiry c i d) s

/-! ### Drift and presets (R145 to R152) -/

/-- DRIFT_CORRECTION (R145 to R147), behind the result of a ranging twig of the same tick (R148). -/
def driftCorrection (c : Cfg) (i : Nat) (d : Dev) : Dev :=
  let d := rangingAttempt c i d
  let r := d.rngOf i
  if d.st i == .active && !(leavesRanging c d i) && decide (c.get Fields.GRV_RNG_CTRL_drift_confirm (groveOf i) ≤ r.driftRun) then
    let q := correct c i r.driftM (d.updRng i (fun r => { r with driftRun := 0 }))
    if q.2 then q.1.count2 .driftCorr i else q.1
  else d

/-- DRIFT_CORRECTION. -/
def execDriftCorrection (i : Fin 16384) (s : State) : Outcome := onDev (fun c d => driftCorrection c i d) s

/-- PRESET_LEARNED (R149). A standby takes presets from its mate (R433). -/
def presetLearned (c : Cfg) (i : Nat) (d : Dev) : Dev :=
  let r := d.rngOf i
  if !d.isStandby && !r.learned && decide (c.get Fields.GRV_RNG_CTRL_learn_bursts (groveOf i) ≤ r.learnCount) then
    (d.updRng i (fun r => { r with learned := true, learnSamp := (presetFor c d i).samp, missRun := 0 })).count2 .presetLearned i
  else d

/-- PRESET_LEARNED. -/
def execPresetLearned (i : Fin 16384) (s : State) : Outcome := onDev (fun c d => presetLearned c i d) s

/-- Learning starts again from the current preset (R152). -/
def unlearn (i : Nat) (d : Dev) : Dev := d.updRng i (fun r => { r with learned := false, learnCount := 0, missRun := 0 })

/-- PRESET_RELEARN (R152). -/
def presetRelearn (c : Cfg) (i : Nat) (d : Dev) : Dev :=
  let r := d.rngOf i
  if !d.isStandby && r.learned && decide (c.get Fields.GRV_RNG_CTRL_relearn_misses (groveOf i) ≤ r.missRun) then (unlearn i d).count2 .presetRelearn i else d

/-- PRESET_RELEARN. -/
def execPresetRelearn (i : Fin 16384) (s : State) : Outcome := onDev (fun c d => presetRelearn c i d) s

/-- PRESET_PINNED (R151). -/
def presetPinned (i : Nat) (d : Dev) : Dev :=
  if d.isStandby = false ∧ 64 ≤ d.run .preset i ∧ d.flag Fields.GRV_RNG_FLAGS_pinned i = false
  then (d.raise Fields.GRV_RNG_FLAGS_pinned i).count2 .presetPinned i else d

/-- PRESET_PINNED. -/
def execPresetPinned (i : Fin 16384) (s : State) : Outcome := onDev (fun _ d => presetPinned i d) s

/-- CHECKPOINT_WRITE: at its checkpoint edge a record whose EqD or preset has changed is rewritten (R154), and a stand in service without a record gets one. -/
def checkpointWrite (c : Cfg) (i : Nat) (d : Dev) : Dev :=
  match d.keep.get? i with
  | none => if d.sfc % 8000 = i % 8000 ∧ (d.st i = .active ∨ d.st i = .resting) then keepWrite c i d else d
  | some k =>
    let r := d.rngOf i
    if decide (d.sfc % 8000 = i % 8000) && !(d.st i == .absent) && !(k.eqd == r.eqd && k.preset == presetFor c d i && k.learned == r.learned)
    then keepWrite c i d else d

/-- CHECKPOINT_WRITE. -/
def execCheckpointWrite (i : Fin 16384) (s : State) : Outcome := onDev (fun c d => checkpointWrite c i d) s

/-! ### Messages of the terminals, judged at the edge (R178) -/

/-- Take the head of a grove's accepted messages if it has a type. -/
def takeMsg (g ty : Nat) (d : Dev) : Option (InMsg × Dev) :=
  match (d.grove g).judge with
  | m :: rest => if m.ty = ty then some (m, d.updGrove g (fun x => { x with judge := rest })) else none
  | [] => none

/-- An agreement of a stand is in progress. -/
def agreeing (d : Dev) (i : Nat) : Bool :=
  let k := d.keysOf i
  k.queued || k.agree == .offered || k.agree == .answered

/-- The remaining hold quota of a stand in bytes (R180). -/
def quotaLeft (c : Cfg) (d : Dev) (i : Nat) : Nat := holdQuota c i - holdUsage c d i

/-- The period that R180 would grant. -/
def restPeriod (c : Cfg) (d : Dev) (i asked : Nat) : Nat :=
  min (min asked (c.get Fields.STD_REST_MAX_rest_max i)) (quotaLeft c d i * 256 / c.get Fields.STD_REST_RATE_rest_rate i)

/-- The first reason of R180 that refuses a rest, 0 where none applies. -/
def restReason (c : Cfg) (d : Dev) (i asked : Nat) : Nat :=
  if c.flag Fields.STD_CTRL_rest_en i = false then 1
  else if d.holdUp = false ∨ d.holdPorts = 0 then 2
  else if carriesSlice c i then 3
  else if agreeing d i then 4
  else if restPeriod c d i asked < 64 then 5
  else 0

/-- A REST_REQUEST is judged (R180): only an ACTIVE stand is answered (R186). The REST_GRANT carries its period until it is placed. -/
def onRest (c : Cfg) (m : InMsg) (d : Dev) : Dev :=
  let i := m.stand
  let g := groveOf i
  if d.st i == .active then
    let asked := ofBytesBE (m.body.take 4)
    let why := restReason c d i asked
    if why = 0 then (sendMsg g (lineMsg 0x0C (inGrove i) (toBytesBE 6 (restPeriod c d i asked))) d).count .stand .restsGranted i
    else (sendMsg g (lineMsg 0x0D (inGrove i) (toBytesBE 1 why)) d).count .stand .restsDenied i
  else d

/-- REST_REQUEST. -/
def restRequest (c : Cfg) (g : Nat) (d : Dev) : Dev :=
  match takeMsg g 0x0B d with
  | none => d
  | some (m, d) => onRest c m d

/-- REST_REQUEST. -/
def execRestRequest (g : Fin 64) (s : State) : Outcome := onDev (fun c d => restRequest c g d) s

/-- A good DYING_GASP is judged (R172). -/
def onGasp (c : Cfg) (m : InMsg) (d : Dev) : Dev :=
  let i := m.stand
  if !(d.st i == .absent) && !(d.st i == .silenced) && canMove d i then
    enterAbsent c i false ((d.set Fields.STD_STATE_dying_gasp i 1).standEvent i)
  else d

/-- DYING_GASP. -/
def dyingGasp (c : Cfg) (g : Nat) (d : Dev) : Dev :=
  match takeMsg g 0x11 d with
  | none => d
  | some (m, d) => onGasp c m d

/-- DYING_GASP. -/
def execDyingGasp (g : Fin 64) (s : State) : Outcome := onDev (fun c d => dyingGasp c g d) s

/-- An accepted HOST_MSG enters the receive FIFO whole (R179). -/
def onHost (m : InMsg) (d : Dev) : Dev :=
  let g := groveOf m.stand
  if (d.grove g).rxFifo.length < 64 then d.updGrove g (fun x => { x with rxFifo := x.rxFifo ++ [m.raw] })
  else d.count .grove .rxOverflow g

/-- HOST_MSG_RX. -/
def hostMsgRx (g : Nat) (d : Dev) : Dev :=
  match takeMsg g 0x12 d with
  | none => d
  | some (m, d) => onHost m d

/-- HOST_MSG_RX. -/
def execHostMsgRx (g : Fin 64) (s : State) : Outcome := onDev (fun _ d => hostMsgRx g d) s

/-! ### Rest (R180, R181, R187) -/

/-- An awaited agreement message is waited for: the offer has left the queue (R408). -/
def offerPlaced (d : Dev) (i : Nat) : Bool :=
  let x := d.grove (groveOf i)
  !((x.msgQ ++ x.waiting).any (fun m => m.ty == 0x06 && m.stand == inGrove i))

/-- REST_ENTRY: at the entry edge of a rest grant (R180, R181); a stand no longer ACTIVE lets the grant lapse (R187). -/
def restEntry (c : Cfg) (i : Nat) (d : Dev) : Dev :=
  let due := fun (r : RestGrant) => decide (r.entry ≤ d.sfc)
  match (d.lifeOf i).rest.find? due with
  | some r =>
    let ok := d.st i == .active && mayMove c d i
    let d := d.updLife i (fun l => { l with rest := l.rest.filter (fun x => !(due x)) })
    if ok then
      let d := ((moveTo i .resting d).updLife i (fun l => { l with wake := r.wake })).disarm .lost i
      let d := d.updRng i (fun x => { x with res := none, resNow := none, driftRun := 0, twigDue := false, grantDue := false })
      { d with wheels := d.wheels.erase i }.disarm .key i
    else d
  | none => d

/-- REST_ENTRY. -/
def execRestEntry (i : Fin 16384) (s : State) : Outcome := onDev (fun c d => restEntry c i d) s

/-- REST_WAKE: at the wake edge (R181), with the drift sum going on (R163; DESIGN CHOICE, log 92): the ranging twig of R148 is due, the watchdog and the key timer are armed afresh (R408), and what waited for
the wake is queued. -/
def restWake (c : Cfg) (i : Nat) (d : Dev) : Dev :=
  if d.st i == .resting && decide ((d.lifeOf i).wake ≤ d.sfc) && mayMove c d i then
    let d := (moveTo i .active d).armNow .lost i
    let d := d.updRng i (fun r => { r with twigDue := true })
    let k := d.keysOf i
    let d := if k.agree == .answered || (k.agree == .offered && offerPlaced d i) then d.armNow .key i else d
    pumpMsgs (groveOf i) d
  else d

/-- REST_WAKE. -/
def execRestWake (i : Fin 16384) (s : State) : Outcome := onDev (fun c d => restWake c i d) s

/-! ### Membership (R185) -/

/-- The group key goes to a stand that joins its group: with the first delivery to all that need it where the key is only drawn now, else by itself (R185, R412). -/
def joinKey (c : Cfg) (i grp : Nat) (d : Dev) : Dev :=
  let sent := !((d.sharedOf grp).drawn) && (needKey c d grp).contains i
  let d := if (d.sharedOf grp).drawn then d else drawShared c grp d
  if (d.sharedOf grp).drawn && !sent then deliverKey c grp i (if (needKey c d grp).contains i then addDeliver grp i d else d) else d

/-- Announce one group whose member bit has changed: the group key where the group is joined under it, then the GROUP_SET, whose placement changes the membership
on the line (R185). On a compatibility grove no message stands for it. -/
def announceGroup (c : Cfg) (i grp : Nat) (d : Dev) : Dev :=
  let member := memberBit c i grp
  let enc := c.flag Fields.KEY_GRP_CTRL_enc grp
  let d := if member && enc then joinKey c i grp d else d
  let d := (tellStand c i 0x0A (toBytesBE 2 grp ++ toBytesBE 1 member.toNat ++ toBytesBE 1 (if enc then 3 else 0)) none d).updKeys i
    (fun k => { k with joined := if member then grp :: k.joined else k.joined.filter (fun x => !(x == grp)) })
  if member then d else dropOrphanReplicas c (groveOf i) d

/-- STD_MCAST_CHANGE: one GROUP_SET for each group whose member bit differs from what was announced. -/
def stdMcastChange (c : Cfg) (i : Nat) (d : Dev) : Dev :=
  (List.range 512).foldl (fun d grp =>
    if memberBit c i grp == (d.keysOf i).joined.contains grp then d else announceGroup c i grp d) d

/-- STD_MCAST_CHANGE. -/
def execStdMcastChange (i : Fin 16384) (s : State) : Outcome := onDev (fun c d => stdMcastChange c i d) s

/-! ### Commands of STD_CMD at their edge (R186, R189) -/

/-- The commands of a stand that wait take effect: a DEREGISTER before a SILENCE, a SILENCE before another. A SILENCE of a stand that is SILENCED already does nothing:
no message is queued and its timer goes on (R165, R190; DESIGN CHOICE, log 92). -/
def applyStdCmds (c : Cfg) (i : Nat) (d : Dev) : Dev :=
  let l := d.lifeOf i
  let d := d.updLife i (fun l => { l with cmds := [] })
  if l.cmds.contains .deregister && !(l.st == .absent) then
    tellStand c i 0x10 [] (some (.deactivate, [])) (enterAbsent c i true d)
  else if l.cmds.contains .silence && !(l.st == .absent) && !(l.st == .silenced) then enterSilenced c i false d
  else if l.cmds.contains .admitCmd && l.st == .discovered then admitStand c i d
  else if l.cmds.contains .unsilence && l.st == .silenced then leaveSilenced c i d
  else d

end Sys2Proof.Machine
end

