-- ==== Sys2Proof/Machine/Status.lean ====
section
/-!
DEFINITION. The status codes of writes and commands (R560).
-/

namespace Sys2Proof.Machine

/-- The status codes of R560, in the order of their codes. -/
inductive Status where
  | ok | badValue | badIndex | notReady | denied | locked | wrongState | noRoom | mode | integrity
  deriving DecidableEq, Repr

/-- The code of a status. -/
def Status.code (s : Status) : Nat := s.ctorIdx

end Sys2Proof.Machine
end

