-- ==== Sys2Proof/Machine/Keys.lean ====
section
/-!
DEFINITION. The key engine (spec file 14) and the keys of compatibility groves (R238): agreements, rekeys, retirement, shared keys, wrapped keys and
the requests of the host.
-/

namespace Sys2Proof.Machine

/-! ### Agreements (R406 to R411) -/

/-- The public value of a scalar (RFC 7748). -/
def publicOf (scalar : Nat) : Nat := Config.x25519 scalar 9

/-- The first stand in the key engine's queue that is not RESTING (R24, R408). -/
def nextServed (d : Dev) : Option Nat := d.keng.queue.find? (fun i => !(d.st i == .resting))

/-- KEY_OFFER: the key engine serves the next agreement: it draws a scalar and queues the offer (R406). It serves none while its random source
has failed (R397), and none on a standby (R433). -/
def keyOffer (c : Cfg) (d : Dev) : Dev :=
  match (if d.rngGood && !d.isStandby then nextServed d else none) with
  | none => d
  | some i =>
    let d := { d with keng := { d.keng with queue := d.keng.queue.filter (fun j => !(j == i)) } }
    let (v, d) := d.draw (2 ^ 256)
    let d := d.updKeys i (fun k => { k with queued := false, agree := .offered, scalar := v, tries := k.tries + 1 })
    tellStand c i 0x06 (toBytesBE 1 (d.keysOf i).target ++ toBytesBE 32 (publicOf v)) none d

/-- KEY_OFFER. -/
def execKeyOffer (s : State) : Outcome := onDev (fun c d => keyOffer c d) s

/-- The epoch secret of R406 from the shared value Z. -/
def epochSecret (serial i e z : Nat) : Nat :=
  Config.hkdf (toBytesBE 32 z) (toBytesBE 8 serial ++ toBytesBE 2 i ++ toBytesBE 1 e) []

/-- Install an epoch's secret: the slot, its counters at zero, its ceiling, and empty bough records (R400 to R402, R406). -/
def installEpoch (i e secret peer : Nat) (d : Dev) : Dev :=
  let d := (eraseEpoch i e d).writeSlot (slotOf i e) secret 0
  let d := { d with ceil := d.ceil.put (slotOf i e) ceilStep }
  d.updKeys i (fun k => k.updEp e (fun _ => { EpochSt.init with held := true, usFrom := d.sfc + 1, peerPub := peer }))

/-- A stand may take part in an agreement. -/
def mayAgree (d : Dev) (i : Nat) : Bool := d.st i == .ranging || d.st i == .active || d.st i == .resting

/-- A timer of R144 that has expired takes the stand to ABSENT, unless the ranging burst of the tick makes it ACTIVE (R158). What messages of it wait are not judged
before (R418). -/
def timerAbsent (st : StandSt) (k : TimerKind) (len : Fld) (ctr : Ctr) (c : Cfg) (i : Nat) (d : Dev) : Dev :=
  if d.st i == st && d.expired k i (c.get len (groveOf i)) then
    let d := rangingAttempt c i d
    if d.st i == st && canMove d i && d.expired k i (c.get len (groveOf i)) then enterAbsent c i false (d.count2 ctr i) else d
  else d

/-- The timers of RANGING come before an agreement message of the same edge (R418). -/
def timersFirst (c : Cfg) (i : Nat) (d : Dev) : Dev :=
  timerAbsent .ranging .reacq Fields.GRV_RNG_REACQ_T_reacq_ticks .reacqFail c i
    (timerAbsent .ranging .rng Fields.GRV_RNG_RNG_T_rng_ticks .rngTimeout c i d)

/-- The edge judges an agreement message of a stand whose agreement runs: the sequence of its grants starts again (R407). -/
def restartGrants (i : Nat) (d : Dev) : Dev :=
  let k := d.keysOf i
  if k.agree == .offered || k.agree == .answered then d.updKeys i (fun k => { k with grantAt := some 0 }) else d

/-- A KEY_ANSWER is judged: the terminal's public value (R406, R408, R410). -/
def onAnswer (c : Cfg) (m : InMsg) (d : Dev) : Dev :=
  let i := m.stand
  let d := restartGrants i (timersFirst c i d)
  let k := d.keysOf i
  let e := ofBytesBE (m.body.take 1)
  if mayAgree d i && k.agree == .offered && e == k.target then
    let peer := ofBytesBE ((m.body.drop 1).take 32)
    let z := Config.x25519 k.scalar peer
    if z = 0 then d.count .stand .keyBadPoint i
    else
      let d := installEpoch i e (epochSecret (d.lifeOf i).serial i e z) peer d
      let d := d.updKeys i (fun k => { k with agree := .answered, scalar := 0 })
      let d := if d.st i == .resting then d else d.armNow .key i
      keepWrite c i d
  else d

/-- KEY_ANSWER. -/
def keyAnswer (c : Cfg) (g : Nat) (d : Dev) : Dev :=
  match takeMsg g 0x07 d with
  | none => d
  | some (m, d) => onAnswer c m d

/-- KEY_ANSWER. -/
def execKeyAnswer (g : Fin 64) (s : State) : Outcome := onDev (fun c d => keyAnswer c g d) s

/-- An agreement completes: the new epoch is current, the former one retires (R407, R409, R410). -/
def completeAgreement (c : Cfg) (i : Nat) (d : Dev) : Dev :=
  let k := d.keysOf i
  let d := d.count .stand .agreements i
  let d := if k.ready then (d.count .stand .rekeys i).armNow .retire i else d
  let d := d.updKeys i (fun k =>
    { k with retiring := if k.ready then some k.cur else none, cur := k.target, ready := true, agree := .idle, tries := 0, curFrom := d.sfc + 1,
             lastDone := some d.sfc, grantAt := none })
  let d := keepWrite c i (d.disarm .key i)
  tryActive c i (pumpMsgs (groveOf i) d)

/-- A KEY_CONFIRM is judged (R406, R407, R410). -/
def onConfirm (c : Cfg) (m : InMsg) (d : Dev) : Dev :=
  let i := m.stand
  let d := restartGrants i (timersFirst c i d)
  let k := d.keysOf i
  if mayAgree d i && k.agree == .answered && ofBytesBE (m.body.take 1) == k.target then completeAgreement c i d else d

/-- KEY_CONFIRM. -/
def keyConfirm (c : Cfg) (g : Nat) (d : Dev) : Dev :=
  match takeMsg g 0x08 d with
  | none => d
  | some (m, d) => onConfirm c m d

/-- KEY_CONFIRM. -/
def execKeyConfirm (g : Fin 64) (s : State) : Outcome := onDev (fun c d => keyConfirm c g d) s

/-- REKEY_INTERVAL: every rekey_int ticks after the last completed agreement (R409). A standby judges none of a stand's timers (R433). -/
def rekeyInterval (c : Cfg) (i : Nat) (d : Dev) : Dev :=
  let n := c.get Fields.KEY_REKEY_INT_rekey_int 0
  match (d.keysOf i).lastDone with
  | some t => if !d.isStandby && d.st i == .active && !(n == 0) && decide (t < d.sfc) && (d.sfc - t) % n == 0 then askKeys c i true d else d
  | none => d

/-- REKEY_INTERVAL. -/
def execRekeyInterval (i : Fin 16384) (s : State) : Outcome := onDev (fun c d => rekeyInterval c i d) s

/-- A message of the terminal that waits to be judged. -/
def judgeMsg (c : Cfg) (m : InMsg) (d : Dev) : Dev :=
  if m.ty = 0x07 then onAnswer c m d
  else if m.ty = 0x08 then onConfirm c m d
  else if m.ty = 0x0B then onRest c m d
  else if m.ty = 0x11 then onGasp c m d
  else if m.ty = 0x12 then onHost m d
  else d

/-- The messages of a stand that wait are judged, in order of arrival (R178). -/
def settleMsgs (c : Cfg) (i : Nat) (d : Dev) : Dev :=
  let ms := (d.grove (groveOf i)).judge.filter (fun m => m.stand == i)
  if ms.isEmpty then d
  else ms.foldl (fun d m => judgeMsg c m d) (d.updGrove (groveOf i) (fun x => { x with judge := x.judge.filter (fun m => !(m.stand == i)) }))

/-- What the closed tick brought of a stand is judged before its tag failures are (R403, R418): its ranging burst, then its messages. -/
def settleStand (c : Cfg) (i : Nat) (d : Dev) : Dev := settleMsgs c i (rangingAttempt c i d)

/-! ### Timers and failures that end a stand's state (R142, R144, R403) -/

/-- The attempts of a RANGING stand are used up (R142). -/
def rngFailDue (c : Cfg) (d : Dev) (i : Nat) : Bool :=
  d.st i == .ranging && decide (c.get Fields.GRV_RNG_CTRL_rng_attempts (groveOf i) ≤ (d.rngOf i).attempts)

/-- RNG_FAIL: rng_attempts attempts in a row have not ranged the stand (R142). -/
def rngFail (c : Cfg) (i : Nat) (d : Dev) : Dev :=
  let d := rangingAttempt c i d
  if rngFailDue c d i && canMove d i then enterAbsent c i false (d.count2 .rngFail i) else d

/-- RNG_FAIL. -/
def execRngFail (i : Fin 16384) (s : State) : Outcome := onDev (fun c d => rngFail c i d) s

/-- DISC_TICKS_EXPIRY (R144). -/
def execDiscTicksExpiry (i : Fin 16384) (s : State) : Outcome :=
  onDev (fun c d => timerAbsent .discovered .disc Fields.GRV_RNG_DISC_T_disc_ticks .discExpired c i d) s

/-- RNG_TICKS_EXPIRY (R144). -/
def execRngTicksExpiry (i : Fin 16384) (s : State) : Outcome :=
  onDev (fun c d => timerAbsent .ranging .rng Fields.GRV_RNG_RNG_T_rng_ticks .rngTimeout c i d) s

/-- REACQ_TICKS_EXPIRY (R144). -/
def execReacqTicksExpiry (i : Fin 16384) (s : State) : Outcome :=
  onDev (fun c d => timerAbsent .ranging .reacq Fields.GRV_RNG_REACQ_T_reacq_ticks .reacqFail c i d) s

/-- A transition to ABSENT is due at this edge, which comes before one to SILENCED (R189): a timer of R144 that nothing satisfies, the last ranging attempt, or
a DYING_GASP. -/
def absentDue (c : Cfg) (d : Dev) (i : Nat) : Bool :=
  let g := groveOf i
  gaspDue d i || rngFailDue c d i
    || (d.st i == .discovered && d.expired .disc i (c.get Fields.GRV_RNG_DISC_T_disc_ticks g))
    || (d.st i == .ranging && !((d.rngOf i).ranged && keysInPlace c d i) &&
          (d.expired .rng i (c.get Fields.GRV_RNG_RNG_T_rng_ticks g) || d.expired .reacq i (c.get Fields.GRV_RNG_REACQ_T_reacq_ticks g)))

/-- TAG_SILENCE: tf_limit failures in the window (R403), judged behind what the tick brought of the stand (R418, R419). -/
def tagSilence (c : Cfg) (i : Nat) (d : Dev) : Dev :=
  if silenceDue c d i then
    let d := settleStand c i d
    if silenceDue c d i && canMove d i && !(absentDue c d i) then enterSilenced c i true d else d
  else d

/-- TAG_SILENCE. -/
def execTagSilence (i : Fin 16384) (s : State) : Outcome := onDev (fun c d => tagSilence c i d) s

/-- KEY_TICKS_EXPIRY: the offer is sent again with a fresh scalar; after key_tries offers the agreement fails and is tried again at the stand's
checkpoint edge (R408). A message of the tick is judged first (R47). -/
def keyTicksExpiry (c : Cfg) (i : Nat) (d : Dev) : Dev :=
  let d := if d.expired .key i (c.get Fields.KEY_TIMERS_key_ticks 0) then settleMsgs c i d else d
  let k := d.keysOf i
  if !(d.st i == .resting) && !d.isStandby && (k.agree == .offered || k.agree == .answered) && d.expired .key i (c.get Fields.KEY_TIMERS_key_ticks 0) then
    let d := if k.agree == .answered then keepWrite c i (eraseEpoch i k.target d) else d
    let d := d.disarm .key i
    if k.tries < c.get Fields.KEY_TIMERS_key_tries 0 then
      { d.updKeys i (fun k => { k with queued := true, agree := .idle, scalar := 0 }) with
        keng := { d.keng with queue := d.keng.queue ++ [i] } }
    else (d.updKeys i (fun k => { k with agree := .failed, scalar := 0, retryCkpt := true })).count .stand .keyFail i
  else d

/-- KEY_TICKS_EXPIRY. -/
def execKeyTicksExpiry (i : Fin 16384) (s : State) : Outcome := onDev (fun c d => keyTicksExpiry c i d) s

/-- A failed agreement is offered again at the stand's checkpoint edge (R408). -/
def retryAtCheckpoint (i : Nat) (d : Dev) : Dev :=
  let k := d.keysOf i
  if k.retryCkpt && d.sfc % 8000 == i % 8000 then startAgreement i k.isRekey (d.updKeys i (fun k => { k with retryCkpt := false })) else d

/-- EPOCH_RETIRE: the former epoch is erased at n_c + retire_ticks, and a trigger held meanwhile starts its rekey (R409, R410). -/
def epochRetire (c : Cfg) (i : Nat) (d : Dev) : Dev :=
  let k := d.keysOf i
  match k.retiring with
  | some e =>
    if !d.isStandby && d.expired .retire i (c.get Fields.KEY_TIMERS_retire_ticks 0) then
      let d := (eraseEpoch i e d).disarm .retire i
      let d := keepWrite c i (d.updKeys i (fun k => { k with retiring := none, heldTrig := false }))
      if k.heldTrig then startAgreement i true d else d
    else d
  | none => d

/-- EPOCH_RETIRE. -/
def execEpochRetire (i : Fin 16384) (s : State) : Outcome := onDev (fun c d => epochRetire c i d) s

/-- DEREGISTER_KEY_ERASE: the keys go once the DEREGISTER message has been placed (R172, R423). A position that was rediscovered meanwhile asks for keys anew. -/
def deregisterKeyErase (c : Cfg) (i : Nat) (d : Dev) : Dev :=
  let x := d.grove (groveOf i)
  let queued := (x.msgQ ++ x.waiting).any (fun m => m.ty == 0x10 && m.stand == inGrove i) ||
    x.ploamQ.any (fun p => p.kind == .deactivate && p.onu == inGrove i)
  if (d.lifeOf i).deregMsg && !queued then
    let d := eraseKeys i (abandonAgreement c i (d.updLife i (fun l => { l with deregMsg := false })))
    if d.st i == .ranging then requestKeys c i d else d
  else d

/-- DEREGISTER_KEY_ERASE. -/
def execDeregisterKeyErase (i : Fin 16384) (s : State) : Outcome := onDev (fun c d => deregisterKeyErase c i d) s

/-! ### Shared keys (R412) -/

/-- GROUP_KEY_SWITCH: the new key is used from the edge R412 gives; the first one has no former key to erase. -/
def groupKeySwitch (c : Cfg) (k : Nat) (d : Dev) : Dev :=
  let s := d.sharedOf k
  match s.switchAt with
  | some e =>
    if s.pending && decide (e ≤ d.sfc) && !d.isStandby then
      let erase := if s.valid then some (d.sfc + c.get Fields.KEY_TIMERS_retire_ticks 0) else none
      let d := d.updShared k (fun s =>
        { s with pending := false, valid := true, epoch := s.newEpoch, ctr := 0, stopped := false, switchAt := none, eraseAt := erase })
      if k < 512 ∧ s.valid then d.count .device .groupRekeys k else d
    else d
  | none => d

/-- GROUP_KEY_SWITCH. -/
def execGroupKeySwitch (k : Fin 576) (s : State) : Outcome := onDev (fun c d => groupKeySwitch c k d) s

/-- The former epoch's slot of a shared key is erased retire_ticks after the switch (R412). -/
def eraseOldShared (d : Dev) : Dev :=
  d.shared.foldl (fun d p =>
    match p.2.eraseAt with
    | some e =>
      if e ≤ d.sfc then (d.eraseSlot (sharedSlot p.1 (1 - p.2.epoch))).updShared p.1 (fun s => { s with eraseAt := none }) else d
    | none => d) d

/-! ### Compatibility groves (R228, R231, R238, R240) -/

/-- A stand's grove leaves service at this edge by a cause that makes its stands ABSENT (R541). -/
def groveLeaves (c : Cfg) (d : Dev) (g : Nat) : Bool :=
  (d.grove g).inService &&
    (!(c.flag Fields.LANE_PON_CTRL_tx_en g) || (c.get Fields.CLK_PWR_park_mask 0).testBit (quadrantOf g) || groveParked d g)

/-- COMPAT_KEY_SWITCH: at the superframe that Key_Control named the stand's data key changes; a stand that has left ACTIVE, or leaves it at this edge, lets the
switch lapse and its new slot is released (R240). -/
def compatKeySwitch (c : Cfg) (i : Nat) (d : Dev) : Dev :=
  match (d.keysOf i).nextKey with
  | some (index, e) =>
    if e ≤ d.sfc then
      if d.st i == .active && !(silenceDue c d i) && !(gaspDue d i)
          && !(d.expired .lost i (c.get Fields.GRV_STD_CTRL_lost_ticks (groveOf i))) && !(groveLeaves c d (groveOf i)) then
        (d.updKeys i (fun k => { k with dataKey := some index, nextKey := none, lastDone := some d.sfc })).count .grove .keySwitches (groveOf i)
      else (d.eraseSlot (dataSlot i index)).updKeys i (fun k => { k with nextKey := none })
    else d
  | none => d

/-- COMPAT_KEY_SWITCH. -/
def execCompatKeySwitch (i : Fin 16384) (s : State) : Outcome := onDev (fun c d => compatKeySwitch c i d) s

/-- KEY_REPORT: a data key arrives wrapped and is loaded, and the rekey interval counts from its use on (R409; DESIGN CHOICE, log 93); the first one puts the stand's keys in place, so that it may enter ACTIVE at the next edge (R143); a
later one waits for the switch that a new Key_Control names as it is placed (R238). -/
def keyReport (c : Cfg) (i index wrapped mic : Nat) (d : Dev) : Dev :=
  let g := groveOf i
  if compat c g && !(d.st i == .absent) then
    if mic ≠ ploamCheck d i upKeyReport [index, wrapped] then d.count .grove .ploamMicFail g
    else
      let d := d.count .grove .ploamRx g
      match Config.keyUnwrap (compatKek d i) wrapped with
      | none => d
      | some v =>
        let d := d.writeSlot (dataSlot i index) v 0
        if (d.keysOf i).dataKey.isNone then
          d.updKeys i (fun k => { k with dataKey := some index, ready := true, lastDone := some d.sfc })
        else sendPloam g { kind := .keyControl, onu := inGrove i, args := [1, index] } d
  else d

/-- KEY_REPORT. -/
def execKeyReport (i : Fin 16384) (index : Fin 4) (wrapped mic : Nat) (s : State) : Outcome :=
  onDev (fun c d => keyReport c i index wrapped mic d) s

/-- The stands of compatibility groves that are ranged and have their keys become ACTIVE at the edge (R143, R238). -/
def compatActive (c : Cfg) (d : Dev) : Dev :=
  ((d.life.filter (fun p => p.2.st == .ranging && compat c (groveOf p.1))).map Prod.fst).foldl (fun d i => tryActive c i d) d

/-- PLOAM_UNSUPPORTED: no action, counted (R228, R232). -/
def ploamUnsupported (c : Cfg) (g : Nat) (d : Dev) : Dev := if compat c g then d.count .grove .ploamUnsupported g else d

/-- PLOAM_UNSUPPORTED. -/
def execPloamUnsupported (g : Fin 64) (_ty : Nat) (s : State) : Outcome := onDev (fun c d => ploamUnsupported c g d) s

/-- PLOAM_REGISTRATION_RX: a Registration or an Acknowledge is received and verified (R231). A Registration is answered with an Acknowledge (DESIGN CHOICE, log 93);
an Acknowledge asks nothing further of the device. -/
def ploamRegistrationRx (c : Cfg) (i : Nat) (ack : Bool) (mic : Nat) (d : Dev) : Dev :=
  let g := groveOf i
  if compat c g && !(d.st i == .absent) then
    if mic = ploamCheck d i (if ack then upAcknowledge else upRegistration) [] then
      let d := d.count .grove .ploamRx g
      if ack then d else sendPloam g { kind := .acknowledge, onu := inGrove i, args := [] } d
    else d.count .grove .ploamMicFail g
  else d

/-- PLOAM_REGISTRATION_RX. -/
def execPloamRegistrationRx (i : Fin 16384) (ack : Bool) (mic : Nat) (s : State) : Outcome :=
  onDev (fun c d => ploamRegistrationRx c i ack mic d) s

/-! ### The random source (R397) -/

/-- RNG_HEALTH_FAIL: a health test fails; the condition lasts until the next start. -/
def execRngHealthFail (s : State) : Outcome := onDev (fun _ d => d.raise Fields.KEY_CTRL_rng_fail 0) s

/-! ### Host requests (R414, R415, R424) -/

/-- Words as bytes, most significant byte first. -/
def wordBytes (ws : List Nat) : List Byte := ws.flatMap (toBytesBE 4)

/-- The words of a register array, from index 0. -/
def Cfg.words (c : Cfg) (r : Reg) (n : Nat) : List Nat := (List.range n).map (fun k => c.word r k)

/-- Write bytes into a register array, four to a word, from index `i`. -/
def Cfg.putBytes (c : Cfg) (r : Reg) (i : Nat) : Nat → List Byte → Cfg
  | 0, _ => c
  | n + 1, bs => Cfg.putBytes (c.setWord r i (ofBytesBE (padTo 4 bs))) r (i + 1) n (bs.drop 4)

/-- The request buffer. -/
def keyBuf (c : Cfg) : List Byte := wordBytes (c.words .KEY_BUF 1024)

/-- Write the request buffer from a byte offset on, keeping what lies before and behind. -/
def putKeyBuf (c : Cfg) (off : Nat) (bs : List Byte) : Cfg :=
  let old := keyBuf c
  c.putBytes .KEY_BUF 0 1024 (old.take off ++ bs ++ old.drop (off + bs.length))

/-- The device identity (R414). -/
def deviceId : Nat := publicOf Config.rootScalar

/-- The nonce of a SEAL (R415): device number, slot, ten zero bits and the seal counter. -/
def sealNonce (devnum slot ctr : Nat) : Nat := devnum % 64 * 2 ^ 90 + slot % 2 ^ 16 * 2 ^ 74 + ctr % 2 ^ 64

/-- Whether a slot is a host slot (R404). -/
def isHostSlot (s : Nat) : Bool := decide (50304 ≤ s) && decide (s ≤ 65279)

/-- The seal counter goes on under the ceiling rule of R401. -/
def nextSeal (d : Dev) : Nat × Dev :=
  let n := d.keng.sealCtr
  let top := if d.keng.sealCeil < n + 1 + 2 ^ 31 then d.keng.sealCeil + ceilStep else d.keng.sealCeil
  (n, { d with keng := { d.keng with sealCtr := n + 1, sealCeil := top } })

/-- The outcome of an UNWRAP of the blob in KEY_BLOB (R414): the status and the device. The integrity check comes first, since the usage and the target enter the KEK. -/
def unwrapBlob (c : Cfg) (blob : List Byte) (d : Dev) : Status × Dev :=
  let usage := ofBytesBE ((blob.drop 1).take 1)
  let target := ofBytesBE ((blob.drop 4).take 4)
  let ikm := toBytesBE 32 (Config.x25519 Config.rootScalar (ofBytesBE ((blob.drop 8).take 32)))
  let kek := Config.hkdf ikm (toBytesBE 32 deviceId) (ascii "TZWRAP" ++ blob.take 8)
  let slot := if usage = 2 then 3 * target + 2 else target
  match Config.keyUnwrap kek (ofBytesBE ((blob.drop 40).take 40)) with
  | none => (.integrity, d.count .device .unwrapFail 0)
  | some v =>
    if !(ofBytesBE (blob.take 1) == 1) || usage == 0 || decide (3 < usage) then (.badValue, d)
    else if (usage = 2 ∧ 16384 ≤ target) ∨ (usage ≠ 2 ∧ isHostSlot target = false) then (.badIndex, d)
    else if usage = 2 ∧ compat c (groveOf target) = false then (.mode, d)
    else (.ok, (d.writeSlot slot v usage).count .device .unwraps 0)

/-- A SEAL: ciphertext, nonce and tag in place (R415). -/
def sealBuf (kc : KeyCmd) (c : Cfg) (d : Dev) : Status × Cfg × Dev :=
  if d.rngGood then
    let (n, d) := nextSeal d
    let nonce := sealNonce (d.get Fields.TOP_ID_devnum 0) kc.target n
    let buf := keyBuf c
    let r := Config.gcmSeal (d.slots.getD kc.target 0) nonce (buf.take kc.aad) ((buf.drop kc.aad).take kc.len)
    let c := putKeyBuf c kc.aad (padTo kc.len r.1)
    let c := (c.putBytes .KEY_NONCE 0 3 (toBytesBE 12 nonce)).putBytes .KEY_TAG 0 4 (toBytesBE 16 r.2)
    (.ok, c, d.count .device .seals 0)
  else (.notReady, c, d)

/-- An OPEN: plaintext in place, or the data zeroed (R415). -/
def openBuf (kc : KeyCmd) (c : Cfg) (d : Dev) : Status × Cfg × Dev :=
  let buf := keyBuf c
  let nonce := ofBytesBE (wordBytes (c.words .KEY_NONCE 3))
  let tag := ofBytesBE (wordBytes (c.words .KEY_TAG 4))
  let r := Config.gcmOpen (d.slots.getD kc.target 0) nonce (buf.take kc.aad) ((buf.drop kc.aad).take kc.len)
  if r.2 = tag then (.ok, putKeyBuf c kc.aad (padTo kc.len r.1), d.count .device .opens 0)
  else (.integrity, putKeyBuf c kc.aad (zeroBytes kc.len), d.count .device .openFail 0)

/-- Write the eight words of a register array of the status file. -/
def putSts8 (x : Fld) (v : Nat) (d : Dev) : Dev :=
  (List.range 8).foldl (fun d k => d.set x k (v / 2 ^ (32 * (7 - k)) % 2 ^ 32)) d

/-- The effect of a key-engine command (R414, R415, R424): its status, configuration and device. -/
def keyCmdEffect (kc : KeyCmd) (c : Cfg) (d : Dev) : Status × Cfg × Dev :=
  if kc.op = 2 then
    let r := unwrapBlob c (wordBytes (c.words .KEY_BLOB 20)) d
    (r.1, c, r.2)
  else if kc.op = 3 then (.ok, c, d.eraseSlot kc.target)
  else if kc.op = 4 then sealBuf kc c d
  else if kc.op = 5 then openBuf kc c d
  else if kc.op = 6 then
    (.ok, c.putBytes .KEY_TAG 0 8 (toBytesBE 32 (Config.hmac (d.slots.getD kc.target 0) ((keyBuf c).take (kc.aad + kc.len)))), d)
  else if kc.op = 7 then
    let k := d.keysOf kc.target
    (.ok, c, putSts8 Fields.KEY_PUB_pub (k.ep k.cur).peerPub d)
  else if kc.op = 8 then (.ok, c, drawShared c kc.target d)
  else (.badValue, c, d)

/-- KEY_COMMAND_DONE: the running command ends with its effect and its status. -/
def keyCommandDone (s : State) : State :=
  match s.dev.keyCmd with
  | none => s
  | some kc =>
    let r := keyCmdEffect kc s.cfg s.dev
    { s with
      cfg := r.2.1
      dev := { (r.2.2.set Fields.KEY_CMD_STAT_status 0 r.1.code).set Fields.KEY_CMD_STAT_busy 0 0 with keyCmd := none } }

/-- KEY_COMMAND_DONE. -/
def execKeyCommandDone (s : State) : Outcome := .next (keyCommandDone s)

end Sys2Proof.Machine
end

