-- ==== Sys2Proof/Machine/Grant.lean ====
section
/-!
DEFINITION. The grant engine on the device's state (spec file 07): entitlements, reports, requests and rate estimates at the edge; a grove's
computation; the fallback map; polls and pinned predictions.
-/

namespace Sys2Proof.Machine

/-! ### The commit edge (R195, R198, R202, R205) -/

/-- An accumulator after one edge: the fraction kept and the entitlement formed (R195). -/
def accrue (a rate : Nat) : Nat × Nat := ((a + rate) % 256, (a + rate) / 256)

/-- The entitlements of a bough at an edge (R195, R247). -/
def entitle (c : Cfg) (b : Nat) (x : Bough) : Bough :=
  let f := accrue x.accFixed (c.get Fields.BGH_FIXED_fixed b)
  let a := accrue x.accAssur (c.get Fields.BGH_ASSURED_assured b)
  let m := accrue x.accMax (c.get Fields.BGH_MAX_max b)
  { x with pollHold := false, accFixed := f.1, entFixed := f.2, accAssur := a.1, entAssur := a.2, accMax := m.1, entMax := m.2 }

/-- The sum of the leaves that a report leaves out: G of R198 for the map of the frame after all recorded grants. -/
def grantedAfter (r : Report) (gs : List GrantRec) : Nat :=
  ((gs.filter (fun g => decide (r.frame < g.frame) || (g.frame == r.frame && decide (r.start < g.start)))).map GrantRec.leaves).sum

/-- The request of a bough (R198). -/
def requestOf (x : Bough) : Nat :=
  match x.report with
  | some r => r.occ - grantedAfter r x.grants
  | none => 0

/-- A position in the upstream order lies after one report and not after another. -/
def between (a b : Report) (frame start : Nat) : Bool :=
  (decide (a.frame < frame) || (a.frame == frame && decide (a.start < start))) &&
    (decide (frame < b.frame) || (frame == b.frame && decide (start ≤ b.start)))

/-- The rate sample of R205 with 8 fractional bits, none where it is not taken. -/
def rateSample (missed : List (Nat × Nat)) (x : Bough) (a b : Report) : Option Nat :=
  if a.occ = 0xFFFFFF ∨ b.occ = 0xFFFFFF ∨ b.frame ≤ a.frame then none
  else if missed.any (fun p => between a b p.1 p.2 && !(p.1 == b.frame && p.2 == b.start)) then none
  else
    let bytes := ((x.dataRx.filter (fun p => between a b p.1 p.2.1)).map (fun p => p.2.2)).sum
    let diff : Int := ((b.occ : Int) - a.occ) * 256 + ((bytes * 256 / 58 : Nat) : Int)
    some (diff.toNat / (b.frame - a.frame))

/-- The estimate after a sample (R205). -/
def nextRate (e s shift : Nat) : Nat := min 0xFFFFFF ((e : Int) + ((s : Int) - e) / 2 ^ shift).toNat

/-- Take the report of a bough at the edge (R198, R205). A FIXED bough's is recorded and used for nothing else (R194, R199). -/
def takeReport (c : Cfg) (b : Nat) (d : Dev) : Dev :=
  let x := d.bough b
  match x.newRep with
  | none => d
  | some n =>
    let missed := (((standOfBough c b).map (fun i => (d.mailOf i).missed)).getD [])
    let e := match x.report with
      | some o =>
        if c.flag Fields.BGH_PRED_pred_en b && !(c.get Fields.BGH_CTRL_type b == 0) then
          ((rateSample missed x o n).map (fun s => nextRate x.rateE s (c.get Fields.BGH_PRED_pred_shift b))).getD x.rateE
        else x.rateE
      | none => x.rateE
    (d.updBough b (fun x =>
      { x with report := some n, newRep := none, rateE := e
               grants := x.grants.filter (fun g => decide (n.frame ≤ g.frame))
               dataRx := x.dataRx.filter (fun p => decide (n.frame < p.1) || (p.1 == n.frame && decide (n.start < p.2.1))) })).count
      .bough .reportsTaken b

/-- What a change of poll_int does at its edge (R204). -/
def pollEdge (c : Cfg) (b : Nat) (d : Dev) : Dev :=
  let on := !(c.get Fields.BGH_POLL_poll_int b == 0) && !(c.get Fields.BGH_CTRL_type b == 0)
  if on then (if d.armed .poll b then d else d.armNow .poll b)
  else if d.armed .poll b || (d.bough b).pollDue then (d.disarm .poll b).updBough b (fun x => { x with pollDue := false })
  else d

/-- A missed burst is kept as long as a bough of its stand has a report that it may lie behind (R205). -/
def missKept (c : Cfg) (d : Dev) (i : Nat) (p : Nat × Nat) : Bool :=
  (boughsOf c i).any (fun b => match (d.bough b).report with | some r => decide (r.frame ≤ p.1) | none => false)

/-- The fairness pointer behind an edge (R202): an abandoned computation has left it where it stood (R216; DEDUCED, log 95). -/
def fairNext (n : Nat) (x : Grove) : Nat :=
  if x.maps.any (fun m => m.frame == n && m.kind == .fallback) then x.fairPtr else (x.fairPtr + 1) % 256

/-- The engine's own work at a commit edge. The poll watchdog of a bough bound at the edge is armed here (R197, R204). -/
def grantEdge (c : Cfg) (d : Dev) : Dev :=
  let d := { d with boughs := d.boughs.mapVals (entitle c) }
  let d := ((d.boughs.filter (fun p => p.2.newRep.isSome)).map Prod.fst).foldl (fun d b => takeReport c b d) d
  let polls := d.boughs.filter (fun p => !(c.get Fields.BGH_POLL_poll_int p.1 == 0) || p.2.pollDue || d.armed .poll p.1)
  let d := (polls.map Prod.fst).foldl (fun d b => pollEdge c b d) d
  { d with
    mail := d.mail.mapVals (fun i m => if m.missed.isEmpty then m else { m with missed := m.missed.filter (missKept c d i) })
    groves := d.groves.mapVals (fun _ x =>
      { x with fairPtr := fairNext d.sfc x, forceNow := x.forceNext, forceNext := false, abandoned := false, computed := none }) }

/-! ### What a computation reads (R200, R209, R213) -/

/-- The type of a bough. -/
def boughType (c : Cfg) (b : Nat) : BoughType := BoughType.ofCode (c.get Fields.BGH_CTRL_type b)

/-- The request of a bough of its type: a FIXED one has none (R199). -/
def reqOf (c : Cfg) (b : Nat) (x : Bough) : Nat := if boughType c b = .fixed then 0 else requestOf x

/-- A bough as the engine reads it. -/
def engBough (c : Cfg) (d : Dev) (b : Nat) : EngBough :=
  let x := d.bough b
  { id := b, idx := boughIdx c b, ty := boughType c b, cls := c.get Fields.BGH_CTRL_class b, weight := c.get Fields.BGH_CTRL_weight b
    spread := 2 ^ c.get Fields.BGH_CTRL_spread b, fixedPos := fixedPos c b, entFixed := x.entFixed, entAssur := x.entAssur, entMax := x.entMax
    request := reqOf c b x, pollDue := x.pollDue && !x.pollHold, pollLv := c.get Fields.BGH_POLL_poll_leaves b, predEn := c.flag Fields.BGH_PRED_pred_en b
    predCeil := c.get Fields.BGH_PRED_pred_ceiling b, rateE := x.rateE, hadGrant := decide (0 < x.leaves)
    g1 := 0, g2 := 0, g3 := 0, g4 := 0, g5 := 0, g6 := 0, seen6 := false, cut6 := false }

/-- Boughs in ascending index. -/
def insertByIdx (x : EngBough) : List EngBough → List EngBough
  | [] => [x]
  | y :: t => if x.idx < y.idx then x :: y :: t else y :: insertByIdx x t

/-- poll_ticks of a grove. -/
def pollTicks (c : Cfg) (g : Nat) : Nat := c.get Fields.GRV_STD_CTRL_poll_ticks g

/-- Leaves of a stand's twigs outside their payload (R91, R230): on a compatibility grove those of burst profile 0, which the device names in every allocation
(R236; DESIGN CHOICE, log 93). -/
def standOverhead (c : Cfg) (d : Dev) (i : Nat) : Nat :=
  if compat c (groveOf i) then Config.burstOverhead (c.get Fields.GRV_CPT_PROFILE_profile (4 * groveOf i))
  else twigOverhead (if (d.rngOf i).learned then 0 else 1)

/-- The key engine awaits a message of a RANGING stand that is ranged, and its next grant is due (R407). -/
def keyGrantDue (d : Dev) (i : Nat) : Bool :=
  let k := d.keysOf i
  (d.rngOf i).ranged && (k.agree == .offered || k.agree == .answered) && decide (k.grantAt.getD 0 ≤ (d.grove (groveOf i)).built + 1)

/-- A ranging grant may lie in a frame: no delay message waits, and none was carried in that frame or later (R140). -/
def grantAllowed (d : Dev) (i f : Nat) : Bool :=
  let r := d.rngOf i
  r.delayWait == 0 && (match r.delayFrame with | some x => decide (x < f) | none => true)

/-- A stand's message slot is due in a frame (R168, R213). -/
def slotDue (c : Cfg) (d : Dev) (i f : Nat) : Bool :=
  let n := pollTicks c (groveOf i)
  let m := d.mailOf i
  (f + inGrove i) % n == 0 || m.slotDue ||
    (match m.lastSlot with | some l => decide (l + n ≤ (d.grove (groveOf i)).built + 1) | none => true)

/-- A stand as the engine reads it for the map of frame `f`. -/
def engStand (c : Cfg) (d : Dev) (f i : Nat) : EngStand :=
  let r := d.rngOf i
  let act := d.st i == .active
  { sig := inGrove i, active := act, cls := if r.learned then 0 else 1, overhead := standOverhead c d i
    rngGrant := d.st i == .ranging && (r.grantDue || keyGrantDue d i) && grantAllowed d i f
    rngTwig := act && r.twigDue, msgDue := act && slotDue c d i f
    sliceTw := (slicesOf c (groveOf i) true).countP (fun s => sliceStand c s == i)
    boughs := ((boughsOf c i).map (engBough c d)).foldl (fun l b => insertByIdx b l) [], twigs := 0 }

/-- A frame follows a clearing (R162). -/
def afterClearing (d : Dev) (g f : Nat) : Bool :=
  (clearingAt d g f).isNone && (match f with | 0 => false | k + 1 => (clearingAt d g k).isSome)

/-- The frame that the engine works on (R200). -/
def engFrame (c : Cfg) (d : Dev) (g f : Nat) : EngFrame :=
  { leaves := frameLeaves c g, start := if afterClearing d g f then 5 else 0, slices := sliceTwigs c g
    twigMax := c.get Fields.GNT_GRV_CTRL_twig_max g, used := assureUsed c g, fair := (d.grove g).fairPtr, rot := (d.grove g).rotPtr
    compat := compat c g }

/-- The stands that a map may grant, in ascending stand-in-grove. -/
def engStands (c : Cfg) (d : Dev) (g f : Nat) : List EngStand :=
  ((d.standsOf g).filter (fun i => d.st i == .active || d.st i == .ranging)).map (engStand c d f)

/-- Slice twigs stay ungranted while their stand is not ACTIVE (R247). -/
def dropIdleSlices (d : Dev) (g : Nat) (es : List MapEntry) : List MapEntry :=
  es.filter (fun e => match e.kind with | .slice _ => d.st (standId g e.stand) == .active | _ => true)

/-! ### A computation ends (R200 to R214) -/

/-- Record what a computation gave one bough (R204, R207). -/
def recordBough (x : EngBough) (d : Dev) : Dev :=
  let d := d.updBough x.id (fun b =>
    { b with request := x.request, leaves := x.granted, predLv := x.g6, pollDue := b.pollDue && decide (x.granted = 0) })
  let d := if 0 < x.granted then d.arrive .poll x.id else d
  let d := if x.seen6 then d.mark .pred x.id (if x.cut6 then 1 else 2) else d
  let d := if 0 < x.granted then d.count .bough .leavesGranted x.id x.granted else d
  let d := if 0 < x.g6 then d.count .bough .predLeaves x.id x.g6 else d
  if 0 < x.g5 then d.count .bough .pollGrants x.id else d

/-- A bough whose stand takes no part in the computation has no leaves in the map. -/
def recordIdle (c : Cfg) (b : Nat) (d : Dev) : Dev :=
  d.updBough b (fun x => { x with request := reqOf c b x, leaves := 0, predLv := 0 })

/-- The boughs of upstream slices receive their leaves in step 1, at their positions (R201). -/
def withSlices (ss : List EngStand) : List EngStand := mapActive (fun b => if b.fixedPos then { b with g1 := b.entFixed } else b) ss

/-- Single-bit errors corrected in a computation are counted and shown (R216, R225); their number is free. -/
def eccNoted (g : Nat) (d : Dev) : Dev :=
  let n := Config.eccCorr g d.sfc
  (d.set Fields.GNT_LANE_ECC_ecc_corr (g / 4) (max (d.get Fields.GNT_LANE_ECC_ecc_corr (g / 4)) (min 1 n))).count .grove .engEccCorr g n

/-- Count the leaves of one step of a computation. -/
def countStep (g : Nat) (ss : List EngStand) (ctr : Ctr) (f : EngBough → Nat) (d : Dev) : Dev := d.count .grove ctr g (sumBoughs f ss)

/-- The computation of a grove's map is complete (R200 to R215): once in a tick, in the GRANT region. -/
def grantDone (c : Cfg) (g clk : Nat) (d : Dev) : Dev :=
  let x := d.grove g
  let f := d.sfc + 1
  if x.forceNow then d.updGrove g (fun x => { x with forceNow := false, abandoned := true })
  else if d.running && worksOn c d g x.inService && !x.abandoned && x.computed.isNone && (clearingAt d g f).isNone && decide (1024 ≤ clk) && decide (clk < 150000)
      && !(x.frame.map DsFrame.sfc == some f) then
    let d := d.runTo c clk
    let r := engine (engFrame c d g f) (engStands c d g f)
    let es := dropIdleSlices d g r.entries
    let unused := frameLeaves c g - entryLeaves es
    let d := d.updGrove g (fun x => { x with computed := some { frame := f, entries := es }, rotPtr := r.rot })
    let ss := withSlices r.stands
    let live := ss.flatMap (fun s => if s.active then s.boughs else [])
    let d := ((boughsOfGrove c g).filter (fun b => !(live.any (fun x => x.id == b)))).foldl (fun d b => recordIdle c b d) d
    let d := live.foldl (fun d b => recordBough b d) d
    let d := countStep g ss .leavesStep1 EngBough.g1 d
    let d := countStep g r.stands .leavesStep2 EngBough.g2 d
    let d := countStep g r.stands .leavesStep3 EngBough.g3 d
    let d := countStep g r.stands .leavesStep4 EngBough.g4 d
    let d := countStep g r.stands .leavesStep5 EngBough.g5 d
    let d := countStep g r.stands .leavesStep6 EngBough.g6 d
    let live := es.countP (fun e => e.kind == .ordinary && e.msg && e.runs.all (fun r => r.granted == 0))
    let d := ((d.count .grove .mapsBuilt g).count .grove .unusedLeaves g unused).count .grove .twigsDenied g r.denied
    let d := (d.count .grove .packSplit g r.splits).count .grove .livenessGrants g live
    let d := d.set Fields.GNT_LANE_FINISH_last (g / 4) clk
    eccNoted g (d.set Fields.GNT_LANE_WORST_worst (g / 4) (max clk (d.get Fields.GNT_LANE_WORST_worst (g / 4))))
  else d

/-- ENG_ECC_FATAL: the lane abandons the grove's computation (R216). -/
def engEccFatal (g : Nat) (d : Dev) : Dev :=
  let d := (d.raise Fields.GNT_LANE_ECC_ecc_fatal (g / 4)).count .grove .engEccFatal g
  if (d.grove g).computed.isNone then d.updGrove g (fun x => { x with abandoned := true }) else d

/-- ENG_ECC_FATAL. -/
def execEngEccFatal (g : Fin 64) (s : State) : Outcome := onDev (fun _ d => engEccFatal g d) s

/-- POLL_DUE: the poll watchdog of a bough expires (R204). Where a report of the same edge makes its request non-zero, step 5 gives it nothing in this tick, whatever
the steps before it grant (R219). -/
def pollDueAt (c : Cfg) (b : Nat) (d : Dev) : Dev :=
  if (standOfBough c b).isSome && !(boughType c b == .fixed) && !(c.get Fields.BGH_POLL_poll_int b == 0)
      && d.expired .poll b (c.get Fields.BGH_POLL_poll_int b) then
    d.updBough b (fun x => { x with pollDue := true, pollHold := x.request == 0 && decide (0 < requestOf x) })
  else d

/-- POLL_DUE. -/
def execPollDue (b : Fin 65536) (s : State) : Outcome := onDev (fun c d => pollDueAt c b d) s

/-- PRED_PINNED (R207). -/
def execPredPinned (b : Fin 65536) (s : State) : Outcome :=
  onDev (fun _ d => pinIf .pred b Fields.BGH_STATUS_pinned b .bough .predPinned b d) s

/-! ### The fallback map (R216) -/

/-- The entry with other granted leaves in its runs: pad and length anew, shortened from its end; none where nothing is left of it. -/
def rebuildEntry (cpt : Bool) (e : MapEntry) (rs : List Run) : Option MapEntry :=
  if rs = e.runs then some e
  else
    let kept := (rs.filter (fun r => decide (0 < r.granted))).map (fun r => { r with len := r.granted })
    let a := (kept.map Run.granted).sum
    let p := twigPayload cpt a e.msg
    let ovh := e.len - (e.runs.map Run.len).sum
    if a = 0 ∧ e.msg = false then none
    else some { e with len := p + ovh, runs := if a = 0 then [⟨0, p, 65536, 0⟩] else padRuns (p - a) kept }

/-- Cut runs, given last first, by what is left of each bough's excess. -/
def cutRunsRev : List Run → SMap Nat → List Run × SMap Nat
  | [], ex => ([], ex)
  | r :: rs, ex =>
    let n := min r.granted (ex.getD r.bough 0)
    let q := cutRunsRev rs (ex.setD r.bough (ex.getD r.bough 0 - n) 0)
    ({ r with granted := r.granted - n } :: q.1, q.2)

/-- Cut the runs of entries, given last first. -/
def cutEntriesRev : List MapEntry → SMap Nat → List (MapEntry × List Run)
  | [], _ => []
  | e :: es, ex =>
    let q := cutRunsRev e.runs.reverse ex
    (e, q.1.reverse) :: cutEntriesRev es q.2

/-- The excess of each bough of a map over its max entitlement of the tick: a FIXED bough does not use it (R194). -/
def excessOf (c : Cfg) (d : Dev) (es : List MapEntry) : SMap Nat :=
  let tot := es.foldl (fun m e => e.runs.foldl (fun (m : SMap Nat) r => if r.bough < 65536 then m.upd r.bough 0 (· + r.granted) else m) m) ([] : SMap Nat)
  tot.map (fun p => (p.1, if boughType c p.1 = .fixed then 0 else p.2 - (d.bough p.1).entMax))

/-- Whether two spans of leaves meet. -/
def spansMeet (a b : MapEntry) : Bool := decide (a.start < b.start + b.len) && decide (b.start < a.start + a.len)

/-- Of the entries of a fallback map those that keep a stand at 4 entries, its slice twigs included, and one more for each split (R104). `m` counts the entries of
each stand and says whether the last twig of the stand has stayed. -/
def fitFour : SMap (Nat × Bool) → List MapEntry → List MapEntry
  | _, [] => []
  | m, e :: t =>
    let x := m.getD e.stand (0, true)
    if e.part then (if x.2 then e :: fitFour m t else fitFour m t)
    else if x.1 < 4 then e :: fitFour (m.put e.stand (x.1 + 1, true)) t
    else fitFour (m.put e.stand (x.1, false)) t

/-- Slice twigs with the other entries of a fallback map, within the limits of R104: the slice twigs in force stay whatever their number (R216), and of the others
those in front (DESIGN CHOICE, log 92). -/
def fitMap (sl es : List MapEntry) : List MapEntry :=
  let m := sl.foldl (fun (m : SMap (Nat × Bool)) e => m.put e.stand ((m.getD e.stand (0, true)).1 + 1, true)) []
  sortEntries (sl ++ (fitFour m es).take (1024 - sl.length))

/-- The fallback map of a grove for frame `f` from the last completed one (R104, R216). -/
def fallbackMap (c : Cfg) (d : Dev) (g f : Nat) (last : BuiltMap) : List MapEntry :=
  let cpt := compat c g
  let own := last.entries.filter (fun e =>
    match e.kind with
    | .slice _ => false
    | .discovery => false
    | _ => d.st (standId g e.stand) == .active || d.st (standId g e.stand) == .ranging)
  let unbound := own.filterMap (fun e =>
    rebuildEntry cpt e (e.runs.filter (fun r => decide (65536 ≤ r.bough) || standOfBough c r.bough == some (standId g e.stand))))
  let cut := (cutEntriesRev unbound.reverse (excessOf c d unbound)).reverse.filterMap (fun p =>
    rebuildEntry cpt p.1 p.2)
  let sl := activeSlices c d g
  let clear := cut.filter (fun e =>
    !((sliceTwigs c g).any (spansMeet e)) && !(afterClearing d g f && decide (e.start < 5))
      && !(e.kind == .rangingGrant && (d.rngOf (standId g e.stand)).delayFrame == some f))
  fitMap sl (clear.map (fun e => if e.kind = .rangingTwig then { e with kind := .ordinary } else e))

end Sys2Proof.Machine
end

