-- ==== Sys2Proof/Machine/Slices.lean ====
section
/-!
DEFINITION. Hard slices on the device's state (spec file 09): slice frames received and passed on, defects, protection, flows and their de-jitter
buffers, and the slice region of a downstream frame.
-/

namespace Sys2Proof.Machine

/-! ### Records -/

/-- A slice of which nothing has been received. A `bipRx` of 256 says that no earlier frame is known. -/
def SliceSt.init : SliceSt :=
  { rx := [], twigNow := none, bipRx := 256, bipTx := 256, bipBad := false, aisNow := none, los := false, lost := false, lod := false, ais := false,
    deg := false, lodMiss := 0, lodGood := 0, aisSet := 0, aisClr := 0, errFrames := 0, badInt := 0, goodInt := 0, shown := 0 }

/-- A protection group at rest on its working slice. -/
def Pg.init : Pg :=
  { standing := 0, cmd := none, wtr := false, farRun := 0, farBytes := (0, 0), farReq := 0, req := 0, selected := false, prev := false }

/-- A flow that holds nothing. -/
def FlowSt.init : FlowSt :=
  { locked := false, delta := 0, buf := [], lateNow := false, lateRun := 0, ovfRun := 0, quiet := 0, gotNow := false,
    lossDef := false, rxFrame := none, bipTx := 256 }

/-- The record of a slice. -/
def Dev.slice (d : Dev) (s : Nat) : SliceSt := d.slices.getD s SliceSt.init
/-- Change the record of a slice. -/
def Dev.updSlice (d : Dev) (s : Nat) (f : SliceSt → SliceSt) : Dev := { d with slices := d.slices.upd s SliceSt.init f }
/-- The record of a protection group. -/
def Dev.pg (d : Dev) (p : Nat) : Pg := d.pgs.getD p Pg.init
/-- Change the record of a protection group. -/
def Dev.updPg (d : Dev) (p : Nat) (f : Pg → Pg) : Dev := { d with pgs := d.pgs.upd p Pg.init f }
/-- The record of a flow. -/
def Dev.flow (d : Dev) (f : Nat) : FlowSt := d.flows.getD f FlowSt.init
/-- Change the record of a flow. -/
def Dev.updFlow (d : Dev) (f : Nat) (g : FlowSt → FlowSt) : Dev := { d with flows := d.flows.upd f FlowSt.init g }

/-- The protection groups that are enabled. -/
def enabledPgs (c : Cfg) : List Nat :=
  (c.listed .SLC_PG_CTRL).filterMap (fun p => if c.flag Fields.SLC_PG_CTRL_en p.1 then some p.1 else none)
/-- The flows that are enabled. -/
def enabledFlows (c : Cfg) : List Nat :=
  (c.listed .SLC_FL_CTRL).filterMap (fun p => if c.flag Fields.SLC_FL_CTRL_en p.1 then some p.1 else none)
/-- The working slice of a group. -/
def pgWorking (c : Cfg) (p : Nat) : Nat := c.get Fields.SLC_PG_CTRL_working p
/-- The protect slice of a group. -/
def pgProtect (c : Cfg) (p : Nat) : Nat := c.get Fields.SLC_PG_CTRL_protect p

/-! ### The slice frame (R249 to R253) -/

/-- Byte `k` of a list, 0 where it ends. -/
def byteAt (bs : List Byte) (k : Nat) : Nat := ((bs.drop k).headD 0).toNat

/-- The bitwise majority of three bytes. -/
def majority (a b c : Nat) : Nat := (a &&& b) ||| (a &&& c) ||| (b &&& c)

/-- The XOR of bytes. -/
def xorBytes (bs : List Byte) : Nat := bs.foldl (fun a b => a ^^^ b.toNat) 0

/-- The ones of a byte. -/
def onesOf (v : Nat) : Nat := (bitsMSB 8 v).countP id

/-- The XOR of a byte list with a keystream. -/
def xorStream (bs ks : List Byte) : List Byte := List.zipWith (fun a b => a ^^^ b) bs (padTo bs.length ks)

/-- The payload area under the counter-mode keystream of R253: it is its own inverse. -/
def sliceCipher (d : Dev) (i e s frame : Nat) (up : Bool) (payload : List Byte) : List Byte :=
  let iv := i * 2 ^ 82 + up.toNat * 2 ^ 81 + e * 2 ^ 80 + s * 2 ^ 69 + frame % 2 ^ 48
  let key := workKey d i e (if up then "SLICE-US" else "SLICE-DS")
  xorStream payload (Config.ctrStream key (iv * 2 ^ 32 + 1) payload.length)

/-- The far-end bytes of a protect slice's frame (R261, R262): a code that is not in the table is ignored and counted. -/
def farBytesIn (b3 b4 p : Nat) (d : Dev) : Dev :=
  let x := d.pg p
  if [0xF, 0xD, 0xB, 0x9, 0x7, 0x5, 0x0].contains (b3 / 16) = false then d.count .pgroup .pgBadCode p
  else
    let run := if x.farBytes = (b3, b4) ∧ x.farRun ≠ 0 then min 3 (x.farRun + 1) else 1
    d.updPg p (fun x => { x with farRun := run, farBytes := (b3, b4), farReq := if run = 3 then b3 / 16 else x.farReq })

/-- The majority J of a slice frame in all three copies (R252). -/
def majorityJ (bs : List Byte) : List Byte := List.replicate 3 (BitVec.ofNat 8 (majority (byteAt bs 0) (byteAt bs 1) (byteAt bs 2)))

/-- A slice frame that comes in, from a slice twig or a flow, is examined (R252, R258): its J copies, its BIP-8 against the payload area before, its AIS bit. -/
def examineSlice (s : Nat) (bs pay : List Byte) (d : Dev) : Dev :=
  let x := d.slice s
  let bad := if x.bipRx < 256 then onesOf (x.bipRx ^^^ byteAt bs 7) else 0
  let d := d.updSlice s (fun x => { x with bipRx := xorBytes pay, bipBad := decide (0 < bad), aisNow := some ((byteAt bs 5).testBit 7) })
  let d := if byteAt bs 0 = byteAt bs 1 ∧ byteAt bs 1 = byteAt bs 2 then d else d.count .slice .jDisagree s
  if 0 < bad then d.count .slice .bipErrors s bad else d

/-- A slice frame is received (R252, R253): J by majority, the payload area decrypted, its BIP-8 checked. -/
def sliceReceive (c : Cfg) (s frame : Nat) (raw : List Byte) (d : Dev) : Dev :=
  let i := sliceStand c s
  let bs := padTo (64 * sliceN c s) raw
  let enc := (byteAt bs 6).testBit 6
  let pay := if enc then sliceCipher d i (byteAt bs 6 / 128) s frame true (bs.drop 8) else bs.drop 8
  let head := majorityJ bs ++ (bs.drop 3).take 3 ++ [0#8] ++ (bs.drop 7).take 1
  let d := d.updSlice s (fun x =>
    { x with rx := x.rx.filter (fun r => decide (frame < r.frame + 12)) ++ [{ frame := frame, bytes := head ++ pay }], twigNow := some true })
  let d := examineSlice s bs pay d
  ((enabledPgs c).filter (fun p => pgProtect c p == s)).foldl (fun d p => farBytesIn (byteAt bs 3) (byteAt bs 4) p d) d

/-- A slice twig is missed (R258). -/
def sliceMissed (s : Nat) (d : Dev) : Dev :=
  (d.updSlice s (fun x => { x with twigNow := some false, bipRx := 256, bipBad := false, aisNow := none })).count .slice .missedFrames s

/-! ### Defects (R258, R259) -/

/-- A run of consecutive events. -/
def runOf (n : Nat) (v : Bool) : Nat := if v then n + 1 else 0

/-- The counts of a slice at an edge: consecutive missed and received twigs, AIS frames, and the interval of degradation. -/
def sliceEdge (c : Cfg) (n : Nat) (x : SliceSt) : SliceSt :=
  let x := match x.twigNow with
    | some got => { x with lodMiss := runOf x.lodMiss (!got), lodGood := runOf x.lodGood got }
    | none => x
  let x := match x.aisNow with
    | some a => { x with aisSet := runOf x.aisSet a, aisClr := runOf x.aisClr (!a) }
    | none => x
  let x := { x with errFrames := x.errFrames + x.bipBad.toNat, twigNow := none, aisNow := none, bipBad := false }
  if n % c.get Fields.SLC_DEG_INT_deg_int 0 = 0 then
    let bad := decide (c.get Fields.SLC_DEG_CTRL_deg_thr 0 ≤ x.errFrames)
    { x with errFrames := 0, badInt := runOf x.badInt bad, goodInt := runOf x.goodInt (!bad) }
  else x

/-- A defect that sets on one condition and clears on another. -/
def latchDef (old set clr : Bool) : Bool := if set then true else if clr then false else old

/-- The flows that feed a downstream slice. -/
def flowsInto (c : Cfg) (s : Nat) : List Nat :=
  (enabledFlows c).filter (fun f =>
    (c.flag Fields.SLC_FL_DST_dst_en f && c.get Fields.SLC_FL_DST_dst f == s) || (c.flag Fields.SLC_FL_DST_brg_en f && c.get Fields.SLC_FL_DST_brg f == s))

/-- The defects of a slice as they stand at the edge (R258): those of an upstream slice, or of the ingress flow that feeds a downstream one, shown at each slice that
it feeds (DESIGN CHOICE, log 49). -/
def judgeDefects (c : Cfg) (s : Nat) (d : Dev) (x : SliceSt) : SliceSt :=
  let m := c.get Fields.SLC_DEG_CTRL_deg_m 0
  let fs := flowsInto c s
  let y : SliceSt :=
    { x with los := decide (2 ≤ d.run .los (sliceGrove c s))
             lost := !(d.st (sliceStand c s) == .active)
             lod := if sliceUp c s then latchDef x.lod (decide (2 ≤ x.lodMiss)) (decide (2 ≤ x.lodGood)) else fs.any (fun f => (d.flow f).lossDef)
             ais := latchDef x.ais (decide (3 ≤ x.aisSet)) (decide (3 ≤ x.aisClr))
             deg := latchDef x.deg (decide (m ≤ x.badInt)) (decide (m ≤ x.goodInt)) }
  if sliceUp c s || !(fs.isEmpty) then y else { y with lod := false, ais := false, deg := false }

/-- The defects not suppressed, as the bits of SLC_SL_STATUS (R259): the highest one alone. Grove LOS and stand lost are reported by upstream slices; at a downstream
slice they suppress what lies below them. -/
def shownBits (up : Bool) (x : SliceSt) : Nat :=
  if x.los then (if up then 16 else 0) else if x.lost then (if up then 8 else 0) else if x.lod then 4 else if x.ais then 2 else if x.deg then 1 else 0

/-- The counter of a reported defect. -/
def defectCtr (bits : Nat) : Ctr :=
  if bits = 16 then .defectGroveLos else if bits = 8 then .defectStandLost else if bits = 4 then .defectLod
  else if bits = 2 then .defectAis else .defectDeg

/-- The protection request of a slice's reported defect (R260). -/
def defectReq (d : Dev) (s : Nat) : Nat :=
  let b := (d.slice s).shown
  if b = 0 then 0 else if b = 1 then 0x9 else 0xB

/-! ### Protection (R261 to R265) -/

/-- The local request of a group (R262). -/
def pgLocal (c : Cfg) (d : Dev) (p : Nat) : Nat :=
  let x := d.pg p
  max x.standing (max (defectReq d (pgWorking c p)) (if x.wtr then 0x5 else 0))

/-- The request in force of a group (R262). -/
def pgRequest (c : Cfg) (d : Dev) (p : Nat) : Nat :=
  if c.flag Fields.SLC_PG_CTRL_bidir p then max (pgLocal c d p) (d.pg p).farReq else pgLocal c d p

/-- Whether the selector takes protect (R263). -/
def pgChoice (req protReq : Nat) : Bool :=
  if req = 0xF ∨ req = 0 then false
  else if req = 0xD ∨ req = 0x5 then true
  else if req = 0xB then !(protReq == 0xB)
  else protReq == 0

/-- The selector of a group as what has been judged at the edge sets it (R263). -/
def pgSelect (c : Cfg) (p : Nat) (d : Dev) : Dev :=
  let req := pgRequest c d p
  d.updPg p (fun x => { x with req := req, selected := pgChoice req (defectReq d (pgProtect c p)) })

/-- The judgement of a group behind everything else of its edge (R262, R263, R270): a selection other than that of the edge before is counted. -/
def pgClose (c : Cfg) (p : Nat) (d : Dev) : Dev :=
  let d := pgSelect c p d
  if (d.pg p).selected = (d.pg p).prev then d else d.count .pgroup .pgSwitches p

/-- A group begins an edge: the selection so far governs the frames of the tick before (R263), and a command of SLC_PG_CMD takes effect (R265): 0 is CLEAR. -/
def pgCommand (p : Nat) (d : Dev) : Dev :=
  let d := d.updPg p (fun x => { x with prev := x.selected })
  match (d.pg p).cmd with
  | none => d
  | some 0 =>
    let d := d.updPg p (fun x => { x with cmd := none, standing := 0, wtr := if x.prev then false else x.wtr })
    if (d.pg p).prev then d.disarm .wtr p else d
  | some k => d.updPg p (fun x => { x with cmd := none, standing := k })

/-- The working slice's defect has changed: WAIT_TO_RESTORE is armed when it clears while protect is selected, and disarmed when it returns (R264). -/
def pgDefect (c : Cfg) (s before : Nat) (p : Nat) (d : Dev) : Dev :=
  let now := (d.slice s).shown
  let d := if pgWorking c p = s then
      if before ≠ 0 ∧ now = 0 ∧ (d.pg p).prev then (d.armNow .wtr p).updPg p (fun x => { x with wtr := true })
      else if now ≠ 0 then (d.disarm .wtr p).updPg p (fun x => { x with wtr := false })
      else d
    else d
  pgSelect c p d

/-- SLICE_DEFECT_CHANGE: the defects of a slice are judged at the edge, and their consequences follow (R258 to R260, R264). -/
def sliceDefectChange (c : Cfg) (s : Nat) (d : Dev) : Dev :=
  if c.flag Fields.SLC_SL_CTRL_en s then
    let before := (d.slice s).shown
    let d := d.updSlice s (fun x => let y := judgeDefects c s d x; { y with shown := shownBits (sliceUp c s) y })
    let now := (d.slice s).shown
    let d := if now ≠ 0 ∧ now ≠ before then (d.count .slice (defectCtr now) s).raiseBit Fields.INT_SLC_CAUSE_slices (s / 32) (s % 32) else d
    ((enabledPgs c).filter (fun p => pgWorking c p == s || pgProtect c p == s)).foldl (fun d p => pgDefect c s before p d) d
  else d

/-- SLICE_DEFECT_CHANGE. -/
def execSliceDefectChange (s : Fin 2048) (t : State) : Outcome := onDev (fun c d => sliceDefectChange c s d) t

/-- PG_FAR_REQUEST: a far-end request accepted in three consecutive frames is judged with the rest (R262). -/
def execPgFarRequest (pg : Fin 1024) (s : State) : Outcome := onDev (fun c d => pgSelect c pg d) s

/-- WTR_EXPIRY (R264). A defect that returns at the edge has the group judged on it all the same, before or behind this (R270). -/
def wtrExpiry (c : Cfg) (p : Nat) (d : Dev) : Dev :=
  if (d.pg p).wtr && d.expired .wtr p (c.get Fields.SLC_PG_WTR_wtr_ticks p) then
    pgSelect c p ((d.disarm .wtr p).updPg p (fun x => { x with wtr := false }))
  else d

/-- WTR_EXPIRY. -/
def execWtrExpiry (pg : Fin 1024) (s : State) : Outcome := onDev (fun c d => wtrExpiry c pg d) s

/-! ### Flows (R266 to R268) -/

/-- The chunks of a slice frame of n slots. -/
def chunkCount (n chunk : Nat) : Nat := (n + chunk - 1) / chunk

/-- The common RoE header of R266 and the frame's chunk behind it. -/
def roePacket (c : Cfg) (f frame idx : Nat) (chunk : List Byte) : List Byte :=
  let mac := fun (lo hi : Fld) => toBytesBE 2 (c.get hi f % 2 ^ 16) ++ toBytesBE 4 (c.get lo f)
  let tag := if c.flag Fields.SLC_FL_VLAN_vlan_en f then toBytesBE 2 0x8100 ++ toBytesBE 2 (c.get Fields.SLC_FL_VLAN_tci f) else []
  mac Fields.SLC_FL_DMAC_LO_mac Fields.SLC_FL_DMAC_HI_mac ++ mac Fields.SLC_FL_SMAC_LO_mac Fields.SLC_FL_SMAC_HI_mac ++ tag
    ++ toBytesBE 2 0xFC3D ++ [BitVec.ofNat 8 Config.roeSubType] ++ toBytesBE 1 (c.get Fields.SLC_FL_CTRL_flow_id f)
    ++ toBytesBE 2 chunk.length ++ toBytesBE 4 (frame % 2 ^ 24 * 256 + idx) ++ chunk

/-- Cut bytes into pieces. -/
def pieces (size : Nat) : Nat → List Byte → List (List Byte)
  | 0, _ => []
  | k + 1, bs => bs.take size :: pieces size k (bs.drop size)

/-- The slice that passed for a source in the tick before: the group's selected slice, or the slice itself (R261, R263). -/
def flowSource (c : Cfg) (d : Dev) (f : Nat) : Nat :=
  let s := c.get Fields.SLC_FL_CTRL_src f
  if c.flag Fields.SLC_FL_CTRL_src_kind f then (if (d.pg s).prev then pgProtect c s else pgWorking c s) else s

/-- An AIS frame of n slots (R257). -/
def aisFrame (n bip : Nat) : List Byte :=
  [0#8, 0#8, 0#8, 0#8, 0#8, 0x80#8, 0#8, BitVec.ofNat 8 bip] ++ List.replicate (64 * n - 8) 0xFF#8

/-- The frame that an upstream slice passes on from upstream frame `k`, none where a consequent action replaces it (R257, R258, R260). -/
def passedFrame (d : Dev) (s k : Nat) : Option (List Byte) :=
  let x := d.slice s
  if 4 ≤ x.shown then none else (x.rx.find? (fun r => r.frame == k)).map SliceRx.bytes

/-- Byte 3 and byte 4 of a slice: the local request and the selection of the group whose protect slice names it as its reverse (R261). -/
def pgBytes (c : Cfg) (d : Dev) (s : Nat) : Nat × Nat :=
  match (enabledPgs c).find? (fun p =>
      c.flag Fields.SLC_SL_FILL_rev_en (pgProtect c p) && c.get Fields.SLC_SL_FILL_rev (pgProtect c p) == s) with
  | some p => (pgLocal c d p * 16, (d.pg p).selected.toNat * 128 + 64)
  | none => (0, 0)

/-- RDI is set in a slice that a slice with a failure names as its reverse (R260). -/
def rdiOf (c : Cfg) (d : Dev) (s : Nat) : Bool :=
  (enabledSlices c).any (fun u => c.flag Fields.SLC_SL_FILL_rev_en u && c.get Fields.SLC_SL_FILL_rev u == s && decide (4 ≤ (d.slice u).shown))

/-- The overhead of a slice frame that the device sends for a slice (R250, R252): bytes 3 to 5 under R260 and R262, byte 6 clear, and byte 7 as given. -/
def passOn (c : Cfg) (d : Dev) (s : Nat) (rdi : Bool) (bs : List Byte) (b7 : Nat) : List Byte :=
  let pb := pgBytes c d s
  let b5 := byteAt bs 5 / 128 * 128 + 64 * (rdi || rdiOf c d s).toNat
  bs.take 3 ++ [BitVec.ofNat 8 pb.1, BitVec.ofNat 8 pb.2, BitVec.ofNat 8 b5, 0#8, BitVec.ofNat 8 b7] ++ bs.drop 8

/-- The queue of the flow packets of an uplink port: above every other queue (R267, R385). -/
def flowQueue (lane : Nat) : Nat := upQueueBase + 512 + lane

/-- A packet that no buffer of a pool holds. -/
def loosePkt (d : Dev) (fl : Nat × Nat × Nat) (bs : List Byte) : QPkt :=
  { uid := d.uid, bytes := bs, pool := 0, buf := 0, gen := 0, tick := d.sfc, clock := d.clock, reps := 0, moved := true, sec0 := 0, sec1 := 0, off := 0, stay := false
    stamp := none, flow := some fl }

/-- Queue a flow packet. -/
def pushFlow (lane : Nat) (fl : Nat × Nat × Nat) (bs : List Byte) (d : Dev) : Dev :=
  let q := flowQueue lane
  { d.setQueue q { d.queue q with head := (d.queue q).head ++ [loosePkt d fl bs] } with uid := d.uid + 1 }

/-- An egress flow sends the frame of its source that was received in the tick before (R254, R267). -/
def flowEgress (c : Cfg) (f : Nat) (d : Dev) : Dev :=
  let s := flowSource c d f
  let g := sliceGrove c s
  if sliceUp c s && c.flag Fields.SLC_SL_CTRL_en s && decide (tLoop d g + 1 ≤ d.sfc) then
    let n := sliceN c s
    let k := d.sfc - tLoop d g - 1
    let r := passedFrame d s k
    let sent := (d.flow f).bipTx
    let raw := r.getD (aisFrame n 0)
    let bs := passOn c d s false raw (if r.isNone || decide (256 ≤ sent) then sent % 256 else byteAt raw 7)
    let d := d.updFlow f (fun x => { x with bipTx := xorBytes (bs.drop 8) + (if r.isNone then 256 else 0) })
    let d := if r.isNone then d.count .slice .aisFramesSent s else d
    let chunk := c.get Fields.SLC_FL_PKT_chunk f
    let ps := pieces (64 * chunk) (chunkCount n chunk) bs
    (ps.zipIdx).foldl (fun d p => pushFlow (c.get Fields.SLC_FL_CTRL_port f) (f, k, p.2) (roePacket c f k p.2 p.1) d) d
  else d

/-- The frame of a flow packet near a tick (R268): f ≡ r + Δ (mod 2^24) in [t − 2^23, t + 2^23). -/
def nearFrame (t r delta : Nat) : Int :=
  let m := ((((r + delta : Nat) : Int) - t + 2 ^ 23) % 2 ^ 24) - 2 ^ 23
  (t : Int) + m

/-- The slices that a flow feeds. -/
def flowDests (c : Cfg) (f : Nat) : List Nat :=
  (if c.flag Fields.SLC_FL_DST_dst_en f then [c.get Fields.SLC_FL_DST_dst f] else [])
    ++ (if c.flag Fields.SLC_FL_DST_brg_en f then [c.get Fields.SLC_FL_DST_brg f] else [])

/-- The ingress stamp of the first accepted packet of a flow's most recent frame (R472): a packet of the same frame or of an older one changes nothing. -/
def flowStamp (f r stamp : Nat) (d : Dev) : Dev :=
  if (match (d.flow f).rxFrame with | some o => decide (2 ^ 23 ≤ (r + 2 ^ 24 - o - 1) % 2 ^ 24) | none => false) then d
  else ((((d.updFlow f (fun x => { x with rxFrame := some r })).set Fields.TIME_FL_RX_FRAME_frame f r).set Fields.TIME_FL_RX_SEC_sec f
    (timeSec stamp % 2 ^ 32)).set Fields.TIME_FL_RX_NS_ns f (timeNs stamp))

/-- A RoE packet of a flow (R266, R268) that arrived in tick `t` with an ingress stamp. `seq` is its orderInfo. A late packet is accepted, and counts as received; one
that lies too far ahead is dropped, and does not (DESIGN CHOICE, log 49). -/
def flowPacketRx (c : Cfg) (f seq t stamp : Nat) (bs : List Byte) (d : Dev) : Dev :=
  if c.flag Fields.SLC_FL_CTRL_en f && !(flowDests c f).isEmpty then
    let x := d.flow f
    let r := seq / 256 % 2 ^ 24
    let delta := if x.locked then x.delta else (t + c.get Fields.SLC_FL_PKT_dj_ticks f + 2 ^ 24 - r) % 2 ^ 24
    let fr := nearFrame t r delta
    if (d.sfc : Int) + 16 < fr then (d.updFlow f (fun x => { x with ovfRun := x.ovfRun + 1 })).count .flow .djOverflow f
    else
    let d := (d.updFlow f (fun x =>
      { x with locked := true, delta := delta, gotNow := true, quiet := 0, lossDef := false, rxFrame := if x.locked then x.rxFrame else none })).count .flow .pktsRx f
    let d := flowStamp f r stamp d
    if fr < (d.sfc : Int) + 1 ∨ (fr = (d.sfc : Int) + 1 ∧ 172500 ≤ d.clock) then
      (d.updFlow f (fun x => { x with lateNow := true })).count .flow .djLate f
    else
      let n := fr.toNat
      d.updFlow f (fun x =>
        let has := x.buf.any (fun b => b.frame == n)
        { x with ovfRun := 0
                 buf := if has then x.buf.map (fun b => if b.frame = n then { b with pkts := b.pkts ++ [(seq % 256, bs)] } else b)
                   else x.buf ++ [{ frame := n, pkts := [(seq % 256, bs)] }] })
  else d

/-- FLOW_PACKET_RX. -/
def execFlowPacketRx (f : Fin 256) (seq : Nat) (bytes : List Byte) (s : State) : Outcome :=
  onDev (fun c d => flowPacketRx c f seq d.sfc (ingressStamp c (c.get Fields.SLC_FL_CTRL_port f) d) bytes d) s

/-- DJ_SLIP: after 8 consecutive late frames or overflows the flow unlocks and relocks (R268). -/
def djSlip (f : Nat) (d : Dev) : Dev :=
  let x := d.flow f
  if 8 ≤ x.lateRun ∨ 8 ≤ x.ovfRun then
    (d.updFlow f (fun x => { x with locked := false, buf := [], lateRun := 0, ovfRun := 0, lateNow := false })).count .flow .djSlip f
  else d

/-- DJ_SLIP. -/
def execDjSlip (f : Fin 256) (s : State) : Outcome := onDev (fun _ d => djSlip f d) s

/-- A flow at a commit edge: consecutive late frames, and flow loss after 3 ticks without a packet, which unlocks the flow (R258, R268). -/
def flowEdge (x : FlowSt) : FlowSt :=
  let x := { x with lateRun := runOf x.lateRun x.lateNow, lateNow := false }
  if x.gotNow then { x with gotNow := false, quiet := 0 }
  else if 3 ≤ x.quiet + 1 then { x with quiet := x.quiet + 1, lossDef := true, locked := false, buf := [] }
  else { x with quiet := x.quiet + 1 }

/-! ### The slice region of a downstream frame (R246, R254 to R257, R260, R268) -/

/-- The page that governs the frame now being built: the former one in the tick of a swap (R256). -/
def pageInForce (d : Dev) : Nat :=
  let a := d.get Fields.SLC_PAGE_CTRL_active 0
  if d.slcSwap = some d.sfc then 1 - a else a

/-- A connection's source passes: a slice of a protection group passes while it is selected (R261), its frame of the tick before under the selection of that tick
(R263). -/
def sourcePasses (c : Cfg) (d : Dev) (s : Nat) : Bool :=
  (enabledPgs c).all (fun p => (!(pgWorking c p == s) || !(d.pg p).prev) && (!(pgProtect c p == s) || (d.pg p).prev))

/-- The upstream slice that feeds a downstream slice. -/
def sourceOf (c : Cfg) (d : Dev) (s : Nat) : Option Nat :=
  (((d.conns.getD (pageInForce d) []).filter (fun x => x.dst == s)).map Conn.src).find? (sourcePasses c d)

/-- The frame that a flow plays into frame `f`, and whether it is whole (R268): missing slots go as all ones with AIS set. -/
def playFrame (c : Cfg) (d : Dev) (fl f n : Nat) : List Byte × Bool :=
  let chunk := c.get Fields.SLC_FL_PKT_chunk fl
  let ps := (((d.flow fl).buf.find? (fun b => b.frame == f)).map DjFrame.pkts).getD []
  let k := chunkCount n chunk
  let all := (List.range k).flatMap (fun j =>
    match ps.find? (fun p => p.1 == j) with
    | some p => padTo (64 * chunk) p.2
    | none => List.replicate (64 * chunk) 0xFF#8)
  let bs := padTo (64 * n) all
  if (List.range k).all (fun j => ps.any (fun p => p.1 == j)) then (bs, true)
  else (bs.take 5 ++ [BitVec.ofNat 8 (byteAt bs 5 ||| 0x80)] ++ bs.drop 6, false)

/-- The frame that comes to a downstream slice from a flow in frame `f`, and whether it is whole: none while the flow is not locked. -/
def flowFrame (c : Cfg) (d : Dev) (s f : Nat) : Option (List Byte × Bool) :=
  (flowsInto c s).head?.bind (fun fl => if (d.flow fl).lossDef || !((d.flow fl).locked) then none else some (playFrame c d fl f (sliceN c s)))

/-- The first chunk of a flow's frame, which holds the overhead of the slice frame. -/
def firstChunk (c : Cfg) (d : Dev) (s f : Nat) : Option (List Byte) :=
  (flowsInto c s).head?.bind (fun fl => (((d.flow fl).buf.find? (fun b => b.frame == f)).bind (fun b => b.pkts.find? (fun p => p.1 == 0))).map Prod.snd)

/-- A frame that a flow brings is examined at each slice that it feeds, as a received one is (R252, R258; log 49): one whose first chunk alone has come by its
overhead, and the BIP-8 of the next frame has nothing to be held against then. -/
def flowIn (c : Cfg) (s f : Nat) (d : Dev) : Dev :=
  match flowFrame c d s f, firstChunk c d s f with
  | some (bs, true), _ => examineSlice s bs (bs.drop 8) d
  | some (_, false), some bs => (examineSlice s bs [] d).updSlice s (fun x => { x with bipRx := 256 })
  | _, _ => if (flowsInto c s).isEmpty then d else d.updSlice s (fun x => { x with bipRx := 256 })

/-- What a downstream slice carries in frame `f` before its overhead is set, and whether it is as received: none for an AIS frame (R254, R257). -/
def sliceContent (c : Cfg) (d : Dev) (s f : Nat) : Option (List Byte × Bool) :=
  let i := sliceStand c s
  if !(d.st i == .active) || !((d.keysOf i).ready) then none
  else if (flowsInto c s).isEmpty then
    (sourceOf c d s).bind (fun u =>
      let t := tLoop d (sliceGrove c u)
      if t + 2 ≤ f then (passedFrame d u (f - t - 2)).map (fun bs => (bs, true)) else none)
  else (flowFrame c d s f).map (fun r => (majorityJ r.1 ++ r.1.drop 3, r.2))

/-- The plaintext slice frame of a downstream slice in frame `f`, whether it is an AIS frame, and whether the device made or changed its payload area (R250, R252,
R257, R260). -/
def sliceFrame (c : Cfg) (d : Dev) (s f : Nat) : List Byte × Bool × Bool :=
  let sent := (d.slice s).bipTx
  let rdi := (sourceOf c d s).any (rdiOf c d)
  match sliceContent c d s f with
  | none => (passOn c d s rdi (aisFrame (sliceN c s) 0) (sent % 256), true, true)
  | some (bs, whole) => (passOn c d s rdi bs (if 256 ≤ sent then sent % 256 else byteAt bs 7), false, !whole)

/-- Build the slice region of frame `f` of a grove: the frames by first slot, and the slices whose frames are AIS frames. `ais` makes AIS frames everywhere (R630). -/
def buildRegion (c : Cfg) (g f : Nat) (ais : Bool) (d : Dev) : List (Nat × List Byte) × List Nat × Dev :=
  (slicesOf c g false).foldl (fun (acc : List (Nat × List Byte) × List Nat × Dev) s =>
    let d := if ais then acc.2.2 else flowIn c s f acc.2.2
    let r := if ais then (aisFrame (sliceN c s) ((d.slice s).bipTx % 256), true, true) else sliceFrame c d s f
    let d := d.updSlice s (fun x => { x with bipTx := xorBytes (r.1.drop 8) + (if r.2.2 then 256 else 0) })
    (acc.1 ++ [(sliceFirst c s, r.1)], if r.2.1 then acc.2.1 ++ [s] else acc.2.1, d)) ([], [], d)

/-- Frames of the de-jitter buffers up to `f` have been played (R268). -/
def playout (f : Nat) (d : Dev) : Dev :=
  { d with flows := d.flows.mapVals (fun _ x => { x with buf := x.buf.filter (fun b => decide (f < b.frame)) }) }

end Sys2Proof.Machine
end

