-- ==== Sys2Proof/Machine/Bursts.lean ====
section
/-!
DEFINITION. Upstream bursts (spec file 04): outcomes, reports, phases and presets, message slots, shares and reassembly, decryption, and the
handing of packets to the upstream pipelines; the reassembly timer; light outside grants; OMCI from compatibility groves.
-/

namespace Sys2Proof.Machine

/-! ### Delivery upstream (R15, R277, R436) -/

/-- A pipeline that holds nothing. -/
def PipeSt.init : PipeSt := { ingress := [], recirc := [], learn := [], wait := none, last := none }
/-- A pipeline. -/
def Dev.pipe (d : Dev) (p : Nat) : PipeSt := d.pipes.getD p PipeSt.init
/-- Change a pipeline. -/
def Dev.updPipe (d : Dev) (p : Nat) (f : PipeSt → PipeSt) : Dev := { d with pipes := d.pipes.upd p PipeSt.init f }

/-- A packet enters a pipeline's ingress buffer, or is dropped where that is full (R277). -/
def enterPipe (p : Nat) (pkt : PipePkt) (d : Dev) : Dev :=
  if (d.pipe p).ingress.length < 2048 then d.updPipe p (fun x => { x with ingress := x.ingress ++ [pkt] })
  else d.count .device .ingressDrop p

/-- The upstream pipeline of a grove (R15). -/
def upPipe (g : Nat) : Nat := 16 + g / 4

/-- Bytes that a standby holds. -/
def heldBytes (hs : List HeldUp) : Nat := (hs.map (fun h => h.pkt.bytes.length)).sum

/-- The oldest frame of which a standby holds packets (R436). -/
def oldestHeld : List HeldUp → Nat
  | [] => 0
  | [h] => h.frame
  | h :: t => min h.frame (oldestHeld t)

/-- Drop the oldest frame's packets while a standby holds more than its limit (R436): what stays, and what goes. -/
def trimHeld (limit : Nat) : Nat → List HeldUp → List HeldUp × List HeldUp
  | 0, hs => (hs, [])
  | n + 1, hs =>
    if heldBytes hs ≤ limit then (hs, [])
    else
      let gone := fun (y : HeldUp) => y.frame == oldestHeld hs
      let r := trimHeld limit n (hs.filter (fun y => !(gone y)))
      (r.1, hs.filter gone ++ r.2)

/-- The near buffers of packets that a standby held are free again. -/
def freeHeld (hs : List HeldUp) (d : Dev) : Dev := hs.foldl (fun d h => d.freeBuf 0 h.pool h.buf h.gen (upPipe h.grove)) d

/-- An upstream packet as its pipeline sees it. -/
def upPkt (i b stamp : Nat) (bs : List Byte) (tagOk : Bool) (d : Dev) : PipePkt :=
  { kind := .stand, bytes := bs, a := i, b := b, tick := d.sfc, clock := d.clock, stamp := stamp, bank := 0, hash := 0, tagOk := tagOk }

/-- A standby holds a verified packet of upstream frame `k` in a near buffer (R436). One that finds no buffer is dropped as any packet of its pipeline is (R360;
DEDUCED, log 94). -/
def holdUp (c : Cfg) (g k : Nat) (pkt : PipePkt) (d : Dev) : Dev :=
  match takeBuf c 0 (upPipe g) (poolsFrom pkt.bytes.length) d with
  | (none, d) => d.count .device .nearEmptyDrop (upPipe g)
  | (some (pool, b, gen), d) =>
    let r := trimHeld (c.get Fields.MATE_HOLD_us_hold_mib 0 * 2 ^ 20) 64
      (d.mate.held ++ [{ grove := g, frame := k, pkt := pkt, pool := pool, buf := b, gen := gen }])
    freeHeld r.2 { d.count .device .usHoldDrop 0 r.2.length with mate := { d.mate with held := r.1 } }

/-- A verified upstream packet goes to its pipeline, or is held by a standby (R436). -/
def deliverUp (c : Cfg) (i b k stamp : Nat) (bs : List Byte) (d : Dev) : Dev :=
  let pkt := upPkt i b stamp bs true d
  if d.isStandby && pairedGrove c d (groveOf i) then holdUp c (groveOf i) k pkt d
  else enterPipe (upPipe (groveOf i)) pkt d

/-! ### Decryption (R398, R400, R402, R403) -/

/-- The IV of a unicast packet (R398). -/
def lineIv (i : Nat) (up : Bool) (e ctr : Nat) : Nat := i * 2 ^ 82 + up.toNat * 2 ^ 81 + e * 2 ^ 80 + ctr % 2 ^ 48

/-- How an upstream packet is judged. -/
inductive UpCheck where
  | epochAbsent | ctrStopped (stops : Bool) | ctrReplay | tagFail (plain : List Byte) | good (plain : List Byte)
  deriving DecidableEq, Repr

/-- The checks of R402 in their order. -/
def upCheck (d : Dev) (i b keyIndex : Nat) (bs : List Byte) : UpCheck :=
  let e := keyIndex - 1
  let ep := (d.keysOf i).ep e
  let ctr := ofBytesBE (bs.take 6)
  if !(keyIndex == 1 || keyIndex == 2) || !ep.held || ep.restored || decide (d.sfc < ep.usFrom) then .epochAbsent
  else if ep.usStopped || ctr == 2 ^ 48 - 1 then .ctrStopped (ctr == 2 ^ 48 - 1)
  else if (match d.lastCtr.get? (upRec i b e) with | some l => decide (ctr ≤ l) | none => false) then .ctrReplay
  else
    let ct := (bs.drop 6).take (bs.length - 22)
    let r := Config.gcmOpen (workKey d i e "LINE-US") (lineIv i true e ctr) (toBytesBE 2 b) ct
    if bs.length < 22 ∨ r.2 ≠ ofBytesBE (bs.drop (bs.length - 16)) then .tagFail (padTo ct.length r.1) else .good (padTo ct.length r.1)

/-- A warning at 2^47 (R400): the flag, the interrupt, and a rekey where auto_rekey asks for one. A standby takes its keys from its mate: it warns of nothing before it
is active (R433; DEDUCED, log 94). -/
def ctrWarn (c : Cfg) (i : Nat) (d : Dev) : Dev :=
  if d.isStandby then d
  else
    let d := (d.raise Fields.KEY_STD_STATE_ctr_warn i).standEvent i
    if c.flag Fields.KEY_CTRL_auto_rekey 0 && d.st i == .active then startAgreement i true d else d

/-- The counter of a verified packet is recorded (R400, R402). -/
def noteUpCtr (c : Cfg) (i b e ctr : Nat) (d : Dev) : Dev :=
  let old := ((d.keysOf i).ep e).usHigh
  let d := { d with lastCtr := d.lastCtr.put (upRec i b e) ctr }
  let d := d.updKeys i (fun k => k.updEp e (fun x => { x with usHigh := max x.usHigh ctr, usStopped := x.usStopped || ctr == 2 ^ 48 - 2 }))
  if old < 2 ^ 47 ∧ 2 ^ 47 ≤ ctr then ctrWarn c i d else d

/-- A whole upstream packet of a native bough: checked and delivered. Where its beginning may be a lost packet's remainder, a failure counts as
reasm_discard alone (R101). A packet passes to its pipeline as it is decrypted, before its tag is known: one whose tag fails takes its pass there, and nothing of it
is committed (R21, R302, R403). -/
def upPacket (c : Cfg) (i b k stamp keyIndex : Nat) (bs : List Byte) (doubt : Bool) (d : Dev) : Dev :=
  match upCheck d i b keyIndex bs with
  | .good p => deliverUp c i b k stamp p (noteUpCtr c i b (keyIndex - 1) (ofBytesBE (bs.take 6)) d)
  | r =>
    let d := match r with
      | .tagFail p => if d.isStandby then d else enterPipe (upPipe (groveOf i)) (upPkt i b stamp p false d) d
      | _ => d
    if doubt then (d.count .stand .reasmDiscard i).count .grove .reasmDiscard (groveOf i)
    else
      match r with
      | .epochAbsent => d.count .stand .epochAbsent i
      | .ctrStopped stops =>
        let d := d.count .stand .ctrStopped i
        if stops then d.updKeys i (fun x => x.updEp (keyIndex - 1) (fun y => { y with usStopped := true })) else d
      | .ctrReplay => d.count .stand .ctrReplay i
      | _ => if d.isStandby then d else (d.count .stand .tagFail i).updKeys i (fun x => { x with fails := x.fails ++ [d.sfc] })

/-! ### Shares and reassembly (R99 to R101, R113) -/

/-- A part of a share: a fragment with its header, whether a header was corrected, or a loss. -/
inductive SharePart where
  | frag (h : EncapHdr) (payload : List Byte)
  | idle
  | lost
  deriving DecidableEq, Repr

/-- The bytes of a list of received bytes, none where any is lost. -/
def wholeBytes (bs : List (Option Byte)) : Option (List Byte) := bs.mapM id

/-- Read a share: its parts in order, and how many headers were corrected and failed. `hunt` says that delineation was lost: the share goes on at the first word
behind the header of the damaged fragment that holds a header with a zero-error check, its undamaged payload included (R113; DESIGN CHOICE, log 92). A
fragment is damaged where its payload or its padding touches lost bytes. A data header whose length runs past the share is no failed header: its fragment is
lost and the hunt begins behind it (DESIGN CHOICE, log 92). A header with options that R71 reserves is read and passed over like an idle fragment, and an idle
fragment may run past the share: it ends there (DESIGN CHOICE, log 92). -/
def readShare : Nat → Bool → List (Option Byte) → List SharePart × Nat × Nat
  | 0, _, _ => ([], 0, 0)
  | n + 1, hunt, bs =>
    if bs.length < 8 then ([], 0, 0)
    else
      match wholeBytes (bs.take 8) with
      | none =>
        let r := readShare n true (bs.drop 8)
        (if hunt then r.1 else .lost :: r.1, r.2)
      | some w =>
        let word := ofBytesBE w
        if hunt && !(hecOk word) then readShare n true (bs.drop 8)
        else
          match hecRead word with
          | none => let r := readShare n true (bs.drop 8); (.lost :: r.1, r.2.1, r.2.2 + 1)
          | some (h, fixed) =>
            let span := fragSpan h.len
            if bs.length < span ∧ h.options = 0 then let r := readShare n true (bs.drop 8); (.lost :: r.1, r.2.1 + fixed.toNat, r.2.2)
            else
              match wholeBytes ((bs.drop 8).take (span - 8)) with
              | some p =>
                let r := readShare n false (bs.drop span)
                ((if h.options = 0 then .frag h (p.take h.len) else .idle) :: r.1, r.2.1 + fixed.toNat, r.2.2)
              | none => let r := readShare n true (bs.drop 8); (.lost :: r.1, r.2.1 + fixed.toNat, r.2.2)

/-- A partial packet is lost (R101). -/
def dropPart (i b : Nat) (d : Dev) : Dev :=
  if (d.bough b).part.isSome then
    (((d.updBough b (fun x => { x with part := none, orphan := true })).disarm .reasm b).count .stand .reasmDiscard i).count
      .grove .reasmDiscard (groveOf i)
  else d

/-- A fragment begins or ends a packet of its own. -/
def freshFrag (c : Cfg) (i b k start : Nat) (h : EncapHdr) (p : List Byte) (doubt : Bool) (d : Dev) : Dev :=
  let t := (d.mailOf i).stamp
  if h.last then upPacket c i b k t h.keyIndex p doubt d
  else
    let q : Partial := { keyIndex := h.keyIndex, bytes := p, stamp := t, doubt := doubt, twig := (k, start) }
    (d.updBough b (fun x => { x with part := some q, orphan := false })).armNext .reasm b

/-- The first fragment of a share meets the bough's partial packet (R101). -/
def firstFrag (c : Cfg) (i b k start : Nat) (h : EncapHdr) (p : List Byte) (d : Dev) : Dev :=
  let x := d.bough b
  match x.part with
  | some q =>
    if x.orphan then freshFrag c i b k start h p true ((dropPart i b d).updBough b (fun x => { x with orphan := false }))
    else
      let all := q.bytes ++ p
      if h.last then upPacket c i b k q.stamp q.keyIndex all q.doubt ((d.updBough b (fun x => { x with part := none })).disarm .reasm b)
      else (d.updBough b (fun x => { x with part := some { q with bytes := all, twig := (k, start) } })).armNext .reasm b
  | none => freshFrag c i b k start h p x.orphan (d.updBough b (fun x => { x with orphan := false }))

/-- A part of a share behind the first. -/
def laterPart (c : Cfg) (i b k start : Nat) (q : SharePart) (d : Dev) : Dev :=
  match q with
  | .frag h p => freshFrag c i b k start h p false (dropPart i b d)
  | .idle => d
  | .lost => (dropPart i b d).updBough b (fun x => { x with orphan := true })

/-- A non-empty share of a bough (R99 to R101). A pending packet whose remainder is not the share's first fragment can no longer be joined: it waits for its timer
(R121), or goes with the next fragment. What a fragment's bough_id says is not looked at, and a packet's length is not held against R74: the spec gives the
device no check of either (DESIGN CHOICE, log 92). -/
def takeShare (c : Cfg) (i b k start : Nat) (share : List (Option Byte)) (d : Dev) : Dev :=
  let r := readShare (share.length / 8 + 1) false share
  let g := groveOf i
  let d := (d.count .grove .hecCorrected g r.2.1).count .grove .hecFailed g r.2.2
  let spans := (r.1.map (fun q => match q with | .frag _ p => fragSpan p.length | _ => 0)).sum
  let d := d.updBough b (fun x => { x with dataRx := x.dataRx ++ [(k, start, spans)] })
  match r.1 with
  | [] => d
  | .frag h p :: rest => rest.foldl (fun d q => laterPart c i b k start q d) (firstFrag c i b k start h p d)
  | .idle :: rest => rest.foldl (fun d q => laterPart c i b k start q d) (d.updBough b (fun x => { x with orphan := x.part.isSome }))
  | .lost :: rest =>
    rest.foldl (fun d q => laterPart c i b k start q d) ((dropPart i b d).updBough b (fun x => { x with orphan := true }))

/-- The share of one run goes to its bough (R99, R197). A run of the shape of R140 names bough index 0: its share is that bough's, where the stand has one. -/
def takeRun (c : Cfg) (i k start : Nat) (r : Run) (share : List (Option Byte)) (d : Dev) : Dev :=
  if share = [] then d
  else if 65536 ≤ r.bough then (match boughAt c i r.idx with | some b => takeShare c i b k start share d | none => d)
  else if standOfBough c r.bough = some i then takeShare c i r.bough k start share d
  else d.count .grove .unboundShare (groveOf i)

/-- Divide the data bytes behind the message slot among the runs (R99). -/
def takeRuns (c : Cfg) (i k start : Nat) (data : List (Option Byte)) : Nat → List Run → Dev → Dev
  | _, [], d => d
  | a, r :: rs, d =>
    takeRuns c i k start data (a + r.len) rs (takeRun c i k start r ((data.drop (58 * a)).take (58 * r.len)) d)

/-! ### Codewords (R92, R113) -/

/-- The data capacities of the codewords of a payload of `p` leaves. -/
def cwSizes (p : Nat) : List Nat :=
  List.replicate (p / 20) 1160 ++ (if p % 20 = 0 then [] else [64 * (p % 20) - 120])

/-- The data stream of a burst's payload: lost bytes where a codeword is lost. -/
def dataStream : List Nat → List CwRx → List (Option Byte)
  | [], _ => []
  | n :: ns, [] => List.replicate n none ++ dataStream ns []
  | n :: ns, w :: ws =>
    (match w.info with | some bs => (padTo n bs).map some | none => List.replicate n none) ++ dataStream ns ws

/-- The data stream of a slice twig: the bits of a codeword that cannot be corrected pass as they were decoded (R252). -/
def sliceStream : List Nat → List CwRx → List Byte
  | [], _ => []
  | n :: ns, [] => zeroBytes n ++ sliceStream ns []
  | n :: ns, w :: ws => padTo n (w.info.getD w.raw) ++ sliceStream ns ws

/-- The codewords of a burst that were lost: those of its payload that did not decode. -/
def lostCws (sizes : List Nat) (cws : List CwRx) : Nat := sizes.length - (cws.take sizes.length).countP (fun w => w.info.isSome)

/-- Count the codewords of a burst for its grove (R113, R124), those of a discovery burst too. -/
def countCws (g : Nat) (sizes : List Nat) (cws : List CwRx) (d : Dev) : Dev :=
  let ok := (cws.take sizes.length).filter (fun w => w.info.isSome)
  let d := (d.count .grove .cwDecoded g ok.length).count .grove .cwCorrected g (ok.countP (fun w => decide (0 < w.fixed)))
  (d.count .grove .symbolsCorrected g ((ok.map CwRx.fixed).sum)).count .grove .cwUncorrectable g (lostCws sizes cws)

/-! ### Message slots (R98, R174 to R178, R411) -/

/-- A message of a type is permitted in a state (R166). -/
def typeAllowed (st : StandSt) (ty : Nat) : Bool :=
  match st with
  | .ranging => ty == 0x07 || ty == 0x08
  | .active => [0x07, 0x08, 0x0B, 0x11, 0x12].contains ty
  | .resting => [0x07, 0x08, 0x0B, 0x11, 0x12].contains ty
  | _ => false

/-- The tag of a message under an epoch's message key (R175). -/
def msgTag (d : Dev) (i e : Nat) (bytes : List Byte) : Nat := Config.cmac (workKey d i e "MSG") (bytes.take 56) / 2 ^ 64

/-- The tag of an upstream message verifies under an epoch the stand holds (R411). -/
def tagGood (d : Dev) (i : Nat) (bytes : List Byte) : Bool :=
  [0, 1].any (fun e => ((d.keysOf i).ep e).held && msgTag d i e bytes == ofBytesBE ((bytes.drop 56).take 8))

/-- An upstream message in a burst's slot (R176 to R178): accepted, it is judged at the next edge. Where the burst's header is not good, `bare`, an authenticated
message alone is accepted (R113). A standby judges no line message (R433). A message that fails several checks counts for the first of these: its type, its nonce,
its tag, the rest (DESIGN CHOICE, log 92). -/
def slotMessage (i k idx : Nat) (bare : Bool) (bytes : List Byte) (d : Dev) : Dev :=
  let g := groveOf i
  let ty := byteAt bytes 0
  let w := ofBytesBE ((bytes.drop 1).take 2)
  let keyed := w / 32 % 2 == 1
  if d.isStandby then d
  else if ty = 0 ∨ 0x12 < ty then d.count .grove .msgBadType g
  else if ofBytesBE ((bytes.drop 3).take 6) ≠ k ∨ byteAt bytes 9 ≠ idx then d.count .stand .msgReplay i
  else if keyed && !(tagGood d i bytes) then
    ((d.count .stand .msgAuthFail i).count .stand .tagFail i).updKeys i (fun x => { x with fails := x.fails ++ [d.sfc] })
  else if w / 128 ≠ inGrove i ∨ w / 64 % 2 ≠ 1 ∨ typeAllowed (d.st i) ty = false
      ∨ (keyed = false ∧ ¬(bare = false ∧ ty = 0x07 ∧ d.st i = .ranging ∧ (d.keysOf i).ready = false)) then d.count .stand .msgRejected i
  else
    let m : InMsg := { stand := i, ty := ty, body := (bytes.drop 10).take 46, raw := bytes.take 64 }
    (d.updGrove g (fun x => { x with inbox := x.inbox ++ [m] })).count .stand .msgRx i

/-! ### Headers, phases and presets (R95, R96, R109, R111, R149, R150) -/

/-- A header is good (R96): it decodes, its CRC checks, its reserved fields are zero and at most 8 reports are named. -/
def headerGood (h : List Byte) : Bool :=
  h.length == 32 && crc16 (h.take 30) == ofBytesBE (h.drop 30) && byteAt h 1 % 64 == 0 && byteAt h 3 == 0
    && decide ((bitsMSB 16 (ofBytesBE ((h.drop 4).take 2))).countP id ≤ 8)

/-- The reports of a header as (bough index, occupancy), in ascending index (R95). -/
def headerReports (h : List Byte) : List (Nat × Nat) :=
  let map := ofBytesBE ((h.drop 4).take 2)
  let ids := (List.range 16).filter (fun i => map.testBit i)
  ids.zipIdx.map (fun p => (p.1, ofBytesBE ((h.drop (6 + 3 * p.2)).take 3)))

/-- The mate offset of a grove (R437). -/
def Dev.ofs (d : Dev) (g : Nat) : MateOfs :=
  d.mate.ofs.getD g { u := 0, w := 0, learned := false, phases := [], sum := 0, num := 0 }

/-- Whether a frame lies in the wide search that follows a takeover (R443). -/
def wideFrame (d : Dev) (k : Nat) : Bool :=
  match d.mate.wideFrom with | some t => decide (t ≤ k) && decide (k ≤ t + 7) | none => false

/-- Half the search window of an entry (R109, R140, R148, R443). -/
def windowOf (c : Cfg) (d : Dev) (k : Nat) (e : MapEntry) : Nat :=
  match e.kind with
  | .rangingGrant => 2048
  | .rangingTwig => 2048
  | _ => if wideFrame d k then c.get Fields.MATE_TKO_WIN_tko_win 0 else 16

/-- The expected position of an entry's delimiter (R109, R437). -/
def expectedPos (d : Dev) (g : Nat) (e : MapEntry) : Int :=
  ((e.start + e.len - (e.runs.map Run.len).sum : Nat) : Int) * 256 - 256 + (d.ofs g).u

/-- Move a coefficient towards its adapted value by at most a step, then into its bound: the value, and whether it was clamped. -/
def refineTap (step : Nat) (bound : Int) (old new : Int) : Int × Bool :=
  let v := if old < new then min (old + step) new else max (old - step) new
  let w := max (-bound) (min bound v)
  (w, decide (v ≠ w))

/-- Clamp a sampling phase to a span around its learned value. The span does not wrap around between 63 and 0 (R150; DESIGN CHOICE, log 92). -/
def clampSamp (mid span v : Nat) : Nat × Bool :=
  let w := max (mid - span) (min (mid + span) v)
  (w % 64, decide (w ≠ v))

/-- Move the main cursor towards its adapted value by at most a step: it has no bound but its 8 bits (R150). -/
def refineMain (step : Nat) (old new : Int) : Int × Bool := ((refineTap step 128 old (max (-128) (min 127 new))).1, false)

/-- The refined preset and whether anything was clamped (R150). -/
def refinePreset (step ffe dfe span mid : Nat) (p : Preset) (e : EqRx) : Preset × Bool :=
  let taps := (p.ffe.zip e.ffe).zipIdx.map (fun q => if q.2 = 1 then refineMain step q.1.1 q.1.2 else refineTap step ffe q.1.1 q.1.2)
  let fb := refineTap step dfe p.dfe e.dfe
  let sp := clampSamp mid span e.samp
  ({ p with ffe := taps.map Prod.fst, dfe := fb.1, samp := sp.1 }, taps.any Prod.snd || fb.2 || sp.2)

/-- Every coefficient moved by at most a step (R149). -/
def withinStep (step : Nat) (p : Preset) (e : EqRx) : Bool :=
  ((p.dfe, e.dfe) :: p.ffe.zip e.ffe).all (fun q => decide ((q.2 - q.1).natAbs ≤ step))

/-- A tap within its bound. -/
def clampTap (bound : Nat) (v : Int) : Int := max (-(bound : Int)) (min bound v)

/-- What the adaptation of a class-1 burst leaves as the current preset (R149): no coefficient lies outside the grove's bounds (R150), and the main cursor is a signed
byte. -/
def adaptedPreset (ffe dfe : Nat) (e : EqRx) : Preset :=
  { ffe := e.ffe.zipIdx.map (fun q => if q.2 = 1 then max (-128) (min 127 q.1) else clampTap ffe q.1), dfe := clampTap dfe e.dfe
    ctle := e.ctle % 16, samp := e.samp % 64, vga := e.vga % 64 }

/-- What a burst with a phase does to the stand's preset (R149 to R151). A standby takes presets from its mate (R433). -/
def presetBurst (c : Cfg) (i cls : Nat) (e : EqRx) (d : Dev) : Dev :=
  let g := groveOf i
  let step := c.get Fields.GRV_PRESET_BOUND_step g
  let p := presetFor c d i
  let r := d.rngOf i
  if d.isStandby then d
  else if r.learned then
    let q := refinePreset step (c.get Fields.GRV_PRESET_BOUND_ffe_max g) (c.get Fields.GRV_PRESET_BOUND_dfe_max g)
      (c.get Fields.GRV_PRESET_BOUND_phase_span g) r.learnSamp p e
    (d.updRng i (fun r => { r with preset := some q.1 })).mark .preset i (if q.2 then 1 else 2)
  else if cls = 1 then
    let q := adaptedPreset (c.get Fields.GRV_PRESET_BOUND_ffe_max g) (c.get Fields.GRV_PRESET_BOUND_dfe_max g) e
    let good := decide (e.mse ≤ c.get Fields.GRV_PRESET_MSE_mse_thr g) && withinStep step p { e with ffe := q.ffe, dfe := q.dfe }
    d.updRng i (fun r => { r with preset := some q
                                  learnCount := if good then min 31 (r.learnCount + 1) else 0 })
  else d

/-! ### Outcomes (R116) -/

/-- A burst of which nothing was heard. -/
def silentBurst : RxBurst := { locked := false, pos := none, header := none, cws := [], eq := none, reports := [], sdus := [] }

/-- The outcomes of R116. -/
inductive BurstOut where
  | received | hdrFail | noLock | delimMiss | standInvalid | standMismatch | silencedDiscard
  deriving DecidableEq, Repr

/-- The counter of an outcome. -/
def BurstOut.ctr : BurstOut → Ctr
  | .received => .burstsReceived
  | .hdrFail => .hdrFail
  | .noLock => .noLock
  | .delimMiss => .delimMiss
  | .standInvalid => .standInvalid
  | .standMismatch => .standMismatch
  | .silencedDiscard => .silencedDiscard

/-- A burst counts as missed for its stand (R116). -/
def BurstOut.missed : BurstOut → Bool
  | .received => false
  | .hdrFail => false
  | _ => true

/-- A burst of upstream frame `k` is discarded at receipt: its stand has become SILENCED or ABSENT since its map was sealed (R117), or it is a slice twig whose
stand has left ACTIVE (R271). -/
def burstVoid (d : Dev) (i k : Nat) (e : MapEntry) : Bool :=
  d.st i == .silenced || d.st i == .absent || (match (d.mailOf i).voidTo with | some f => decide (k ≤ f) | none => false) ||
    (match e.kind with | .slice _ => !(d.st i == .active) | _ => false)

/-- The outcome of a burst on its entry (R107 to R113, R117, R271). -/
def burstOut (c : Cfg) (d : Dev) (g k : Nat) (e : MapEntry) (rx : RxBurst) : BurstOut :=
  let i := standId g e.stand
  if burstVoid d i k e then .silencedDiscard
  else if rx.locked = false then .noLock
  else
    match rx.pos with
    | none => .delimMiss
    | some p =>
      if windowOf c d k e < (p - expectedPos d g e).natAbs then .delimMiss
      else if compat c g then .received
      else
        match rx.header with
        | none => .hdrFail
        | some h =>
          if headerGood h = false then .hdrFail
          else
            let s := ofBytesBE (h.take 2) / 128
            if 256 ≤ s then .standInvalid else if s ≠ e.stand then .standMismatch else .received

/-- Count an outcome (R124). -/
def countOut (o : BurstOut) (i : Nat) (d : Dev) : Dev :=
  let g := groveOf i
  let d := if o = .hdrFail then d.count2 .burstsReceived i else d
  if o = .standInvalid ∨ o = .standMismatch then d.count .grove o.ctr g else d.count2 o.ctr i

/-- The phase of a burst (R111): taken from every burst whose header is good or failed (R116). -/
def phaseOf (o : BurstOut) (d : Dev) (g : Nat) (e : MapEntry) (rx : RxBurst) : Option Int :=
  if o.missed then none else rx.pos.map (fun p => p - expectedPos d g e)

/-- The phases of a frame's bursts adjust the mate offsets: those that a non-reference standby hears, and those of the frames from which a new active learns w
(R438, R439). -/
def offsetsTake (d : Dev) (k : Nat) : Bool :=
  !(d.flag Fields.MATE_STATUS_reference 0) &&
    (d.isStandby || (match d.mate.learnFrom with | some t => decide (t ≤ k) && decide (k ≤ t + 7) | none => false))

/-- What a phase, or its lack, does for the stand (R142, R145, R148, R438, R443). -/
def notePhase (c : Cfg) (i k : Nat) (e : MapEntry) (phi : Option Int) (d : Dev) : Dev :=
  let special := e.kind == .rangingGrant || e.kind == .rangingTwig
  let d := match phi with
    | some p =>
      let d := d.updRng i (fun r => { r with lastPhase := p })
      if offsetsTake d k then
        let o := d.ofs (groveOf i)
        { d with mate := { d.mate with ofs := d.mate.ofs.put (groveOf i) { o with phases := o.phases ++ [p] } } }
      else d
    | none => d
  let d := if special then d.updRng i (fun r => { r with resNow := some phi }) else d
  match phi with
  | some p =>
    let wide := wideFrame d k && decide (c.get Fields.GRV_RNG_CTRL_drift_thr (groveOf i) < p.natAbs)
    d.updRng i (fun r => { r with phases := r.phases ++ [p], resNow := if wide then some (some p) else r.resNow })
  | none => d

/-- What a missed or failed burst does (R101, R152). -/
def noteMiss (c : Cfg) (i k start : Nat) (o : BurstOut) (d : Dev) : Dev :=
  let d := if o.missed then d.updMail i (fun m => { m with missed := m.missed ++ [(k, start)] }) else d
  let d := if o.missed then (boughsOf c i).foldl (fun d b => d.updBough b (fun x => { x with orphan := true })) d else d
  d.updRng i (fun r =>
    { r with missRun := if r.learned && (o == .noLock || o == .delimMiss || o == .hdrFail) then r.missRun + 1 else 0 })

/-- A burst whose header is not good, between two fragments of a packet, keeps them from being joined (R101); its own shares are no such gap. -/
def breakJoins (c : Cfg) (i k start : Nat) (d : Dev) : Dev :=
  (boughsOf c i).foldl (fun d b => d.updBough b (fun x =>
    { x with orphan := x.orphan || (match x.part with | some q => !(q.twig == (k, start)) | none => false) })) d

/-- The reports of a burst (R106, R198): those of the last twig of the tick with a good header. Which boughs they name is settled at the edge (R217). -/
def noteReports (i k : Nat) (e : MapEntry) (reps : List (Nat × Nat)) (d : Dev) : Dev :=
  if e.rpt then
    d.updMail i (fun m =>
      match m.reps with
      | some (f, s, _) => if f < k ∨ (f = k ∧ s ≤ e.start) then { m with reps := some (k, e.start, reps) } else m
      | none => { m with reps := some (k, e.start, reps) })
  else if reps.isEmpty then d else d.count .grove .rptUnrequested (groveOf i)

/-- The burst sequence (R116). -/
def noteSeq (i seq : Nat) (d : Dev) : Dev :=
  let prev := (d.mailOf i).prevSeq
  let d := d.updMail i (fun m => { m with prevSeq := some seq })
  match prev with
  | some p => if (p + 1) % 256 = seq then d else d.count2 .seqGap i
  | none => d

/-- The place of an entry among its stand's entries (R176). -/
def entryIdx (es : List MapEntry) (n : Nat) (s : Nat) : Nat := ((es.take n).filter (fun e => e.stand == s)).length

/-- The payload of a burst with a good or failed header (R98, R99, R113). In a clearing's frame a slice twig whose header fails is lost (R126), and missed (R272). -/
def takePayload (c : Cfg) (i k idx : Nat) (e : MapEntry) (o : BurstOut) (rx : RxBurst) (d : Dev) : Dev :=
  let p := (e.runs.map Run.len).sum
  let sizes := cwSizes p
  let d := (countCws (groveOf i) sizes rx.cws d).count .stand .cwUncorrectable i (lostCws sizes rx.cws)
  let data := dataStream sizes rx.cws
  let flag := match rx.header with | some h => (byteAt h 1).testBit 6 | none => false
  let d := if e.msg && (o == .hdrFail || flag) then
      let d := if flag && o == .received then d.updMail i (fun m => { m with slotNow := true }) else d
      match wholeBytes (data.take 64) with
      | some bs => slotMessage i k idx (o == .hdrFail) bs d
      | none => d
    else d
  let rest := if e.msg then data.drop 64 else data
  match e.kind with
  | .slice s =>
    if o = .hdrFail ∧ (clearingAt d (groveOf i) k).isSome then sliceMissed s d
    else sliceReceive c s k ((sliceStream sizes rx.cws).take (64 * sliceN c s)) d
  | _ => takeRuns c i k e.start rest 0 e.runs d

/-- Bytes that a service data unit takes on the line of a compatibility grove: an XGEM header of 8 bytes, and the payload in whole words of 4 bytes (PRESUMED,
log 93). -/
def xgemSpan (n : Nat) : Nat := 8 + (n + 3) / 4 * 4

/-- The packets of a compatibility burst, for the boughs whose ids are their XGEM Port-IDs (R234), decrypted under the stand's data key (R227, R238). -/
def takeSdus (c : Cfg) (i k start : Nat) (sdus : List (Nat × List Byte)) (d : Dev) : Dev :=
  sdus.foldl (fun d p =>
    if standOfBough c p.1 = some i then
      deliverUp c i p.1 k (d.mailOf i).stamp (xgemText d i k p.1 p.2)
        (d.updBough p.1 (fun x => { x with dataRx := x.dataRx ++ [(k, start, xgemSpan p.2.length)] }))
    else d.count .grove .unboundShare (groveOf i)) d

/-- DBRu reports of a stand as status reports (R236): by Alloc-ID to its bough index (R234), in leaves of 32 bytes, rounded up. -/
def dbruReports (i : Nat) (rs : List (Nat × Nat)) : List (Nat × Nat) :=
  let base := 1024 + 16 * inGrove i
  (rs.filter (fun r => decide (base ≤ r.1) && decide (r.1 < base + 16))).map (fun r => (r.1 - base, (r.2 * Config.dbruBytes + 31) / 32))

/-- The first payload leaf of an entry, as symbols after its frame's start. -/
def payloadAt (e : MapEntry) : Int := ((e.start + e.len - (e.runs.map Run.len).sum : Nat) : Int) * 256

/-- The symbols of an upstream frame at which BURST_EN is high (R114): from the second guard leaf of each grant to its last leaf, all shifted earlier by
burst_en_adv. -/
def burstHigh (c : Cfg) (g : Nat) (es : List MapEntry) : List (Int × Int) :=
  let adv := signed 11 (c.get Fields.GRV_US_CTRL_burst_en_adv g)
  es.map (fun e => (((e.start + 1 : Nat) : Int) * 256 - adv, ((e.start + e.len : Nat) : Int) * 256 - adv))

/-- The map of the upstream frame that a grove receives in the present tick. -/
def mapNow (d : Dev) (g : Nat) : Option SealedMap := (d.grove g).maps.find? (fun m => m.frame + m.tloop == d.sfc)

/-- At the commit edge that begins the reception of an upstream frame, BURST_EN's course over the frame (R114); the pin stays low while the outputs are held safe
(R488). -/
def burstEnable (c : Cfg) (g : Nat) (d : Dev) : Dev :=
  match mapNow d g with
  | some m => if m.entries.isEmpty || coreSafe d then d else d.emit (.burstEn g (burstHigh c g m.entries))
  | none => d

/-- The courses of BURST_EN that a safe state cuts short go low (R488). -/
def burstsOff (d : Dev) : Dev :=
  ((List.range 64).filter (fun g => match mapNow d g with | some m => !(m.entries.isEmpty) | none => false)).foldl (fun d g => d.emit (.burstEn g [])) d

/-- An armed RSSI trigger fires for the stand's next burst (R114): the pin is high over its payload leaves, once. The next burst is the next one with preamble lock,
whatever becomes of its delimiter: one without lock leaves the trigger armed (DESIGN CHOICE, log 92). -/
def fireRssi (i : Nat) (e : MapEntry) (d : Dev) : Dev :=
  if (d.grove (groveOf i)).rssiArm = some (inGrove i) then
    ((d.updGrove (groveOf i) (fun x => { x with rssiArm := none })).set Fields.GRV_US_RSSI_CTRL_rssi_done (groveOf i) 1).emit
      (.rssi (groveOf i) (payloadAt e) (((e.start + e.len : Nat) : Int) * 256))
  else d

/-- The served time at which a delimiter arrived at the burst-receive balls (R463): its position is counted from the start of the upstream frame, whose
first symbol arrives at the commit edge of the tick, in the symbols or bit periods of the grove (R230). The time runs as the selected domain and the offset do in the
tick (R476). -/
def burstStamp (c : Cfg) (g : Nat) (d : Dev) (pos : Int) : Nat := stampOf (tickTime d (pos.toNat * tickClocks) (tickUnits c g))

/-- The bursts whose presets are read while an entry's burst is still being received: they start within 2 leaves of its end (R107, R118). -/
def readsBehind (c : Cfg) (g : Nat) (ms : List SealedMap) (k : Nat) (e : MapEntry) : Option (Nat × MapEntry) :=
  let fin := e.start + e.len
  match (ms.filter (fun m => m.frame == k)).findSome? (fun m => m.entries.find? (fun x => decide (fin ≤ x.start) && decide (x.start < fin + 2))) with
  | some x => some (k, x)
  | none =>
    ((ms.filter (fun m => m.frame == k + 1)).findSome? (fun m => m.entries.find? (fun x => decide (x.start + frameLeaves c g < fin + 2)))).map (fun x => (k + 1, x))

/-- The preset that a stand's bursts are received under (R107, R149): its own once that is learned, the grove's default before. -/
def rxPreset (c : Cfg) (d : Dev) (i : Nat) : Preset := if (d.rngOf i).learned then presetFor c d i else defPreset c (groveOf i)

/-- The equalizer banks at a burst (R107): the bank loaded ahead becomes active, or the preset is read now; then the bank is loaded for a burst that starts right
behind this one, before what this one refines is written. -/
def loadBanks (c : Cfg) (g k : Nat) (e : MapEntry) (d : Dev) : Dev :=
  let x := d.grove g
  let now := match x.eqShadow with
    | some (at_, p) => if at_ = (k, e.start) then p else rxPreset c d (standId g e.stand)
    | none => rxPreset c d (standId g e.stand)
  let next := (readsBehind c g x.maps k e).map (fun q => ((q.1, q.2.start), rxPreset c d (standId g q.2.stand)))
  d.updGrove g (fun x => { x with eqActive := some now, eqShadow := next })

/-- The receiver of a grove stands at the grove's default preset: in a clearing (R134), on a compatibility grove (R230), and where it searches without a map
(R441). -/
def defaultBank (c : Cfg) (g : Nat) (d : Dev) : Dev := d.updGrove g (fun x => { x with eqActive := some (defPreset c g), eqShadow := none })

/-- A granted burst ends in its outcome (R116). -/
def burstEnd (c : Cfg) (g k idx : Nat) (e : MapEntry) (rx : RxBurst) (d : Dev) : Dev :=
  let d := if compat c g then defaultBank c g d else loadBanks c g k e d
  let i := standId g e.stand
  let o := burstOut c d g k e rx
  let phi := phaseOf o d g e rx
  let d := (countOut o i d).updGrove g (fun x => { x with tally := (x.tally.1 + 1, x.tally.2 + o.missed.toNat) })
  let d := if rx.locked then { d with hits := d.hits.put (runKey .los g) 1 } else d
  let d := notePhase c i k e phi (noteMiss c i k e.start o d)
  let d := if rx.locked then fireRssi i e d else d
  let d := match rx.pos with | some p => d.updMail i (fun m => { m with stamp := burstStamp c g d p }) | none => d
  if o.missed then
    match e.kind with
    | .slice s =>
      let d := sliceMissed s d
      if (clearingAt d g k).isSome then d.count .grove .clrSliceLoss g else d
    | _ => d
  else
    let d := if d.st i = .active then d.arrive .lost i else d
    let d := match rx.eq with | some q => if compat c g then d else presetBurst c i e.cls q d | none => d
    if compat c g then takeSdus c i k e.start rx.sdus (noteReports i k e (dbruReports i rx.reports) d)
    else
      let d := match o, rx.header with
        | .received, some h => noteSeq i (byteAt h 2) (noteReports i k e (headerReports h) d)
        | _, _ => d
      let d := takePayload c i k idx e o rx d
      let d := if o = .hdrFail then breakJoins c i k e.start d else d
      match e.kind with
      | .slice _ => if o = .hdrFail ∧ (clearingAt d g k).isSome then d.count .grove .clrSliceLoss g else d
      | _ => d

/-! ### Discovery bursts (R127, R134 to R136) -/

/-- A well-formed discovery answer of a slot: serial, random delay and precoder support. Its nonce names the clearing's first frame, whose discovery entry it
answers, and that entry's place among its kind (R176, R178). -/
def answerOf (frame : Nat) (bytes : List Byte) : Option (Nat × Nat × Bool) :=
  let w := ofBytesBE ((bytes.drop 1).take 2)
  let body := bytes.drop 10
  if byteAt bytes 0 = 0x02 ∧ w / 128 = 0x1FF ∧ w / 64 % 2 = 1 ∧ w / 32 % 2 = 0 ∧ ofBytesBE ((bytes.drop 3).take 6) = frame ∧ byteAt bytes 9 = 0 then
    some (ofBytesBE (body.take 8), ofBytesBE ((body.drop 8).take 2), (byteAt body 10).testBit 0)
  else none

/-- The window of a clearing's answers, in symbols after the start of its first upstream frame (R134, R437); behind an accepted delimiter it begins where the
suspension ends. -/
def clearingWindow (d : Dev) (g : Nat) (cl : Clearing) : Int × Int :=
  let lo : Int := ((cl.s0 + 66 : Nat) : Int) * 256 - 16 + (d.ofs g).u
  let hi : Int := ((cl.s0 + 19266 + 4000 * cl.diffKm : Nat) : Int) * 256 + 16 + (d.ofs g).u
  (match cl.resume with | some r => max r lo | none => lo, hi)

/-- What the receiver makes of a burst in a clearing: raw symbols are searched over the part of the window that they cover. The seed of the descrambler is that of
the discovery entry. Behind a suspension the tone and the sequence of the lock lie behind its end too (R134): of a burst that comes as heard, the tone ends there at
the earliest (DEDUCED, log 91). -/
def clearingRx (d : Dev) (g k : Nat) (cl : Clearing) (precoder : Bool) (b : BurstIn) : RxBurst :=
  let w := clearingWindow d g cl
  let ahead : Int := (((k - cl.frame) * 12800000 : Nat) : Int)
  let fresh := cl.resume.map (fun r => r - ahead)
  match b with
  | .heard rx =>
    match rx.pos, fresh with
    | some p, some f => { rx with locked := rx.locked && decide (f < p - 256 * (preambleLeaves 3 - 2 : Nat)) }
    | _, _ => rx
  | .line r =>
    let lo := max (w.1 - ahead) r.start
    let hi := min (w.2 - ahead) (r.start + r.levels.length)
    rawReceive fresh r cl.frame cl.s0 3 3 precoder (searchAt lo (hi + 1 - lo).toNat)

/-- A burst in a clearing (R134 to R136): a delimiter accepted in the window brings an answer, good or bad, and suspends the search for 1,024 symbols. A quiet window
brings Serial_Number_ONU messages instead (R233). -/
def discoveryBurst (c : Cfg) (g k : Nat) (cl : Clearing) (precoder : Bool) (b : BurstIn) (d : Dev) : Dev :=
  let rx := clearingRx d g k cl precoder b
  let d := if rx.locked then { d with hits := d.hits.put (runKey .los g) 1 } else d
  match (if rx.locked && !cl.compat then rx.pos else none) with
  | none => d
  | some p =>
    let x : Int := p + (((k - cl.frame) * 12800000 : Nat) : Int)
    let w := clearingWindow d g cl
    if x < w.1 ∨ w.2 < x then d
    else
      let d := (defaultBank c g (countCws g (cwSizes 3) rx.cws d)).updGrove g (fun y =>
        { y with clearings := y.clearings.map (fun z => if z.frame = cl.frame then { z with resume := some (x + 1024) } else z) })
      let slot := wholeBytes ((dataStream (cwSizes 3) rx.cws).take 64)
      let ans := match rx.header, slot with
        | some h, some bs =>
          if headerGood h && ofBytesBE (h.take 2) / 128 == 0x1FF && (byteAt h 1).testBit 6 then answerOf cl.frame bs else none
        | _, _ => none
      match ans with
      | some (ser, r, pc) =>
        d.updGrove g (fun y =>
          { y with ansInbox := y.ansInbox ++ [{ frame := cl.frame, pos := (x - (d.ofs g).u).toNat, serial := ser, r := r, precoder := pc }] })
      | none => (d.count .grove .discBad g).updGrove g (fun y => { y with badAns := true })

/-- What the receiver makes of symbols in a frame `k` whose map it has not received (R441): it searches every position that the symbols cover. The leaf at which a
burst would have started, and with it the seed, follows from the leaf nearest to its delimiter and the preamble class (DEDUCED, log 91). -/
def blindHeader (c : Cfg) (d : Dev) (g k : Nat) (r : RawBurst) : Option (List Byte) :=
  (searchAt r.start r.levels.length).findSome? (fun x =>
    [0, 1].findSome? (fun cls =>
      let leaf := (x - (d.ofs g).u + 128) / 256
      let rx := rawReceive none r k ((leaf + 1 - twigOverhead cls).toNat) cls 0 (c.flag Fields.GRV_DS_CTRL_precoder_en g) [x]
      if (rx.header.map headerGood) == some true then rx.header else none))

/-- A standby hears a burst in a frame whose map it has not received (R441): its receivers stand at the default preset, and a good header of a stand that the mirror
holds as ACTIVE or RANGING shows an active master. -/
def fibreHeard (c : Cfg) (g : Nat) (b : BurstIn) (d : Dev) : Dev :=
  let d := defaultBank c g d
  let header := match b with
    | .line r => blindHeader c d g (d.sfc - tLoop d g) r
    | .heard rx => if rx.locked then rx.header else none
  match header with
  | some h =>
    let s := ofBytesBE (h.take 2) / 128
    let st := d.st (standId g s)
    if headerGood h && decide (s < 256) && (st == .active || st == .ranging) then { d with mate := { d.mate with fibreNow := true } } else d
  | none => d

/-- What the receiver makes of a burst on an entry of a sealed map (R97, R107 to R109). On a compatibility grove the burst's symbols are the standard's, under the burst
profile that its allocation named (R227, R230, R236). -/
def grantRx (c : Cfg) (d : Dev) (g : Nat) (m : SealedMap) (e : MapEntry) (b : BurstIn) : RxBurst :=
  match b with
  | .heard rx => rx
  | .line r =>
    if compat c g then
      (Config.g9804Burst (c.get Fields.GRV_CPT_PROFILE_profile (4 * g)) (c.flag Fields.GRV_MODE_us_rate g) m.frame e.start r).getD silentBurst
    else
      let w := windowOf c d m.frame e
      rawReceive none r m.frame e.start e.cls ((e.runs.map Run.len).sum) m.precoder (searchAt (expectedPos d g e - (w : Int)) (2 * w + 1))

/-- The entries of a map that `due` names and whose bursts have not come end as not heard (R116), in the order of their places. -/
def endUnheard (c : Cfg) (g : Nat) (m : SealedMap) (due : MapEntry → Bool) (d : Dev) : Dev :=
  ((m.entries.zipIdx).filter (fun p => due p.1 && !(p.1.kind == .discovery) && !(m.got.contains p.2))).foldl (fun d p =>
    burstEnd c g m.frame (entryIdx m.entries p.2 p.1.stand) p.1 silentBurst d) d

/-- The places of a map whose bursts are over when the burst of a place comes: its own, and those of entries that start before. -/
def placesOver (m : SealedMap) (entry : Nat) (e : MapEntry) : List Nat :=
  (m.entries.zipIdx).filterMap (fun p => if (p.2 == entry || decide (p.1.start < e.start)) && !(m.got.contains p.2) then some p.2 else none)

/-- BURST_RECEIVE: a burst of the upstream frame now being received, the one T_loop before, for the entry with a place in its map (R33, R43). T_loop is
the frame's own: a new one governs later frames (R44). Bursts come in the order of their places on the line: those of earlier entries that have not come are over
(R101, R107; DESIGN CHOICE, log 92). -/
def burstReceive (c : Cfg) (g entry : Nat) (b : BurstIn) (d : Dev) : Dev :=
  let x := d.grove g
  if d.running && !(groveParked d g) then
    match x.maps.find? (fun m => m.frame + m.tloop == d.sfc) with
    | none => if d.isStandby || d.mate.witness then fibreHeard c g b d else d
    | some m =>
      let k := m.frame
      match m.entries[entry]? with
      | some e =>
        if e.kind = .discovery then (match clearingAt d g k with | some cl => discoveryBurst c g k cl m.precoder b d | none => d)
        else if m.got.contains entry then d
        else
          let d := endUnheard c g m (fun x => decide (x.start < e.start)) (d.updGrove g (fun x =>
            { x with maps := x.maps.map (fun y => if y.frame = k then { y with got := placesOver m entry e ++ y.got } else y) }))
          burstEnd c g k (entryIdx m.entries entry e.stand) e (grantRx c d g m e b) d
      | none => match clearingAt d g k with | some cl => discoveryBurst c g k cl m.precoder b d | none => d
  else d

/-- BURST_RECEIVE. -/
def execBurstReceive (g : Fin 64) (entry : Nat) (b : BurstIn) (s : State) : Outcome := onDev (fun c d => burstReceive c g entry b d) s

/-- The receipt of a clearing's frame counts as an arrival for the lost watchdog of every ACTIVE stand that is owed no grant in it (R169). -/
def clearingArrival (g : Nat) (m : SealedMap) (d : Dev) : Dev :=
  if m.kind = .clearing then
    ((d.standsOf g).filter (fun i => d.st i == .active && !(m.entries.any (fun e => e.stand == inGrove i)))).foldl (fun d i => d.arrive .lost i) d
  else d

/-- The entries of a frame whose bursts have not come end as not heard when the frame's record closes (R116). -/
def closeMap (c : Cfg) (g : Nat) (m : SealedMap) (d : Dev) : Dev := endUnheard c g m (fun _ => true) (clearingArrival g m d)

/-- The record of the upstream frames of a grove that the tick before received closes. -/
def closeFrame (c : Cfg) (g : Nat) (d : Dev) : Dev :=
  let due := fun (m : SealedMap) => decide (m.frame + m.tloop < d.sfc)
  (((d.grove g).maps.filter due).foldl (fun d m => closeMap c g m d) d).updGrove g (fun x =>
    { x with maps := x.maps.filter (fun m => !(due m)), lastTally := x.tally, tally := (0, 0) })

/-! ### Reassembly timer, light and OMCI -/

/-- REASM_TIMEOUT: the timer of a bough's partial packet expires (R101, R121). -/
def reasmTimeout (c : Cfg) (b : Nat) (d : Dev) : Dev :=
  match standOfBough c b with
  | some i =>
    if (d.bough b).part.isSome && d.expired .reasm b (c.get Fields.GRV_US_CTRL_reasm_ticks (groveOf i)) then
      (((d.updBough b (fun x => { x with part := none, orphan := true })).disarm .reasm b).count .stand .reasmTimeout i).count
        .grove .reasmTimeout (groveOf i)
    else d
  | none => d

/-- REASM_TIMEOUT. -/
def execReasmTimeout (b : Fin 65536) (s : State) : Outcome := onDev (fun c d => reasmTimeout c b d) s

/-- ROGUE: 8 consecutive ticks of light outside every grant and clearing (R115). -/
def rogue (g : Nat) (d : Dev) : Dev :=
  if 8 ≤ d.run .light g ∧ d.flag Fields.GRV_US_STATUS_rogue g = false then d.raise Fields.GRV_US_STATUS_rogue g else d

/-- ROGUE. -/
def execRogue (g : Fin 64) (s : State) : Outcome := onDev (fun _ d => rogue g d) s

/-- OMCI_RX: a message on an OMCC Port-ID with its integrity check, which is verified under the stand's key (R237, R238). -/
def omciRx (c : Cfg) (i : Nat) (bytes : List Byte) (mic : Nat) (d : Dev) : Dev :=
  let g := groveOf i
  if compat c g && !(d.st i == .absent) && !(d.st i == .silenced) then
    if mic ≠ omciCheck d i bytes then d.count .grove .omciMicFail g
    else if (d.grove g).omciRx.length < 16 then
      (d.updGrove g (fun x => { x with omciRx := x.omciRx ++ [{ stand := inGrove i, bytes := bytes.take 2048 }] })).count .grove .omciRx g
    else d.count .grove .omciRxOverflow g
  else d

/-- OMCI_RX. -/
def execOmciRx (i : Fin 16384) (bytes : List Byte) (mic : Nat) (s : State) : Outcome := onDev (fun c d => omciRx c i bytes mic d) s

end Sys2Proof.Machine
end

