-- ==== Sys2Proof/Machine/Shapers.lean ====
section
/-!
DEFINITION. Shapers, meters and the timing wheel (R369 to R376, R386, R387): the buckets with their refill at the edge, and the
next-eligible time of a stand.
-/

namespace Sys2Proof.Machine

/-! ### Buckets (R370, R372) -/

/-- The key of a stand's max bucket. -/
def bktStand (i : Nat) : Nat := i
/-- The key of a bough's max bucket. -/
def bktMax (b : Nat) : Nat := 2 ^ 17 + b
/-- The key of a bough's assured bucket. -/
def bktAsr (b : Nat) : Nat := 2 ^ 18 + b

/-- What a bucket holds where none is listed: a max bucket is full, at the reset words of its rate and burst, with the fraction that it has gathered since
the start; an assured bucket is empty. -/
def Dev.restBkt (d : Dev) (k : Nat) : Bkt := if k < 2 ^ 18 then { b := 0x400000, acc := d.restAcc } else { b := 0, acc := 0 }

/-- A bucket. -/
def Dev.bkt (d : Dev) (k : Nat) : Bkt := d.bkts.getD k (d.restBkt k)

/-- Charge a bucket. -/
def Dev.charge (d : Dev) (k n : Nat) : Dev := { d with bkts := d.bkts.upd k (d.restBkt k) (fun x => { x with b := x.b - n }) }

/-- Refill a bucket at a rate, up to a burst (R370). -/
def Bkt.refill (x : Bkt) (rate burst : Nat) : Bkt :=
  { b := min (x.b + (((x.acc + rate) / 256 : Nat) : Int)) burst, acc := (x.acc + rate) % 256 }

/-- The rate of a bucket in units of 1/256 byte per tick; a multicast bough has no assured one (R394). -/
def bktRate (c : Cfg) (k : Nat) : Nat :=
  if k < 2 ^ 17 then c.get Fields.SCH_STD_MAX_max k
  else if k < 2 ^ 18 then c.get Fields.SCH_BGH_MAX_max (k - 2 ^ 17)
  else if k - 2 ^ 18 < mcBase then c.get Fields.SCH_BGH_ASSURED_assured (k - 2 ^ 18)
  else 0

/-- The burst that bounds a bucket. -/
def bktBurst (c : Cfg) (k : Nat) : Nat :=
  if k < 2 ^ 17 then c.get Fields.SCH_STD_BURST_burst k else c.get Fields.SCH_BGH_BURST_burst (k % 2 ^ 17)

/-- The buckets that the configuration sets apart from their reset words, in ascending lists: they are kept from then on. -/
def Cfg.bktKeys (c : Cfg) : List (List Nat) :=
  [ (c.listed .SCH_STD_MAX).map (fun p => bktStand p.1), (c.listed .SCH_STD_BURST).map (fun p => bktStand p.1),
    (c.listed .SCH_BGH_MAX).map (fun p => bktMax p.1), (c.listed .SCH_BGH_BURST).map (fun p => bktMax p.1),
    (c.listed .SCH_BGH_ASSURED).map (fun p => bktAsr p.1) ]

/-- List the buckets that are not at rest. -/
def listBkts (c : Cfg) (d : Dev) : SMap Bkt := c.bktKeys.foldl (fun m ks => m.putAbsent d.restBkt ks) d.bkts

/-- The rate of a max bucket after reset. -/
def restRate : Nat := 0x3FFFFFFF

/-- Every bucket at a commit edge: the rates in force refill it (R370, R372, R391). -/
def refillBkts (c : Cfg) (d : Dev) : Dev :=
  { d with bkts := (listBkts c d).mapVals (fun k x => x.refill (bktRate c k) (bktBurst c k)), restAcc := (d.restAcc + restRate) % 256 }

/-! ### Meters (R386, R387) -/

/-- The meters that are enabled. -/
def enabledMeters (c : Cfg) : List Nat :=
  (c.listed .SCH_POL_CTRL).filterMap (fun p => if c.flag Fields.SCH_POL_CTRL_en p.1 then some p.1 else none)

/-- A meter that has just been enabled: both counts full. -/
def fullMeter (c : Cfg) (m : Nat) : Meter :=
  { tc := c.get Fields.SCH_POL_CBS_cbs m, tp := c.get Fields.SCH_POL_PBS_pbs m, accC := 0, accP := 0 }

/-- A meter's refill (R387): both variants add a rate to each count up to its burst. -/
def meterRefill (c : Cfg) (m : Nat) (x : Meter) : Meter :=
  let a := x.accC + c.get Fields.SCH_POL_CIR_cir m
  let b := x.accP + c.get Fields.SCH_POL_PIR_pir m
  { tc := min (x.tc + a / 256) (c.get Fields.SCH_POL_CBS_cbs m), tp := min (x.tp + b / 256) (c.get Fields.SCH_POL_PBS_pbs m)
    accC := a % 256, accP := b % 256 }

/-- The meters at a commit edge: those enabled refill, one newly enabled is full, one that is disabled keeps no tokens. -/
def refillMeters (c : Cfg) (d : Dev) : Dev :=
  { d with meters := (enabledMeters c).foldl (fun (acc : SMap Meter) m =>
      acc.put m (match d.meters.get? m with | some x => meterRefill c m x | none => fullMeter c m)) ([] : SMap Meter) }

/-- The colours of R387. -/
inductive Colour where
  | green | yellow | red
  deriving DecidableEq, Repr

/-- Mark a packet of `len` bytes with a meter's counts (R387): the colour and the counts afterwards. `yellow` says that a colour-aware meter sees a
yellow input. -/
def meterMark (rfc4115 yellow : Bool) (len : Nat) (x : Meter) : Colour × Meter :=
  if rfc4115 then
    if !yellow && decide (len ≤ x.tc) then (.green, { x with tc := x.tc - len })
    else if len ≤ x.tp then (.yellow, { x with tp := x.tp - len })
    else (.red, x)
  else if x.tp < len then (.red, x)
  else if yellow || decide (x.tc < len) then (.yellow, { x with tp := x.tp - len })
  else (.green, { x with tp := x.tp - len, tc := x.tc - len })

/-! ### The timing wheel (R373 to R376) -/

/-- Slots of a tick (R374). -/
def tickSlots : Nat := 15625

/-- The slot of the present core clock. -/
def slotNow (d : Dev) : Nat := d.sfc * tickSlots + d.clock / 12

/-- The epoch under which a packet first placed in frame `f` goes (R410). -/
def sendEpoch (k : StandKeys) (f : Nat) : Nat := if k.curFrom ≤ f then k.cur else 1 - k.cur

/-- A new packet of a stand may start in frame `f`: its downstream key is in place and not stopped (R87, R400). On a compatibility grove a stand without
a data key is served in clear where clear_ok allows it (R238). -/
def dsKeyOk (c : Cfg) (d : Dev) (i f : Nat) : Bool :=
  if compat c (groveOf i) then (d.keysOf i).dataKey.isSome || c.flag Fields.GRV_CPT_CTRL_clear_ok (groveOf i)
  else
    let k := d.keysOf i
    let e := k.ep (sendEpoch k f)
    k.ready && e.held && !e.dsStopped

/-- A stand is served (R373). -/
def served (c : Cfg) (d : Dev) (i : Nat) : Bool :=
  d.st i == .active && dsKeyOk c d i (d.sfc + 1) && !(groveParked d (groveOf i))

/-- Data-stream bytes of a queued packet (R74). -/
def spanOf (c : Cfg) (i : Nat) (p : QPkt) : Nat := packetSpan (!(compat c (groveOf i))) p.bytes.length

/-- Queued data-stream bytes of a queue outside its held segment. -/
def queuedOf (c : Cfg) (d : Dev) (i q : Nat) : Nat :=
  let x := d.queue q
  ((x.head ++ x.deep ++ (if x.held.isEmpty then x.tail else [])).map (spanOf c i)).sum

/-- Queued data-stream bytes of a bough. -/
def boughQueued (c : Cfg) (d : Dev) (i b : Nat) : Nat := ((List.range 8).map (fun k => queuedOf c d i (b * 8 + k))).sum

/-- The unicast boughs of a stand in ascending bough index. -/
def servedBoughs (c : Cfg) (i : Nat) : List Nat :=
  ((List.range 16).filterMap (fun x => boughAt c i x)).filter (fun b => decide (b < mcBase))

/-- Whether a stand has bytes queued. -/
def hasQueued (c : Cfg) (d : Dev) (i : Nat) : Bool := (servedBoughs c i).any (fun b => decide (0 < boughQueued c d i b))

/-- The downstream pipeline of a grove (R15). -/
def downPipe (g : Nat) : Nat := g / 4

/-- Put a stand at a NET: on the wheel, or in the overflow list where it lies beyond the horizon (R376). -/
def putNet (i net : Nat) (d : Dev) : Dev :=
  let far := decide (slotNow d + 131072 ≤ net)
  let d := if far then d.count .device .wheelOverflow (downPipe (groveOf i)) else d
  { d with wheels := d.wheels.put i { net := some net, inList := far } }

/-- The smallest number of refills, from `lo`, that makes a bucket positive (R375): 0 where it is, none where it never will be. -/
def refillsNeeded (b : Int) (rate : Nat) : Option Nat :=
  if 0 < b then some 0
  else if rate = 0 then none
  else some ((-b).toNat * 256 / rate + 1)

/-- A stand's max bucket is positive, or a refill will make it so (R375). -/
def bktComes (c : Cfg) (d : Dev) (i : Nat) : Bool := (refillsNeeded (d.bkt (bktStand i)).b (bktRate c (bktStand i))).isSome

/-- The stand leaves the wheel until its rate changes (R375). -/
def offWheel (i : Nat) (d : Dev) : Dev := { d with wheels := d.wheels.put i { net := none, inList := false } }

/-- A stand comes to a NET; one whose bucket never becomes positive stays off the wheel (R375). -/
def joinWheel (c : Cfg) (i net : Nat) (d : Dev) : Dev := if bktComes c d i then putNet i net d else offWheel i d

/-- A stand that is served gains queued bytes while off the wheel (R375, R393): at the admission clock, or, where it had bytes queued before and so became served with
them at the commit edge, at that edge. -/
def gainBytes (c : Cfg) (i : Nat) (had : Bool) (d : Dev) : Dev :=
  if served c d i && (d.wheels.get? i).isNone then joinWheel c i (if had then d.sfc * tickSlots else slotNow d) d else d

/-- NET of a stand (R375): as it was set; a stand that has become served with bytes queued since the commit edge holds the edge's slot. -/
def netOf (c : Cfg) (d : Dev) (i : Nat) : Option Nat :=
  if served c d i && hasQueued c d i then
    match d.wheels.get? i with
    | some w => w.net
    | none => if bktComes c d i then some (d.sfc * tickSlots) else none
  else none

/-- Make the wheel of a grove say what R373 and R375 say: stands that are not served or have nothing queued leave it, those that joined since the commit
edge enter it. -/
def syncWheel (c : Cfg) (g : Nat) (d : Dev) : Dev :=
  (d.standsOf g).foldl (fun d i =>
    if !(served c d i) || !(hasQueued c d i) then { d with wheels := d.wheels.erase i }
    else if (d.wheels.get? i).isSome then d
    else joinWheel c i (d.sfc * tickSlots) d) d

/-- A stand's next frame after it was served in, or recomputed from, frame `f` (R375): with `least` the smallest number of frames to wait. It leaves the
wheel where no refill will come. -/
def nextFrame (c : Cfg) (i f least : Nat) (d : Dev) : Dev :=
  let off := ((d.wheels.getD i { net := none, inList := false }).net.getD 0) % tickSlots
  match refillsNeeded (d.bkt (bktStand i)).b (bktRate c (bktStand i)) with
  | some k => putNet i ((f + max least k) * tickSlots + off) d
  | none => offWheel i d

/-- The wheels at a commit edge: entries of the overflow list that have come within the horizon move into the wheel (R376), and stands whose rate or burst
has changed are placed anew (R375). -/
def wheelEdge (c : Cfg) (changed : List Nat) (d : Dev) : Dev :=
  let d := { d with wheels := d.wheels.mapVals (fun _ w =>
    match w.net with
    | some n => { w with inList := w.inList && decide (d.sfc * tickSlots + 131072 ≤ n) }
    | none => w) }
  changed.foldl (fun d i => if (d.wheels.get? i).isSome then nextFrame c i (d.sfc + 1) 0 d else d) d

/-- The stands whose SCH_STD_MAX or SCH_STD_BURST differs between two configurations. -/
def ratesChanged (old new : Cfg) : List Nat :=
  ((old.listed .SCH_STD_MAX ++ new.listed .SCH_STD_MAX ++ old.listed .SCH_STD_BURST ++ new.listed .SCH_STD_BURST).map Prod.fst).filter (fun i =>
    !(old.word .SCH_STD_MAX i == new.word .SCH_STD_MAX i && old.word .SCH_STD_BURST i == new.word .SCH_STD_BURST i))

end Sys2Proof.Machine
end

