-- ==== Sys2Proof/Machine/Framer.lean ====
section
/-!
DEFINITION. The content of a downstream frame's payload region (R70 to R78, R84 to R87, R377 to R383): packets under their keys, the continuation,
multicast runs, allowances and twigs.
-/

namespace Sys2Proof.Machine

/-! ### Packets under their keys (R398 to R401) -/

/-- The last counter value that is used (R400). -/
def lastCounter : Nat := 2 ^ 48 - 2

/-- The ceiling of a slot when a counter value is used: raised in time (R401). -/
def raiseCeil (slot ctr : Nat) (d : Dev) : Dev :=
  let top := d.ceil.getD slot 0
  if top ≤ ctr + 1 + 2 ^ 31 then { d with ceil := d.ceil.put slot (top + ceilStep) } else d

/-- Encrypt a packet under a key: counter, ciphertext and tag (R74, R398). -/
def cipherText (key iv bough ctr : Nat) (bs : List Byte) : List Byte :=
  let r := Config.gcmSeal key iv (toBytesBE 2 bough) bs
  toBytesBE 6 ctr ++ padTo bs.length r.1 ++ toBytesBE 16 r.2

/-- Take the next downstream counter of a stand's epoch (R400, R401). -/
def takeCounter (c : Cfg) (i e : Nat) (d : Dev) : Nat × Dev :=
  let n := ((d.keysOf i).ep e).dsCtr
  let d := d.updKeys i (fun k => k.updEp e (fun x => { x with dsCtr := n + 1, dsStopped := x.dsStopped || n == lastCounter }))
  let d := raiseCeil (slotOf i e) n d
  (n, if n + 1 = 2 ^ 47 then ctrWarn c i d else d)

/-- A unicast packet first placed in frame `f`: its key index and the payload of its chain (R73, R74, R399). On a compatibility grove it is
encrypted as the standard says under the stand's data key (R227, R238). -/
def sealUnicast (c : Cfg) (f i b : Nat) (bs : List Byte) (d : Dev) : Nat × List Byte × Dev :=
  if compat c (groveOf i) then ((d.keysOf i).dataKey.getD 0, xgemText d i f b bs, d)
  else
    let e := sendEpoch (d.keysOf i) f
    let r := takeCounter c i e d
    (e + 1, cipherText (workKey d i e "LINE-DS") (lineIv i false e r.1) b r.1 bs, r.2)

/-- A group's packets may be placed (R399, R400): in clear, or under a group key that is in place and not stopped. -/
def groupOk (c : Cfg) (d : Dev) (grp : Nat) : Bool :=
  !(c.flag Fields.KEY_GRP_CTRL_enc grp) || ((d.sharedOf grp).valid && !((d.sharedOf grp).stopped))

/-- A warning at 2^47 of a group's counter (R400): the flag with its interrupt, and a new key where auto_rekey asks for one. -/
def groupWarn (c : Cfg) (grp : Nat) (d : Dev) : Dev :=
  let d := d.raise Fields.KEY_GRP_CTRL_ctr_warn grp
  if c.flag Fields.KEY_CTRL_auto_rekey 0 then drawShared c grp d else d

/-- A multicast packet first placed in frame `f` of a grove: key index, payload (R399), encrypted as the standard says on a compatibility grove (R227). -/
def sealGroup (c : Cfg) (g f grp : Nat) (bs : List Byte) (d : Dev) : Nat × List Byte × Dev :=
  if c.flag Fields.KEY_GRP_CTRL_enc grp then
    let s := d.sharedOf grp
    if compat c g then (3, padTo bs.length (Config.xgemCipher (d.slots.getD (sharedSlot grp s.epoch) 0) f (mcBase + grp) bs), d)
    else
    let n := s.ctr
    let slot := sharedSlot grp s.epoch
    let d' := raiseCeil slot n (d.updShared grp (fun s => { s with ctr := n + 1, stopped := s.stopped || n == lastCounter }))
    let d' := if n + 1 = 2 ^ 47 then groupWarn c grp d' else d'
    (3, cipherText (d.slots.getD slot 0) (lineIv (0x1F * 512 + grp) false s.epoch n) (mcBase + grp) n bs, d')
  else (0, bs, d)

/-! ### Filling the region (R70, R75) -/

/-- A payload region being filled. -/
structure Fill where
  frags  : List Fragment
  used   : Nat
  region : Nat
  /-- no further packet starts -/
  ended  : Bool
  cont   : Option Continuation
  deriving DecidableEq, Repr

/-- A packet may start: at least 72 bytes remain (R75). -/
def Fill.room (w : Fill) : Bool := !w.ended && decide (w.used + 72 ≤ w.region)

/-- Put a packet's payload: whole, or split at the end of the region (R75, R76). The number is its data-stream bytes in this frame. -/
def Fill.place (w : Fill) (stand bough ki : Nat) (group : Bool) (payload : List Byte) : Fill × Nat :=
  let n := fragSpan payload.length
  let h : EncapHdr := { bough := bough, len := payload.length, last := true, keyIndex := ki, options := 0 }
  if w.used + n ≤ w.region then ({ w with frags := w.frags ++ [{ hdr := h, payload := payload }], used := w.used + n }, n)
  else
    let m := w.region - w.used - 8
    ({ w with frags := w.frags ++ [{ hdr := { h with len := m, last := false }, payload := payload.take m }], used := w.region, ended := true
              cont := some { stand := stand, bough := bough, keyIndex := ki, rest := payload.drop m, group := group } }, m + 8)

/-- The region being filled and the device, as they change together. -/
abbrev Filling := Fill × Dev

/-- Count what a bough has sent (R395). -/
def countSent (b bytes : Nat) (whole : Bool) (d : Dev) : Dev :=
  let d := (d.count .bough .txBytes b bytes).set Fields.SCH_BGH_LAST_bytes b (d.get Fields.SCH_BGH_LAST_bytes b + bytes)
  if whole then d.count .bough .txPkts b else d

/-- Count a packet that has been split (R90). -/
def countSplit (g : Nat) (split : Bool) (d : Dev) : Dev := if split then d.count .grove .fragmentsSplit g else d

/-! ### The continuation (R76, R84, R85, R377) -/

/-- The continuation of a grove goes first, or is discarded where its stand became SILENCED or ABSENT (R84). The number is its bytes, charged to the max
buckets of its bough and stand (R377). -/
def placeCont (g : Nat) (x : Filling) : Filling × Nat :=
  let d := x.2
  match (d.grove g).cont with
  | none => (x, 0)
  | some k =>
    let d := d.updGrove g (fun y => { y with cont := none })
    if k.group = false ∧ (d.st k.stand = .silenced ∨ d.st k.stand = .absent) then ((x.1, d.count .grove .contDiscarded g), 0)
    else
      let r := x.1.place k.stand k.bough k.keyIndex k.group k.rest
      let d := (countSent k.bough r.2 true d).charge (bktMax k.bough) r.2
      let d := if k.group then d.count .grove .mcBytes g r.2 else d.charge (bktStand k.stand) r.2
      ((r.1, d), r.2)

/-- A packet of a shadowed queue is handed to frame `f`, and to the next one as well where it is split: the replay mark of R435 looks at its admission. -/
def noteHanded (c : Cfg) (g f q tick : Nat) (split : Bool) (d : Dev) : Dev :=
  if c.flag Fields.BUF_Q_CFG_shadow_en q && d.isPaired then
    { d with mate := { d.mate with handed := d.mate.handed.upd g [] (fun l => l.filter (fun e => decide (d.sfc ≤ e.1)) ++ [(f + split.toNat, tick)]) } }
  else d

/-! ### Multicast runs (R77, R78, R378, R379) -/

/-- Send replicas of a bough's list while its allowance and the cap allow: what is used of the cap, and whether the cap stopped it. -/
def sendReplicas (c : Cfg) (g f grp cap : Nat) : List (Nat × Nat) → Int → Nat → Filling → Nat × Bool × Filling
  | [], _, used, x => (used, false, x)
  | (q, uid) :: rest, left, used, (w, d) =>
    if left ≤ 0 ∨ w.room = false ∨ groupOk c d grp = false then (used, false, (w, d))
    else
      let drop := fun (d : Dev) => dropReplica q uid { d with reps := d.reps.setD (repKey g grp) rest [] }
      match (d.queue q).head.find? (fun p => p.uid == uid) with
      | none => sendReplicas c g f grp cap rest left used (w, drop d)
      | some p =>
        if 16352 < p.bytes.length then sendReplicas c g f grp cap rest left used (w, (drop d).count .grove .sduOversize g)
        else
          let s := sealGroup c g f grp p.bytes d
          let r := w.place 0 (mcBase + grp) s.1 true s.2.1
          if cap < used + r.2 then (used, true, (w, d))
          else
            let d := noteHanded c g f q p.tick r.1.ended (countSplit g r.1.ended (countSent (mcBase + grp) r.2 (!r.1.ended) (drop s.2.2)))
            sendReplicas c g f grp cap rest (left - r.2) (used + r.2)
              (r.1, (d.charge (bktMax (mcBase + grp)) r.2).count .grove .mcBytes g r.2)

/-- The groups with replicas on a grove, in ascending number. -/
def replicaGroups (d : Dev) (g : Nat) : List Nat :=
  d.reps.filterMap (fun p => if p.1 / 512 = g ∧ p.2.isEmpty = false then some (p.1 % 512) else none)

/-- The groups whose runs a frame carries, in order: the one whose continuation began the frame goes on behind it, so that its bough has one place in the frame
(R76, R78; DEDUCED, log 90), then the others in ascending number (R378). -/
def runOrder (first : Option Nat) (gs : List Nat) : List Nat :=
  gs.filter (fun k => first == some (mcBase + k)) ++ gs.filter (fun k => !(first == some (mcBase + k)))

/-- The multicast runs of a grove (R77, R78, R378): every bough takes at most its max bucket, and together they take no more than mc_cap. `first` is the bough
whose continuation began the frame. -/
def multicastRuns (c : Cfg) (g f : Nat) (first : Option Nat) (x : Filling) : Filling :=
  let cap := c.get Fields.SCH_GRV_MC_mc_cap g
  let r := (runOrder first (replicaGroups x.2 g)).foldl (fun (acc : Nat × Bool × Filling) grp =>
    let d := acc.2.2.2
    if groupOnGrove c d grp g then
      let q := sendReplicas c g f grp cap (d.reps.getD (repKey g grp) []) (d.bkt (bktMax (mcBase + grp))).b acc.1 acc.2.2
      (q.1, acc.2.1 || q.2.1, q.2.2)
    else acc) (0, false, x)
  if r.2.1 then (r.2.2.1, r.2.2.2.count .grove .mcCapped g) else r.2.2

/-! ### Allowances (R380, R381) -/

/-- The largest level whose sum stays within a budget. -/
def levelOf (sum : Nat → Nat) (budget : Nat) : Nat := bisect sum budget 22 0

/-- A bough in a stand's demand: its id, weight, assured part and excess. -/
structure BghDemand where
  b : Nat
  w : Nat
  g : Nat
  e : Nat
  deriving DecidableEq, Repr

/-- A stand's demand (R380). -/
structure StdDemand where
  i   : Nat
  net : Nat
  w   : Nat
  bs  : List BghDemand
  g   : Nat
  e   : Nat
  deriving DecidableEq, Repr

/-- The demand of a bough (R380). -/
def boughDemand (c : Cfg) (d : Dev) (i b : Nat) : BghDemand :=
  let n := min (boughQueued c d i b) (d.bkt (bktMax b)).b.toNat
  let g := min n (d.bkt (bktAsr b)).b.toNat
  { b := b, w := c.get Fields.SCH_BGH_WEIGHT_weight b, g := g, e := n - g }

/-- The demand of a stand (R380), less the bytes of a continuation (R377). -/
def standDemand (c : Cfg) (d : Dev) (i net cont : Nat) : StdDemand :=
  let bs := (servedBoughs c i).map (boughDemand c d i)
  let bkt := (d.bkt (bktStand i)).b.toNat
  let g := min ((bs.map BghDemand.g).sum) bkt
  let e := min ((bs.map BghDemand.e).sum) (bkt - g)
  { i := i, net := net, w := c.get Fields.SCH_STD_WEIGHT_weight i, bs := bs, g := g - (cont - e), e := e - cont }

/-- Hand out what is left to those with unmet excess, in order: (got, wanted) pairs. -/
def topUp : Nat → List (Nat × Nat) → List Nat
  | _, [] => []
  | left, (got, want) :: t => (got + min left (want - got)) :: topUp (left - min left (want - got)) t

/-- Shares of an excess by weight (R380, R381): the level, then what is left in the order given. The pairs are (demand, weight). -/
def weightedShares (budget : Nat) (xs : List (Nat × Nat)) : List Nat :=
  let lam := levelOf (fun l => (xs.map (fun x => min x.1 (x.2 * l))).sum) budget
  let got := xs.map (fun x => min x.1 (x.2 * lam))
  topUp (budget - got.sum) (got.zip (xs.map Prod.fst))

/-- Equal shares of assured demands (R380, step 1). -/
def assuredShares (budget : Nat) (xs : List Nat) : List Nat :=
  if xs.sum ≤ budget then xs else let lam := levelOf (fun l => (xs.map (min l)).sum) budget; xs.map (min lam)

/-- Stands in ascending NET, ties by stand id (R374). -/
def insertByNet (x : StdDemand) : List StdDemand → List StdDemand
  | [] => [x]
  | y :: t => if x.net < y.net ∨ (x.net = y.net ∧ x.i < y.i) then x :: y :: t else y :: insertByNet x t

/-- The stands of a grove that are eligible for frame `f` and whose max bucket is positive, in ascending NET (R374, R380). -/
def eligible (c : Cfg) (d : Dev) (g f : Nat) (cont : Option (Nat × Nat)) : List StdDemand :=
  ((d.standsOf g).filterMap (fun i =>
    match (d.wheels.get? i).bind Wheel.net with
    | some n =>
      if n < (f + 1) * tickSlots ∧ 0 < (d.bkt (bktStand i)).b then
        some (standDemand c d i n (match cont with | some (j, k) => if j = i then k else 0 | none => 0))
      else none
    | none => none)).foldl (fun l x => insertByNet x l) []

/-- The allowances of the eligible stands (R380): assured and excess. -/
def allowances (budget : Nat) (xs : List StdDemand) : List (StdDemand × Nat × Nat) :=
  let a := assuredShares budget (xs.map StdDemand.g)
  let e := weightedShares (budget - a.sum) (xs.map (fun x => (x.e, x.w)))
  xs.zip (a.zip e)

/-- Boughs in descending weight, ties in ascending bough index (R381). -/
def insertHeavier (x : BghDemand × Nat) : List (BghDemand × Nat) → List (BghDemand × Nat)
  | [] => [x]
  | y :: t => if y.1.w < x.1.w then x :: y :: t else y :: insertHeavier x t

/-- A stand's allowance divided among its boughs (R381): each bough with its allowance, in ascending bough index. -/
def boughShares (x : StdDemand) (a e : Nat) : List (BghDemand × Nat) :=
  let as := assuredShares a (x.bs.map BghDemand.g)
  let lam := levelOf (fun l => (x.bs.map (fun b => min b.e (b.w * l))).sum) e
  let order := (x.bs.map (fun b => (b, min b.e (b.w * lam)))).foldl (fun l b => insertHeavier b l) []
  let full := topUp (e - (order.map Prod.snd).sum) (order.map (fun p => (p.2, p.1.e)))
  let ex := (order.map Prod.fst).zip full
  (x.bs.zip as).map (fun p => (p.1, p.2 + ((ex.find? (fun q => q.1.b == p.1.b)).map Prod.snd).getD 0))

/-! ### Twigs (R77, R382) -/

/-- The head of a queue is made ready: where it is empty and the queue has a deep segment, a packet returns into it (R344). -/
def readyHead (c : Cfg) (q : Nat) (d : Dev) : Dev :=
  if (d.queue q).head.isEmpty && !((d.queue q).deep.isEmpty) then returnMove c q d else d

/-- Take packets of one queue while the allowance is positive (R382): what is left of it may be negative. -/
def sendQueue (c : Cfg) (g f i b q : Nat) : Nat → Int → Filling → Int × Filling
  | 0, left, x => (left, x)
  | n + 1, left, (w, d) =>
    if left ≤ 0 ∨ dsKeyOk c d i f = false then (left, (w, d))
    else if w.room = false then (left, ({ w with ended := true }, d))
    else
      let d := readyHead c q d
      let x := d.queue q
      match x.head with
      | [] => (left, (w, d))
      | p :: rest =>
        let d := (d.setQueue q { x with head := rest }.join).freePkt 0 srcWheels p
        if 16352 < p.bytes.length then sendQueue c g f i b q n left (w, d.count .grove .sduOversize g)
        else
          let s := sealUnicast c f i b p.bytes d
          let r := w.place i b s.1 false s.2.1
          let d := noteHanded c g f q p.tick r.1.ended (countSplit g r.1.ended (countSent b r.2 (!r.1.ended) s.2.2))
          sendQueue c g f i b q n (left - r.2) (r.1, d)

/-- The queues of a bough in ascending class, with strict priority (R382); the bough and its stand are charged with what it sent. -/
def sendBough (c : Cfg) (g f i : Nat) (s : BghDemand × Nat) (x : Filling) : Filling :=
  let r := (List.range 8).foldl (fun (acc : Int × Filling) k =>
    let q := s.1.b * 8 + k
    sendQueue c g f i s.1.b q ((acc.2.2.queue q).pkts + 1) acc.1 acc.2) ((s.2 : Int), x)
  let sent := r.2.1.used - x.1.used
  let d := ((r.2.2.charge (bktMax s.1.b) sent).charge (bktStand i) sent).charge (bktAsr s.1.b) (min sent s.1.g)
  (r.2.1, if sent = 0 then r.2.2 else d)

/-- A stand passed over without an allowance is eligible again in the next frame (R375). -/
def passOver (f i : Nat) (d : Dev) : Dev :=
  match (d.wheels.get? i).bind Wheel.net with
  | some n => putNet i ((f + 1) * tickSlots + n % tickSlots) d
  | none => d

/-- The twig of one stand and its next frame (R375, R382): twigs placed and stands not reached are counted. -/
def sendTwig (c : Cfg) (g f : Nat) (acc : Nat × Nat × Filling) (s : StdDemand × Nat × Nat) : Nat × Nat × Filling :=
  let i := s.1.i
  let x := acc.2.2
  if s.2.1 + s.2.2 = 0 then (acc.1, acc.2.1, (x.1, passOver f i x.2))
  else if x.1.room = false then (acc.1, acc.2.1 + 1, ({ x.1 with ended := true }, x.2))
  else
    let y := (boughShares s.1 s.2.1 s.2.2).foldl (fun x b => sendBough c g f i b x) x
    if y.1.used = x.1.used then (acc.1, acc.2.1, (y.1, passOver f i y.2))
    else if hasQueued c y.2 i then (acc.1 + 1, acc.2.1, (y.1, nextFrame c i f 1 y.2))
    else (acc.1 + 1, acc.2.1, (y.1, { y.2 with wheels := y.2.wheels.erase i }))

/-- The stands that are eligible but whose max bucket is not positive receive nothing (R375, R380). -/
def passEmpty (c : Cfg) (f g : Nat) (d : Dev) : Dev :=
  (d.standsOf g).foldl (fun d i =>
    match (d.wheels.get? i).bind Wheel.net with
    | some n => if n < (f + 1) * tickSlots ∧ (d.bkt (bktStand i)).b ≤ 0 then (if bktComes c d i then passOver f i d else offWheel i d) else d
    | none => d) d

/-- The boughs of a grove's stands start the frame at zero bytes. -/
def clearLast (c : Cfg) (g : Nat) (d : Dev) : Dev :=
  (boughsOfGrove c g).foldl (fun d b => d.set Fields.SCH_BGH_LAST_bytes b 0) d

/-- The multicast boughs, which every grove's frame may serve, start the frames of a tick at zero bytes. -/
def clearGroupLast (d : Dev) : Dev :=
  (List.range 512).foldl (fun d k => if d.get Fields.SCH_BGH_LAST_bytes (mcBase + k) = 0 then d else d.set Fields.SCH_BGH_LAST_bytes (mcBase + k) 0) d

/-- Fill the payload region of frame `f` of a grove (R77): the continuation, the multicast runs, the twigs in ascending NET. -/
def fillRegion (c : Cfg) (g f region : Nat) (d : Dev) : Filling :=
  let d := clearLast c g (syncWheel c g d)
  let who := ((d.grove g).cont).bind (fun k => if k.group then none else some k.stand)
  let x := placeCont g ({ frags := [], used := 0, region := region, ended := false, cont := none }, d)
  let mc := multicastRuns c g f (((d.grove g).cont).map Continuation.bough) x.1
  let xs := allowances (region - mc.1.used) (eligible c mc.2 g f (who.map (fun i => (i, x.2))))
  let d := passEmpty c f g mc.2
  let r := xs.foldl (sendTwig c g f) (0, 0, (mc.1, d))
  let d := (r.2.2.2.set Fields.SCH_GRV_LAST_twigs g r.1).set Fields.SCH_GRV_LAST_deferred g r.2.1
  (r.2.2.1, (d.count .grove .dsTwigs g r.1).count .grove .standsDeferred g r.2.1)

end Sys2Proof.Machine
end

