-- ==== Sys2Proof/Machine/Freeze.lean ====
section
/-!
DEFINITION. Map freeze (R49): the line messages of the next frame, its upstream map, the capture of maps, and the assembly of the frame; and the frame
that a grove seals at the edge of its entry to service (R630).
-/

namespace Sys2Proof.Machine

/-! ### Placing line messages (R68, R83, R146, R174 to R180, R412) -/

/-- A message is keyed (R177). -/
def msgKeyed (d : Dev) (g : Nat) (m : LineMsg) : Bool :=
  alwaysKeyed m.ty || (afterKeys m.ty && (d.keysOf (standId g m.stand)).ready)

/-- The message key for a message in frame `f` (R175, R410, R412), none where the keys of its stand have gone since it was queued. -/
def msgKey (d : Dev) (g f : Nat) (m : LineMsg) : Option Nat :=
  if m.stand < 256 then
    let i := standId g m.stand
    let e := sendEpoch (d.keysOf i) f
    (d.slots.get? (slotOf i e)).map (fun _ => workKey d i e "MSG")
  else d.slots.get? (sharedSlot (bcastKey g) (d.sharedOf (bcastKey g)).epoch)

/-- The period that a REST_GRANT carries while it waits for its frame. -/
def restOf (m : LineMsg) : Nat := ofBytesBE (m.body.take 6)

/-- The entry and wake edges of a rest grant placed in frame `f` (R180). -/
def restBody (m : LineMsg) (f : Nat) : List Byte := toBytesBE 6 (f + 2) ++ toBytesBE 6 (f + 2 + restOf m)

/-- The 64 bytes of a message at position `j` of frame `f` (R174 to R176). A queued message whose stand's keys have gone is placed all the same (R68): the spec states
no tag for it (log 97). -/
def msgBytes (d : Dev) (g f j : Nat) (m : LineMsg) : List Byte :=
  let keyed := msgKeyed d g m
  let body := if m.ty = 0x0C then restBody m f else if m.ty = 0x09 then wrappedBody d g m else m.body
  let head := toBytesBE 1 m.ty ++ toBytesBE 2 (m.stand % 512 * 128 + keyed.toNat * 32) ++ toBytesBE 6 f ++ toBytesBE 1 j ++ padTo 46 body
  head ++ (if keyed then toBytesBE 8 (match msgKey d g f m with | some k => Config.cmac k head / 2 ^ 64 | none => Config.lostTag g f j) else zeroBytes 8)

/-- A delay message is carried in frame `f` (R140, R146). -/
def delayPlaced (i f : Nat) (d : Dev) : Dev :=
  d.updRng i (fun r => { r with delayWait := r.delayWait - 1, delayFrame := some f, driftFrom := f + tLoop d (groveOf i) + 2 })

/-- A shared key's delivery is placed: 16 ticks after the last of them the new key is used (R412). -/
def deliverPlaced (i f k : Nat) (d : Dev) : Dev :=
  let s := d.sharedOf k
  if s.pending && s.deliver.contains i then
    let rest := s.deliver.filter (fun j => !(j == i))
    d.updShared k (fun s => { s with deliver := rest, switchAt := if rest.isEmpty then some (f + 16) else s.switchAt })
  else d

/-- A host message is placed: its nonce and ticket go into the FIFO (R179). -/
def hostPlaced (g f j : Nat) (d : Dev) : Dev :=
  let x := d.grove g
  let full := decide (64 ≤ x.done.length)
  let d := d.updGrove g (fun x =>
    { x with done := (if full then x.done.drop 1 else x.done) ++ [(f, j, x.ticket)], ticket := (x.ticket + 1) % 65536 })
  if full then d.count .grove .doneOverflow g else d

/-- What the placement of a message brings about. -/
def msgPlaced (c : Cfg) (g f j : Nat) (m : LineMsg) (d : Dev) : Dev :=
  let d := (d.count .grove .msgSent g).count .grove .msgTx g
  let d := if m.host then hostPlaced g f j d else d
  if m.stand < 256 then
    let i := standId g m.stand
    let d := d.count .stand .msgTx i
    if m.ty = 0x04 ∨ m.ty = 0x05 then delayPlaced i f d
    else if m.ty = 0x06 then (if d.st i = .resting then d else d.armNext .key i)
    else if m.ty = 0x09 then
      deliverPlaced i f (deliverNames g m) d
    else if m.ty = 0x0C then
      d.updLife i (fun l => { l with rest := l.rest ++ [{ entry := f + 2, wake := f + 2 + restOf m }] })
    else if m.ty = 0x0A then (if m.body.getD 2 0#8 = 0#8 then dropOrphanReplicas c g d else d)
    else d
  else d

/-- Place messages from slot `j` on. -/
def placeMsgs (c : Cfg) (g f : Nat) : Nat → List LineMsg → List PlacedMsg × Dev → List PlacedMsg × Dev
  | _, [], x => x
  | j, m :: ms, (ps, d) =>
    placeMsgs c g f (j + 1) ms (ps ++ [{ slot := j, bytes := msgBytes d g f j m }], msgPlaced c g f j m d)

/-- A TIME_MARK. -/
def isMark (m : LineMsg) : Bool := m.ty == 0x0E

/-- Move messages into frame `f`: the announcement first, then a TIME_MARK (R469), then from the head of the queue, up to msg_max (R68, R128). The queue is held against
msg_max for msg_full_ticks here, once a tick, before the placement (R90; DESIGN CHOICE, log 90). -/
def freezeMsgs (c : Cfg) (g f : Nat) (d : Dev) : List PlacedMsg × Dev :=
  let x := d.grove g
  let top := c.get Fields.GRV_DS_CTRL_msg_max g
  let queue := x.waiting.filter isMark ++ x.msgQ
  let d := if top < queue.length then d.count .grove .msgFullTicks g else d
  let all := x.announce.toList ++ queue
  let now := all.take top
  let d := d.updGrove g (fun y => { y with announce := none, msgQ := all.drop top, waiting := y.waiting.filter (fun m => !(isMark m)) })
  let r := placeMsgs c g f 0 now ([], d)
  (r.1, pumpMsgs g r.2)

/-! ### PLOAM and OMCI of a compatibility grove (R231, R237) -/

/-- Announce a burst profile of a compatibility grove (R231, R243). -/
def profileMsg (c : Cfg) (g k : Nat) (d : Dev) : Dev :=
  sendPloam g { kind := .burstProfile, onu := 0x1FF, args := [k, c.get Fields.GRV_CPT_PROFILE_profile (4 * g + k)] } d

/-- A PLOAM message as frame `f` carries it: the Key_Control of a data key that has been loaded names the superframe of its switch, 16 ticks behind the
frame's (R238); the integrity check is computed (R231). -/
def ploamOut (d : Dev) (g f : Nat) (p : Ploam) : Ploam :=
  let q := if p.kind = .keyControl ∧ p.args.length = 2 ∧ p.args.head? = some 1 then { p with args := p.args ++ [f + 16] } else p
  { q with mic := Ploam.check d g q }

/-- What the placement of a PLOAM message brings about. -/
def ploamPlaced (g f : Nat) (p : Ploam) (d : Dev) : Dev :=
  let d := d.count .grove .ploamTx g
  let i := standId g p.onu
  match p.kind, p.args with
  | .rangingTime, _ => delayPlaced i f d
  | .keyControl, [1, index, e] => d.updKeys i (fun k => { k with nextKey := some (index, e) })
  | .keyControl, [2, k, _, _] => deliverPlaced i f k d
  | _, _ => d

/-- The OMCI message of a compatibility grove goes into frame `f` with its integrity check, on the Port-ID that equals the ONU-ID (R234, R237): at the freeze of a tick
behind that of its command, since the edge between may discard it (R241; DEDUCED, log 93). -/
def freezeOmci (g : Nat) (d : Dev) : Option (Nat × List Byte) × Dev :=
  match (d.grove g).omciTx with
  | some (i, bs, t) =>
    if t < d.sfc then (some (inGrove i, bs ++ toBytesBE 4 (omciCheck d i bs)), (d.updGrove g (fun y => { y with omciTx := none })).count .grove .omciTx g)
    else (none, d)
  | none => (none, d)

/-- Move the PLOAM messages and the OMCI message of a compatibility grove into frame `f`. -/
def freezePloams (g f : Nat) (d : Dev) : List Ploam × Option (Nat × List Byte) × Dev :=
  let ps := (d.grove g).ploamQ.map (ploamOut d g f)
  let d := d.updGrove g (fun y => { y with ploamQ := [] })
  let d := ps.foldl (fun d p => ploamPlaced g f p d) d
  (ps, freezeOmci g d)

/-! ### The map of the next frame (R49, R50, R126, R127, R216) -/

/-- The maps of a clearing: the slice twigs, and the discovery entry in the first frame (R126, R127), or the serial-number grant of a quiet window (R233). -/
def clearingMap (c : Cfg) (d : Dev) (g f : Nat) (cl : Clearing) : List MapEntry :=
  sortEntries (activeSlices c d g ++ (if cl.frame = f then [if cl.compat then serialEntry c g cl.s0 else discEntry cl.s0] else []))

/-- The map that frame `f` carries, and how it came about. -/
def mapFor (c : Cfg) (d : Dev) (g f : Nat) : MapKind × List MapEntry :=
  let x := d.grove g
  match clearingAt d g f with
  | some cl => (.clearing, clearingMap c d g f cl)
  | none =>
    match x.computed.filter (fun b => b.frame == f) with
    | some b => (.engine, b.entries)
    | none =>
      match x.lastMap with
      | some b => (.fallback, fallbackMap c d g f b)
      | none => (.fallback, activeSlices c d g)

/-- An entry with a message slot is the stand's latest, and meets what a burst with msg_flag asked for (R168, R213). -/
def sealSlot (idx i : Nat) (e : MapEntry) (d : Dev) : Dev := if e.msg then d.updMail i (fun m => { m with slotDue := false, lastSlot := some idx }) else d

/-- A sealed entry's effects on its stand (R140, R142, R148, R168, R213, R407). -/
def sealEntry (c : Cfg) (g idx : Nat) (e : MapEntry) (d : Dev) : Dev :=
  let d := d.count .grove .burstsGranted g
  if e.stand < 256 then
    let i := standId g e.stand
    let d := d.count .stand .burstsGranted i
    match e.kind with
    | .slice _ => d
    | .rangingGrant =>
      let ranged := (d.rngOf i).ranged
      let d := d.updRng i (fun r => { r with grantDue := false })
      let d := (if ranged then d.updKeys i (fun k => { k with grantAt := some (idx + pollTicks c g) }) else d).count2 .rngAttempts i
      sealSlot idx i e d
    | _ =>
      let d := if e.kind = .rangingTwig then d.updRng i (fun r => { r with twigDue := false }) else d
      sealSlot idx i e d
  else d

/-- Record the grants of an entry for its boughs (R198). -/
def recordEntry (f : Nat) (e : MapEntry) (d : Dev) : Dev :=
  match e.kind with
  | .slice _ => d
  | _ => e.runs.foldl (fun d r =>
      if r.bough < 65536 then d.updBough r.bough (fun x => { x with grants := x.grants ++ [{ frame := f, start := e.start, leaves := r.granted }] })
      else d) d

/-- Status and records of a map that goes out: what kind it is, and the grants of one that the engine built or that stands in for it (R216, R225). -/
def sealBuilt (g f : Nat) (kind : MapKind) (es : List MapEntry) (d : Dev) : Dev :=
  let d := es.foldl (fun d e => recordEntry f e d) d
  if kind = .engine then
    (d.set Fields.GNT_GRV_STATUS_fallback g 0).updGrove g (fun x => { x with built := x.built + 1, lastMap := some { frame := f, entries := es } })
  else if kind = .clearing then d.set Fields.GNT_GRV_STATUS_fallback g 0
  else if kind = .fallback then
    (((d.set Fields.GNT_GRV_STATUS_fallback g 1).raise Fields.GNT_GRV_STATUS_overrun g).count .grove .overrun g).updGrove g (fun x =>
      { x with built := x.built + 1 })
  else d

/-- Write the words of a captured map. -/
def putCapture (g : Nat) (ws : List Nat) (d : Dev) : Dev :=
  (ws.zipIdx).foldl (fun d p => d.set Fields.GRV_US_CAP_BUF_word (g * 18432 + p.2) p.1) d

/-- An armed capture takes the map of the frame that it names (R123). -/
def captureMap (c : Cfg) (g f : Nat) (es : List MapEntry) (d : Dev) : Dev :=
  let want := c.get Fields.GRV_US_CAP_SFC_HI_sfc_hi g * 2 ^ 32 + c.get Fields.GRV_US_CAP_SFC_LO_sfc_lo g
  if (d.grove g).capArm && want == f then
    let d := putCapture g (es.flatMap entryWords) (d.updGrove g (fun x => { x with capArm := false }))
    (d.set Fields.GRV_US_CAP_WORDS_map_words g (mapWords es)).set Fields.GRV_US_CAP_CTRL_cap_done g 1
  else d

/-- Seal the map of frame `f` (R49). -/
def sealMap (c : Cfg) (g f : Nat) (kind : MapKind) (es : List MapEntry) (d : Dev) : Dev :=
  let d := sealBuilt g f kind es d
  let idx := (d.grove g).built
  let d := es.foldl (fun d e => sealEntry c g idx e d) d
  let d := d.updGrove g (fun x => { x with maps := x.maps ++ [{ frame := f, kind := kind, entries := es, got := [], tloop := tLoop d g, precoder := !(compat c g) && c.flag Fields.GRV_DS_CTRL_precoder_en g }], computed := none })
  let d := (d.count .grove .twigsIssued g es.length).set Fields.GNT_GRV_LAST_twigs g es.length
  let d := d.set Fields.GNT_GRV_LAST_unused g (frameLeaves c g - entryLeaves es)
  captureMap c g f es (if compat c g then d.count .grove .bwmapStructures g ((es.map (fun e => (allocStructs e).length)).sum) else d)

/-! ### The frame (R65, R82, R86) -/

/-- Put bytes in place of those at an offset. -/
def pasteBytes (bs : List Byte) (at_ : Nat) (xs : List Byte) : List Byte := bs.take at_ ++ xs ++ bs.drop (at_ + xs.length)

/-- Show the header of the most recently sealed frame (R89). -/
def captureHeader (g : Nat) (fr : DsFrame) (d : Dev) : Dev :=
  let d := (d.set Fields.GRV_DS_HDR_CAP0_msg_count g fr.msgs.length).set Fields.GRV_DS_HDR_CAP0_map_words g fr.mapWords
  let d := (d.set Fields.GRV_DS_HDR_CAP1_slice_slots g fr.slots).set Fields.GRV_DS_PAYLOAD_START_payload_start g
    (offsetP fr.mapWords fr.msgs.length fr.slots)
  d.set48 Fields.GRV_DS_SFC_LO_sfc_lo Fields.GRV_DS_SFC_HI_sfc_hi g fr.sfc

/-- Bytes of a compatibility grove's downstream frame (R229). -/
def compatFrameBytes : Nat := 777600

/-- Bytes of a frame's payload region (R65, R229). -/
def regionBytes (c : Cfg) (g words msgs slots : Nat) (es : List MapEntry) (ploams : Nat) : Nat :=
  if compat c g then min compatFrameBytes (Config.compatRegion ((es.map (fun e => (allocStructs e).length)).sum) ploams) / 8 * 8
  else dataStreamBytes - offsetP words msgs slots

/-- The upstream map region (R65, R67): its words, most significant byte first, and 4 zero bytes where their number is odd. -/
def mapRegion (es : List MapEntry) : List Byte :=
  let ws := es.flatMap entryWords
  ws.flatMap (toBytesBE 4) ++ (if ws.length % 2 = 1 then zeroBytes 4 else [])

/-- The slice region (R69): the slice frames in their slots; a slot that no slice claims carries what the spec does not state. -/
def sliceRegion (g : Nat) (fr : DsFrame) : List Byte :=
  fr.slices.foldl (fun bs p => pasteBytes bs (64 * p.1) p.2) ((List.range fr.slots).flatMap (fun k => padTo 64 (Config.openSlot g fr.sfc k)))

/-- The payload region (R70): the data fragments, then the idle fragments with their zero bytes. -/
def payloadRegion (fr : DsFrame) : List Byte :=
  fr.frags.flatMap (fun f => fragBytes f.hdr f.payload) ++ fr.idle.flatMap (fun h => fragBytes h (zeroBytes h.len))

/-- The data stream of a native frame of a grove, region by region (R65). -/
def frameStream (g : Nat) (fr : DsFrame) : List Byte :=
  frameHeader fr.sfc fr.mapWords fr.msgs.length fr.precoder fr.slots g ++ mapRegion fr.map ++ fr.msgs.flatMap (fun m => padTo 64 m.bytes)
    ++ sliceRegion g fr ++ payloadRegion fr

/-- The PAM4 levels of a native frame of a grove as they leave its transmit balls (R20, R61 to R63). -/
def frameLine (g : Nat) (fr : DsFrame) : List Int := transmitChain fr.sfc fr.precoder (frameStream g fr)

/-- The bytes of a compatibility grove's frame as they leave its transmit balls (R227, R229, R230, R234, R236): the standard's frame of its superframe number, its
allocation structures in the units of the BWmap with the burst profile that each names (profile 0; DESIGN CHOICE, log 93), its PLOAM messages, its OMCI message, and its
packets under their XGEM Port-IDs, each fragment with the mark of a packet's last. -/
def compatLine (c : Cfg) (g : Nat) (fr : DsFrame) : List Byte :=
  let u := Config.bwmapUnits (c.get Fields.GRV_MODE_us_rate g)
  padTo compatFrameBytes (Config.g9804Frame g fr.sfc ((fr.map.flatMap allocStructs).map (fun x => (x.1, x.2.1 * u, x.2.2 * u, 0)))
    (fr.ploams.map (fun p => (p.kind.ctorIdx, p.onu, p.args, p.mic))) fr.omci (fr.frags.map (fun x => (x.hdr.bough, x.hdr.keyIndex, x.hdr.last, x.payload))))

/-- Freeze one grove: messages, map, and the frame built from them. A standby builds the frame in the same way, but seals no map: it hears upstream frames under
the mirrored map, and the frame leaves only where it takes over at the edge (R430, R433, R443); its payload is idle, for what is shadowed lies in the shadow
rings (R435). -/
def freezeGrove (c : Cfg) (g : Nat) (d : Dev) : Dev :=
  let f := d.sfc + 1
  let x := d.grove g
  if worksOn c d g x.inService && !(x.frame.map DsFrame.sfc == some f) then
    let cpt := compat c g
    let m := if cpt then ([], d) else freezeMsgs c g f d
    let p := if cpt then freezePloams g f m.2 else ([], none, m.2)
    let d := p.2.2
    let k := mapFor c d g f
    let d := if d.isStandby then d else sealMap c g f k.1 k.2 d
    let words := mapWords k.2
    let slots := if cpt then 0 else c.get Fields.SLC_GRV_REGION_slots g
    let region := regionBytes c g words m.1.length slots k.2 p.1.length
    let s := buildRegion c g f false d
    let w : Filling := if d.isStandby then ({ frags := [], used := 0, region := region, ended := false, cont := none }, s.2.2) else fillRegion c g f region s.2.2
    let fr : DsFrame :=
      { sfc := f, map := k.2, mapWords := words, msgs := m.1, slots := slots, precoder := !cpt && c.flag Fields.GRV_DS_CTRL_precoder_en g
        slices := s.1, frags := w.1.frags, idle := idleChain (region - w.1.used), ploams := p.1, omci := p.2.1, ais := s.2.1 }
    captureHeader g fr (w.2.updGrove g (fun y => { y with frame := some fr, cont := w.1.cont }))
  else d

/-- Map freeze of the tick: the clock runs to 172,500, every grove in service is frozen, and the de-jitter buffers are read (R49, R268). -/
def mapFreeze (c : Cfg) (d : Dev) : Dev :=
  if d.running then
    let d := d.runTo c 172500
    let gs := d.groves.map Prod.fst
    let d := if d.groves.any (fun x => x.2.frame.map DsFrame.sfc == some (d.sfc + 1)) then d else clearGroupLast d
    playout (d.sfc + 1) (gs.foldl (fun d g => freezeGrove c g d) d)
  else d

/-! ### The first frame in service (R630) -/

/-- The frame that a grove sends at the edge of its entry to service: no map, no messages, AIS in every slice, idle fill. -/
def firstFrame (c : Cfg) (g : Nat) (d : Dev) : Dev :=
  let cpt := compat c g
  let slots := if cpt then 0 else c.get Fields.SLC_GRV_REGION_slots g
  let s := buildRegion c g d.sfc true d
  let fr : DsFrame :=
    { sfc := d.sfc, map := [], mapWords := 0, msgs := [], slots := slots, precoder := !cpt && c.flag Fields.GRV_DS_CTRL_precoder_en g
      slices := s.1, frags := [], idle := idleChain (regionBytes c g 0 0 slots [] 0), ploams := [], omci := none, ais := s.2.1 }
  captureHeader g fr (s.2.2.updGrove g (fun y => { y with frame := some fr }))

end Sys2Proof.Machine
end

