-- ==== Sys2Proof/Machine/Lookup.lean ====
section
/-!
DEFINITION. The tables that a pipeline searches (spec file 11): the bridging table and its stash (R305 to R307), the LPM arrays (R324), the associative
memory and the cascade ring (R320, R322, R326, R327).
-/

namespace Sys2Proof.Machine

/-- CRC-32C with another initial value (R286, R306). -/
def crc32cFrom (seed : Nat) (bs : List Byte) : Nat := Nat.xor (bs.foldl crc32cByte seed) 0xFFFFFFFF

/-! ### The bridging table (R305 to R307) -/

/-- A bridging key from 8 key bytes: the domain, whose bits 15:12 are ignored, and the MAC address (R305). -/
def brKeyOf (bs : List Byte) : Nat := ofBytesBE (bs.take 2) % 4096 * 2 ^ 48 + ofBytesBE ((bs.drop 2).take 6)

/-- The domain of a key. -/
def brDomain (key : Nat) : Nat := key / 2 ^ 48

/-- The bucket of a key (R306). -/
def brBucket (c : Cfg) (key : Nat) : Nat := crc32cFrom (c.get Fields.TBL_BR_SEED_br_seed 0) (toBytesBE 8 key) % 2 ^ 18

/-- The first position of the stash. -/
def stashBase : Nat := 2097152

/-- The entries of the stash. -/
def stashSize : Nat := 4096

/-- The entry of a key with its position: in its bucket or in the stash (R306). -/
def brFind (c : Cfg) (d : Dev) (key : Nat) : Option (Nat × BrEntry) :=
  d.bridge.find? (fun p => p.2.key == key && (decide (stashBase ≤ p.1) || p.1 / 8 == brBucket c key))

/-! ### LPM (R324) -/

/-- A route covers an address of `w` bits. -/
def Route.covers (r : Route) (w addr : Nat) : Bool := r.pfx / 2 ^ (w - r.len) == addr / 2 ^ (w - r.len)

/-- The route at the lowest position that covers an address: the longest one (R324). -/
def lpmFind (routes : List Route) (w addr : Nat) : Option Route := routes.find? (fun r => r.covers w addr)

/-! ### The associative memory (R320, R322) -/

/-- Banks of an entry of a width code. -/
def ascGroup (width : Nat) : Nat := 2 ^ width

/-- An entry is valid. -/
def AscEntry.valid (e : AscEntry) : Bool := e.side.testBit 31
/-- An entry's priority. -/
def AscEntry.prio (e : AscEntry) : Nat := bitsOf e.side 24 4
/-- An entry's action index. -/
def AscEntry.act (e : AscEntry) : Nat := bitsOf e.side 0 14

/-- An entry matches a key of its width: every cared bit is equal. -/
def AscEntry.covers (e : AscEntry) (key : Nat) : Bool := (Nat.xor e.value key) &&& e.mask == 0

/-- The banks of a slot's search: base to base + 15 where the mask has a bit (R288). -/
def searchBanks (base mask : Nat) : List Nat := ((List.range 16).filter (fun k => mask.testBit k)).map (fun k => base + k)

/-- A hit is better: the higher priority, then the lower position (R322, R327). -/
def betterHit (a b : RingHit) : Bool := decide (b.prio < a.prio) || (a.prio == b.prio && decide (a.pos ≤ b.pos))

/-- The better of two results. -/
def bestHit : Option RingHit → Option RingHit → Option RingHit
  | some a, some b => some (if betterHit a b then a else b)
  | some a, none => some a
  | none, x => x

/-- The device's ring position. -/
def casPos (c : Cfg) : Nat := c.get Fields.ASC_CAS_CTRL_cas_pos 0

/-- A bank is shared (R326). -/
def bankShared (c : Cfg) (b : Nat) : Bool := c.flag Fields.ASC_BANK_CFG_cas b

/-- The best match of a key among valid entries of a width whose every bank is in a list and passes a test; positions are global (R322, R327). -/
def ascFind (c : Cfg) (d : Dev) (width : Nat) (banks : List Nat) (ok : Nat → Bool) (key : Nat) : Option RingHit :=
  d.asc.foldl (fun best p =>
    let first := p.1 / 4096
    if p.2.valid && p.2.width == width && (List.range (ascGroup width)).all (fun k => banks.contains (first + k) && ok (first + k)) && p.2.covers key
    then bestHit best (some { prio := p.2.prio, pos := casPos c * 2 ^ 20 + p.1, act := p.2.act })
    else best) none

/-- The width of the group that begins at a bank: none where the bank lies inside a wider group, or is no start of its own width (R320). -/
def ascWidthAt (c : Cfg) (b : Nat) : Option Nat :=
  let w := c.get Fields.ASC_BANK_CFG_width b
  let inside := [1, 2, 3].any (fun v => b / 2 ^ v * 2 ^ v != b && c.get Fields.ASC_BANK_CFG_width (b / 2 ^ v * 2 ^ v) == v)
  if inside || b % ascGroup w != 0 then none else some w

/-- A bank is searched by a lookup of a width over a list of banks (R288, R320): its group is of that width, and lies wholly in the list. -/
def bankSearched (c : Cfg) (width : Nat) (banks : List Nat) (b : Nat) : Bool :=
  let first := b / ascGroup width * ascGroup width
  ascWidthAt c first == some width && (List.range (ascGroup width)).all (fun k => banks.contains (first + k))

/-- A lookup is a cascade lookup (R326): a bank that it searches is shared, and the ring is not off. -/
def casLookup (c : Cfg) (width : Nat) (banks : List Nat) : Bool :=
  c.get Fields.ASC_CAS_CTRL_cas_size 0 ≠ 0 && banks.any (fun b => bankShared c b && bankSearched c width banks b)

/-- The ring is down (R328). -/
def casDown (d : Dev) : Bool := d.flag Fields.ASC_CAS_STATUS_cas_down 0

/-- What a key from the ring comes to here (R326): the better of the best match in this device's shared banks and the one that came with it. -/
def ringBest (c : Cfg) (d : Dev) (k : RingKey) : Option RingHit :=
  bestHit (ascFind c d k.width (searchBanks k.base k.banks) (bankShared c) k.key) k.best

/-- CASCADE_KEY_RX: another device's key is searched in the shared banks; the key goes on around the ring over Plaxon east, and the better result
over CAS_MO (R326). -/
def cascadeKeyRx (c : Cfg) (k : RingKey) (d : Dev) : Dev :=
  if d.running && !(casDown d) && c.get Fields.ASC_CAS_CTRL_cas_size 0 ≠ 0 then
    (d.emit (.ringKey { k with best := ringBest c d k })).emit (.ringResult (ringBest c d k))
  else d

/-- CASCADE_KEY_RX. -/
def execCascadeKeyRx (k : RingKey) (s : State) : Outcome := onDev (fun c d => cascadeKeyRx c k d) s

end Sys2Proof.Machine
end

