-- ==== Sys2Proof/Machine/Parse.lean ====
section
/-!
DEFINITION. The parse of a pass (spec file 10): tags and profile selection (R278), network-layer flags (R280), the fragment table (R282 to R285), the
symmetric hash (R286), the metadata block (R281) and the extraction of the key (R279).
-/

namespace Sys2Proof.Machine

/-- `n` bytes of a packet from an offset, zero beyond its end. -/
def bytesAt (bs : List Byte) (off n : Nat) : List Byte := padTo n (bs.drop off)

/-- A big-endian number of `n` bytes in a packet. -/
def numAt (bs : List Byte) (off n : Nat) : Nat := ofBytesBE (bytesAt bs off n)

/-! ### Tags (R278) -/

/-- A tag protocol identifier. -/
def isTpid (c : Cfg) (v : Nat) : Bool := v == 0x8100 || v == 0x88A8 || v == c.get Fields.PIPE_TPID_tpid 0

/-- The tag count of a pass: counting starts at byte 12 and stops after two tags. -/
def tagCount (c : Cfg) (bs : List Byte) : Nat :=
  if isTpid c (numAt bs 12 2) then (if isTpid c (numAt bs 16 2) then 2 else 1) else 0

/-- The EtherType of a pass. -/
def etherType (c : Cfg) (bs : List Byte) : Nat := numAt bs (12 + 4 * tagCount c bs) 2

/-! ### Profile selection (R278) -/

/-- The code of a kind. -/
def PktKind.code : PktKind → Nat
  | .uplink => 0
  | .stand => 1
  | .recirc => 2

/-- A selection entry of a bank matches a pass. -/
def selMatch (c : Cfg) (bank kind tags etype k : Nat) : Bool :=
  let x := bank * 128 + k
  c.flag Fields.PIPE_SEL_W0_valid x && c.get Fields.PIPE_SEL_W0_kind x == kind
    && (c.get Fields.PIPE_SEL_W0_tags x == 3 || c.get Fields.PIPE_SEL_W0_tags x == tags)
    && (etype &&& c.get Fields.PIPE_SEL_W1_mask x) == (c.get Fields.PIPE_SEL_W0_ethertype x &&& c.get Fields.PIPE_SEL_W1_mask x)

/-- The profile of a pass: that of the lowest matching entry, else the kind code. -/
def profileOf (c : Cfg) (bank kind tags etype : Nat) : Nat :=
  match (List.range 128).find? (selMatch c bank kind tags etype) with
  | some k => c.get Fields.PIPE_SEL_W1_profile (bank * 128 + k)
  | none => kind

/-! ### The network layer (R280, R282) -/

/-- What the fixed network-layer fields say: the flags of R280, whether the device fills the port window itself, the window's offset, and the key bytes
of the fragment table without the direction. -/
structure NetLayer where
  opts   : Bool
  ext    : Bool
  first  : Bool
  later  : Bool
  window : Nat
  fill   : Option (List Byte)
  fragKey : List Byte
  deriving DecidableEq, Repr

/-- No network layer. -/
def NetLayer.none : NetLayer :=
  { opts := false, ext := false, first := false, later := false, window := 0, fill := Option.none, fragKey := [] }

/-- IPv4 at an offset. -/
def ipv4Layer (bs : List Byte) (o : Nat) : NetLayer :=
  let w := numAt bs (o + 6) 2
  { opts := numAt bs o 1 % 16 ≠ 5, ext := false, first := w % 8192 == 0 && w.testBit 13, later := w % 8192 ≠ 0, window := o + 20
    fill := Option.none, fragKey := bytesAt bs (o + 12) 8 ++ bytesAt bs (o + 4) 2 ++ bytesAt bs (o + 9) 1 }

/-- IPv6 at an offset. -/
def ipv6Layer (bs : List Byte) (o : Nat) : NetLayer :=
  let nh := numAt bs (o + 6) 1
  let w := numAt bs (o + 42) 2
  let frag := nh == 44
  { opts := false, ext := !([6, 17, 58, 132, 44].contains nh), first := frag && w / 8 == 0 && w.testBit 0, later := frag && w / 8 ≠ 0
    window := o + 40, fill := if frag && w / 8 == 0 then some (bytesAt bs (o + 48) 4) else Option.none
    fragKey := bytesAt bs (o + 8) 32 ++ bytesAt bs (o + 44) 4 ++ bytesAt bs (o + 40) 1 }

/-- The network layer that a profile names. -/
def netLayer (c : Cfg) (bank profile : Nat) (bs : List Byte) : NetLayer :=
  let x := bank * 64 + profile
  let o := c.get Fields.PIPE_PRF_L3_l3_off x
  match c.get Fields.PIPE_PRF_L3_l3 x with
  | 1 => ipv4Layer bs o
  | 2 => ipv6Layer bs o
  | _ => NetLayer.none

/-! ### The fragment table (R282 to R285, R299, R300) -/

/-- The entry key of a packet on a pipeline. -/
def fragKeyOf (p : Nat) (n : NetLayer) : List Byte := n.fragKey ++ [if p < 16 then 0#8 else 1#8]

/-- The set of an entry key. -/
def fragSet (key : List Byte) : Nat := crc32c key % 1024

/-- The position of a key in its set. -/
def fragFind (d : Dev) (key : List Byte) : Option (Nat × FragEntry) := d.frag.find? (fun e => e.2.key == key)

/-- A timer that has been armed at its entry's insertion: it starts at the next edge (R48). -/
def newTmr : Tmr := { c := 0, run := false, arming := true, arr := false }

/-- A first fragment puts its ports into the table (R283). -/
def fragInsert (key ports : List Byte) (d : Dev) : Dev :=
  match fragFind d key with
  | some (k, e) => ({ d with frag := d.frag.put k { e with ports := ports, age := { e.age with arr := true } } }).count .device .fragInserts 0
  | none =>
    match (List.range 8).find? (fun w => (d.frag.get? (fragSet key * 8 + w)).isNone) with
    | some w => ({ d with frag := d.frag.put (fragSet key * 8 + w) { key := key, ports := ports, age := newTmr } }).count .device .fragInserts 0
    | none => d.count .device .fragFull 0

/-- A later fragment looks its ports up (R284): the ports on a hit. -/
def fragLookup (p : Nat) (key : List Byte) (d : Dev) : Option (List Byte) × Dev :=
  match fragFind d key with
  | some (k, e) => (some e.ports, ({ d with frag := d.frag.put k { e with age := { e.age with arr := true } } }).count .device .fragHits 0)
  | none => (none, d.count .device .fragMiss p)

/-- FRAG_AGED: an entry whose watchdog has expired is removed (R285). -/
def fragAged (c : Cfg) (k : Nat) (d : Dev) : Dev :=
  match d.frag.get? k with
  | some e =>
    if e.age.expired (c.get Fields.PIPE_FRAG_CTRL_age_ticks 0) then ({ d with frag := d.frag.erase k }).count .device .fragAged 0 else d
  | none => d

/-- FRAG_AGED. -/
def execFragAged (k : Fin 8192) (s : State) : Outcome := onDev (fun c d => fragAged c k d) s

/-! ### The symmetric hash (R286, R287) -/

/-- The two pairs and the value of the hash. -/
structure HashIn where
  a  : List Byte
  pa : List Byte
  b  : List Byte
  pb : List Byte
  p  : List Byte
  deriving DecidableEq, Repr

/-- The fixed fields that the hash reads. -/
def hashFields (c : Cfg) (bs : List Byte) : HashIn :=
  let o := 14 + 4 * tagCount c bs
  let et := etherType c bs
  let z := zeroBytes 2
  if et = 0x0800 then
    let pr := numAt bs (o + 9) 1
    let whole := numAt bs o 1 % 16 == 5 && numAt bs (o + 6) 2 % 16384 == 0
    let ports := whole && [6, 17, 132].contains pr
    { a := bytesAt bs (o + 12) 4, b := bytesAt bs (o + 16) 4, p := toBytesBE 2 pr
      pa := if ports then bytesAt bs (o + 20) 2 else z, pb := if ports then bytesAt bs (o + 22) 2 else z }
  else if et = 0x86DD then
    let nh := numAt bs (o + 6) 1
    let ports := [6, 17, 132].contains nh
    { a := bytesAt bs (o + 8) 16, b := bytesAt bs (o + 24) 16, p := toBytesBE 2 nh
      pa := if ports then bytesAt bs (o + 40) 2 else z, pb := if ports then bytesAt bs (o + 42) 2 else z }
  else { a := bytesAt bs 6 6, b := bytesAt bs 0 6, p := toBytesBE 2 et, pa := z, pb := z }

/-- The bytes that the hash covers, the pairs exchanged where the first is the greater. -/
def HashIn.bytes (h : HashIn) : List Byte :=
  if ofBytesBE (h.b ++ h.pb) < ofBytesBE (h.a ++ h.pa) then h.b ++ h.a ++ h.pb ++ h.pa ++ h.p else h.a ++ h.b ++ h.pa ++ h.pb ++ h.p

/-- The symmetric hash of a packet (R286). -/
def symHash (c : Cfg) (bs : List Byte) : Nat := crc32cFrom (c.get Fields.PIPE_HASH_SEED_hash_seed 0) (hashFields c bs).bytes

/-- The member of m that a hash chooses (R287). -/
def hashPick (h m : Nat) : Nat := h * m / 2 ^ 32

/-! ### The metadata block and the key (R279, R281) -/

/-- The flags of metadata byte 5. -/
def mdFlags (n : NetLayer) (hit short second : Bool) : Nat :=
  n.opts.toNat * 128 + n.ext.toNat * 64 + n.first.toNat * 32 + n.later.toNat * 16 + hit.toNat * 8 + short.toNat * 4 + second.toNat * 2

/-- The metadata block of a pass. -/
def mdBlock (pkt : PipePkt) (tags flags : Nat) : List Byte :=
  let stand := pkt.kind == .stand
  toBytesBE 2 pkt.a ++ toBytesBE 2 (if stand then pkt.b else 0) ++ toBytesBE 1 (pkt.kind.code * 64 + tags * 16) ++ toBytesBE 1 flags
    ++ toBytesBE 2 (if stand then groveOf pkt.a else pkt.b) ++ toBytesBE 4 pkt.hash ++ zeroBytes 4

/-- The valid extraction words of a profile, as (from metadata, offset, length, key position). -/
def extractions (c : Cfg) (bank profile : Nat) : List (Bool × Nat × Nat × Nat) :=
  (List.range 16).filterMap (fun k =>
    let x := (bank * 64 + profile) * 16 + k
    if c.flag Fields.PIPE_PRF_EXT_valid x then
      some (c.flag Fields.PIPE_PRF_EXT_src x, c.get Fields.PIPE_PRF_EXT_offset x, c.get Fields.PIPE_PRF_EXT_length x + 1,
        c.get Fields.PIPE_PRF_EXT_pos x)
    else none)

/-- Write bytes into a list at a position. -/
def pasteAt (key : List Byte) (pos : Nat) (bs : List Byte) : List Byte := key.take pos ++ bs ++ key.drop (pos + bs.length)

/-- The packet as extractions see it, with the port window that the device fills. -/
def filledPacket (bs : List Byte) (window : Nat) : Option (List Byte) → List Byte
  | some f => pasteAt (padTo (max bs.length (window + 4)) bs) window f
  | none => bs

/-- The 64 key bytes of a pass (R279). -/
def keyBytes (exts : List (Bool × Nat × Nat × Nat)) (seen md : List Byte) : List Byte :=
  exts.foldl (fun key e => pasteAt key e.2.2.2 (bytesAt (if e.1 then md else seen) e.2.1 e.2.2.1)) (zeroBytes 64)

/-- The profile of a pass (R278). -/
def passProfile (c : Cfg) (second : Bool) (pkt : PipePkt) : Nat :=
  profileOf c pkt.bank (if second then PktKind.recirc.code else pkt.kind.code) (tagCount c pkt.bytes) (etherType c pkt.bytes)

/-- An extraction reaches beyond the end of the packet (R279). -/
def extsShort (exts : List (Bool × Nat × Nat × Nat)) (bs : List Byte) : Bool := exts.any (fun e => !e.1 && decide (bs.length < e.2.1 + e.2.2.1))

/-- A pass with its network layer known, and what the fragment table said of it (R278, R279, R281, R286): a first pass gets the packet's hash. -/
def parsedOf (c : Cfg) (second : Bool) (pkt : PipePkt) (n : NetLayer) (found : Option (List Byte)) : Parsed :=
  let bs := pkt.bytes
  let pkt := if second then pkt else { pkt with hash := symHash c bs }
  let prof := passProfile c second pkt
  let exts := extractions c pkt.bank prof
  let tags := tagCount c bs
  let seen := filledPacket bs n.window (if n.later then some (found.getD (zeroBytes 4)) else n.fill)
  let md := mdBlock pkt tags (mdFlags n found.isSome (extsShort exts bs) second)
  { pkt := pkt, second := second, profile := prof, key := keyBytes exts seen md, md := md, tags := tags }

/-- Parse a pass (R278 to R286): the parsed pass, and whether it is dropped as a later fragment without ports. -/
def parsePass (c : Cfg) (p : Nat) (second : Bool) (pkt : PipePkt) (d : Dev) : Parsed × Bool × Dev :=
  let prof := passProfile c second pkt
  let n := netLayer c pkt.bank prof pkt.bytes
  let key := fragKeyOf p n
  let (found, d) := if n.later then fragLookup p key d else (none, d)
  let d := if extsShort (extractions c pkt.bank prof) pkt.bytes then d.count .device .shortKey p else d
  let s := parsedOf c second pkt n found
  if n.later && found.isNone && c.flag Fields.PIPE_FRAG_CTRL_miss_drop 0 then (s, true, d.count .device .fragMissDrop p)
  else (s, false, if n.first && pkt.tagOk then fragInsert key (bytesAt (filledPacket pkt.bytes n.window n.fill) n.window 4) d else d)

end Sys2Proof.Machine
end

