-- ==== Sys2Proof/Machine/Admit.lean ====
section
/-!
DEFINITION. From a resolved pass to a queue: tag edits (R289, R290), metering (R386 to R388), admission to bough queues (R166, R384, R338, R354, R379, R435)
and to the queues of uplink ports (R385, R535 to R537).
-/

namespace Sys2Proof.Machine

/-! ### Tag edits (R289, R290) -/

/-- A tag edit of a record: its operation, whether the VIDs come from the metadata, and the record's VIDs. -/
structure VlanEdit where
  op    : Nat
  meta_ : Bool
  outer : Nat
  inner : Nat
  deriving DecidableEq, Repr

/-- A tag with a TPID and the four bits of its PCP and DEI. -/
def tagBytes (tpid pcpDei vid : Nat) : List Byte := toBytesBE 2 tpid ++ toBytesBE 2 (pcpDei % 16 * 4096 + vid % 4096)

/-- Replace the VID of the tag at an offset. -/
def setVid (bs : List Byte) (off vid : Nat) : List Byte :=
  pasteAt bs (off + 2) (toBytesBE 2 (numAt bs (off + 2) 2 / 4096 * 4096 + vid % 4096))

/-- Edit the tags of a packet that has `tags` of them (R289, R290). `fresh` is the PCP and DEI of pushed tags. -/
def editTags (op tags outer inner fresh : Nat) (bs : List Byte) : List Byte :=
  let rest := fun (n : Nat) => bs.take 12 ++ bs.drop (12 + 4 * n)
  if op = 1 then rest (min tags 1)
  else if op = 2 then rest (min tags 2)
  else if op = 3 then bs.take 12 ++ tagBytes 0x8100 fresh outer ++ bs.drop 12
  else if op = 4 then bs.take 12 ++ tagBytes 0x88A8 fresh outer ++ tagBytes 0x8100 fresh inner ++ bs.drop 12
  else if op = 5 ∨ op = 6 then
    let bs := if 1 ≤ tags then setVid bs 12 outer else bs
    if op = 6 ∧ 2 ≤ tags then setVid bs 16 inner else bs
  else bs

/-- The grove and stand-in-grove that vid_src takes: those of the sending stand, or, on an UPLINK packet, of the destination bough (R289). -/
def vidStand (c : Cfg) (pkt : PipePkt) (bough : Option Nat) : Option Nat :=
  match pkt.kind with
  | .uplink => bough.bind (standOfBough c)
  | _ => some pkt.a

/-- The VIDs of an edit; where vid_src names a stand that there is not, the spec states none and they are free. -/
def editVids (c : Cfg) (pkt : PipePkt) (bough : Option Nat) (e : VlanEdit) (d : Dev) : Nat × Nat × Dev :=
  if e.meta_ then
    match vidStand c pkt bough with
    | some i => ((c.get Fields.PIPE_SVID_BASE_svid_base 0 + groveOf i) % 4096, inGrove i, d)
    | none =>
      let (o, d) := d.draw 4096
      let (n, d) := d.draw 4096
      (o, n, d)
  else (e.outer, e.inner, d)

/-- Whether the packet has an outer tag. -/
def hasTag (c : Cfg) (bs : List Byte) : Bool := isTpid c (numAt bs 12 2)

/-- Set the outer PCP, if there is an outer tag. -/
def setPcp (c : Cfg) (pcp : Nat) (bs : List Byte) : List Byte :=
  if hasTag c bs then pasteAt bs 14 (toBytesBE 1 (pcp % 8 * 32 + numAt bs 14 1 % 32)) else bs

/-- Set the outer DEI, if there is an outer tag. -/
def setDei (c : Cfg) (dei : Bool) (bs : List Byte) : List Byte :=
  if hasTag c bs then pasteAt bs 14 (toBytesBE 1 (setBits (numAt bs 14 1) 4 1 dei.toNat)) else bs

/-- The outer PCP. -/
def outerPcp (bs : List Byte) : Nat := numAt bs 14 1 / 32

/-- The packet as it leaves a pass, before its meter: tag edits, then the PCP. The PCP and DEI of a pushed tag are free where no record and no meter sets
them. -/
def editPacket (c : Cfg) (pkt : PipePkt) (tags : Nat) (bough : Option Nat) (edit : Option VlanEdit) (pcp : Option Nat) (d : Dev) :
    List Byte × Dev :=
  let (bs, d) := match edit with
    | some e =>
      let (o, n, d) := editVids c pkt bough e d
      let (fresh, d) := if e.op = 3 ∨ e.op = 4 then d.draw 16 else (0, d)
      (editTags e.op tags o n fresh pkt.bytes, d)
    | none => (pkt.bytes, d)
  (match pcp with | some v => setPcp c v bs | none => bs, d)

/-! ### Meters (R386 to R388) -/

/-- What a meter's marking does to the packet (R388). -/
def applyColour (c : Cfg) (m : Nat) (col : Colour) (bs : List Byte) : List Byte :=
  let bs := if c.flag Fields.SCH_POL_CTRL_dei_en m then setDei c (!(col == .green)) bs else bs
  if col == .yellow && c.flag Fields.SCH_POL_CTRL_pcp_y_en m then setPcp c (c.get Fields.SCH_POL_CTRL_pcp_y m) bs
  else if col == .red && c.flag Fields.SCH_POL_CTRL_pcp_r_en m then setPcp c (c.get Fields.SCH_POL_CTRL_pcp_r m) bs
  else bs

/-- The counter of a colour. -/
def polCtr : Colour → Ctr
  | .green => .polGreen
  | .yellow => .polYellow
  | .red => .polRed

/-- Meter a packet: its colour, its bytes afterwards, and whether it is dropped (R386 to R388). -/
def meterPacket (c : Cfg) (pol : Option Nat) (bs : List Byte) (d : Dev) : Colour × List Byte × Bool × Dev :=
  match pol with
  | none => (.green, bs, false, d)
  | some m =>
    if c.flag Fields.SCH_POL_CTRL_en m then
      let yellow := c.flag Fields.SCH_POL_CTRL_aware m && hasTag c bs && (numAt bs 14 1).testBit 4
      let (col, x) := meterMark (c.get Fields.SCH_POL_CTRL_variant m == 1) yellow bs.length (d.meters.getD m (fullMeter c m))
      let d := ({ d with meters := d.meters.put m x }).count .meter (polCtr col) m
      if col == .red && c.flag Fields.SCH_POL_CTRL_red_drop m then (col, bs, true, d.count .meter .polRedDrop m)
      else (col, applyColour c m col bs, false, d)
    else (.green, bs, false, d)

/-! ### Admission to queues (R384, R385, R338) -/

/-- The outcome of an admission: the counter of the drop, none where the packet was admitted. -/
abbrev Adm := Option Ctr × Dev

/-- A drop, counted. -/
def dropAs (f : Fam) (x : Ctr) (i : Nat) (d : Dev) : Adm := (some x, d.count f x i)

/-- The admission limit of a colour (R384). -/
def limitOf (g y r : Nat) : Colour → Nat
  | .green => g
  | .yellow => y
  | .red => r

/-- The counter of an admission drop. -/
def admCtr : Colour → Ctr
  | .green => .admDropGreen
  | .yellow => .admDropYellow
  | .red => .admDropRed

/-- Store a packet in a near buffer that pipeline `p` takes, and put it where `place` says (R338). -/
def storePkt (c : Cfg) (p q : Nat) (bs : List Byte) (stamp : Option Nat) (reps : Nat) (place : Queue → QPkt → Queue) (d : Dev) : Adm :=
  match takeBuf c 0 p (poolsFrom bs.length) d with
  | (none, d) => dropAs .device .nearEmptyDrop p d
  | (some (pool, b, gen), d) =>
    let pk : QPkt := { uid := d.uid, bytes := bs, pool := pool, buf := b, gen := gen, tick := d.sfc, clock := d.clock, reps := reps, moved := false,
                       sec0 := 0, sec1 := 0, off := 0, stay := false, stamp := stamp, flow := none }
    (none, { d.setQueue q (place (d.queue q) pk) with uid := d.uid + 1 })

/-- Behind the near segments of a queue. -/
def atTail (x : Queue) (pk : QPkt) : Queue := x.push pk

/-- Behind the held segment of a queue (R353), and behind what its near segments hold: a tail that the rest found, or that came while the hold tier was down, stays in
the near tier in front of it (R28, R343). -/
def atHeld (x : Queue) (pk : QPkt) : Queue := { x with held := x.held ++ x.tail.map (fun p => { p with stay := true }) ++ [pk], tail := [] }

/-- The limit of a bough queue. -/
def boughLimit (c : Cfg) (q : Nat) (col : Colour) : Nat :=
  limitOf (c.get Fields.SCH_Q_GLIM_g_limit q) (c.get Fields.SCH_Q_YLIM_y_limit q) (c.get Fields.SCH_Q_RLIM_r_limit q) col

/-- The queue's limit for a packet of a length (R384, step 2). -/
def depthOk (c : Cfg) (d : Dev) (q : Nat) (col : Colour) (len : Nat) : Bool := decide ((d.queue q).depth + len ≤ 1024 * boughLimit c q col)

/-- Steps 2 and 3 of R384. -/
def admitDepth (c : Cfg) (p q : Nat) (col : Colour) (bs : List Byte) (stamp : Option Nat) (d : Dev) : Adm :=
  if depthOk c d q col bs.length then storePkt c p q bs stamp 0 atTail d else dropAs .bough (admCtr col) (q / 8) d

/-- Arrivals of a RESTING stand that pass the queue's limit wait for the hold tier within its quota (R28, R353, R354, R384). -/
def admitHeld (c : Cfg) (p q i : Nat) (col : Colour) (bs : List Byte) (d : Dev) : Adm :=
  if depthOk c d q col bs.length = false then dropAs .bough (admCtr col) (q / 8) d
  else if holdQuota c i < holdUsage c d i + bs.length then dropAs .stand .holdDrop i d
  else storePkt c p q bs none 0 atHeld d

/-- Admission to a unicast bough queue (R384, R166, R354, R435). -/
def admitUnicast (c : Cfg) (p q i : Nat) (col : Colour) (bs : List Byte) (d : Dev) : Adm :=
  match d.st i with
  | .absent => dropAs .stand .absentDrop i d
  | .silenced => dropAs .stand .silencedDrop i d
  | st =>
    if d.isStandby && pairedGrove c d (groveOf i) then
      if c.flag Fields.BUF_Q_CFG_shadow_en q then admitDepth c p q col bs none d else dropAs .grove .standbyDiscard (groveOf i) d
    else if st == .resting && d.holdUp then admitHeld c p q i col bs d
    else
      match admitDepth c p q col bs none d with
      | (none, d') => (none, gainBytes c i (hasQueued c d i) d')
      | r => r

/-- The groves that carry a multicast group now (R379). -/
def groupGroves (c : Cfg) (d : Dev) (grp : Nat) : List Nat := (List.range 64).filter (fun g => groupOnGrove c d grp g)

/-- Admission to a multicast bough queue (R379): held once, with a replica for each grove that has a member. A standby admits what it shadows, for its paired groves, and
drops the rest (R350, R435). -/
def admitMulticast (c : Cfg) (p q : Nat) (col : Colour) (bs : List Byte) (d : Dev) : Adm :=
  let grp := q / 8 - mcBase
  let gs := groupGroves c d grp
  if gs.isEmpty then dropAs .device .mcNoMember 0 d
  else if d.isStandby && !(c.flag Fields.BUF_Q_CFG_shadow_en q && gs.any (pairedGrove c d)) then
    (some .standbyDiscard, (gs.filter (pairedGrove c d)).foldl (fun d g => d.count .grove .standbyDiscard g) d)
  else if depthOk c d q col bs.length then
    let uid := d.uid
    let gs := if d.isStandby then gs.filter (pairedGrove c d) else gs
    match storePkt c p q bs none gs.length (fun x pk => { x with head := x.head ++ [pk] }) d with
    | (none, d) => (none, { d with reps := gs.foldl (fun m g => m.upd (repKey g grp) [] (fun l => l ++ [(q, uid)])) d.reps })
    | r => r
  else dropAs .bough (admCtr col) (q / 8) d

/-- Admission to a bough queue. -/
def admitBough (c : Cfg) (p q : Nat) (col : Colour) (bs : List Byte) (d : Dev) : Adm :=
  if mcBase ≤ q / 8 then admitMulticast c p q col bs d
  else
    match standOfBough c (q / 8) with
    | some i => admitUnicast c p q i col bs d
    | none => dropAs .device .destInvalid p d

/-! ### Uplink ports (R385, R533, R535 to R537) -/

/-- A lane is the first lane of a configured port: enabled, and not in a parked quadrant (R494). -/
def portOn (c : Cfg) (d : Dev) (lane : Nat) : Bool :=
  c.flag Fields.LANE_UP_CFG_en lane && !((d.get Fields.CLK_PWR_STAT_parked 0).testBit (lane / 16))

/-- The link of a port is up. -/
def linkUp (d : Dev) (lane : Nat) : Bool := d.flag Fields.LANE_UP_STATUS_link_up lane

/-- The egress class of a packet at a port (R385). -/
def upClass (c : Cfg) (lane : Nat) (bs : List Byte) : Nat :=
  if hasTag c bs then 7 - outerPcp bs else c.get Fields.SCH_UP_PORT_untag_class lane

/-- Admission to an uplink port (R385, R535). -/
def admitPort (c : Cfg) (p lane : Nat) (col : Colour) (bs : List Byte) (stamp : Option Nat) (d : Dev) : Adm :=
  if linkUp d lane then
    let cls := upClass c lane bs
    let x := lane * 8 + cls
    let lim := limitOf (c.get Fields.SCH_UP_GLIM_g_limit x) (c.get Fields.SCH_UP_YLIM_y_limit x) (c.get Fields.SCH_UP_RLIM_r_limit x) col
    if (d.queue (upQueue lane cls)).depth + bs.length ≤ 1024 * lim then storePkt c p (upQueue lane cls) bs stamp 0 atTail d
    else dropAs .device .upAdmDrop x d
  else dropAs .device .linkDownDrop lane d

/-- The member mask of a load-spreading group. -/
def groupMask (c : Cfg) (k : Nat) : Nat := c.get Fields.LANE_GRP_HI_members_hi k * 2 ^ 32 + c.get Fields.LANE_GRP_LO_members_lo k

/-- The active members of a group, in ascending first lane (R536, R537). -/
def groupMembers (c : Cfg) (d : Dev) (k : Nat) : List Nat :=
  (List.range 64).filter (fun l => (groupMask c k).testBit l && portOn c d l && d.flag Fields.LANE_UP_STATUS_member l)

/-- Admission to a load-spreading group (R287, R536). -/
def admitGroup (c : Cfg) (p k hash : Nat) (col : Colour) (bs : List Byte) (stamp : Option Nat) (d : Dev) : Adm :=
  let ms := groupMembers c d k
  match ms[hashPick hash ms.length]? with
  | some lane => admitPort c p lane col bs stamp d
  | none => dropAs .device .grpEmptyDrop k d

/-! ### Floods (R293) -/

/-- Where the copies of a flood go: a bough queue or a port. -/
inductive Copy where
  | bough (q : Nat)
  | port (lane : Nat)
  deriving DecidableEq, Repr

/-- The lsg of a stand. -/
def lsgOf (c : Cfg) (i : Nat) : Nat := c.get Fields.STD_CTRL_lsg i

/-- The copies of a FLOOD packet (R183, R293): one to each enabled port, also in a parked quadrant, whose link is down (R535). -/
def floodCopies (c : Cfg) (pkt : PipePkt) (dest : Nat) : List Copy :=
  let f := dest % 4096
  let grp := [Copy.bough ((mcBase + c.get Fields.PIPE_FLOOD_GRP_group f) * 8 + dest / 4096 % 8)]
  let on := c.flag Fields.PIPE_FLOOD_GRP_grp_valid f
  let mask := c.get Fields.PIPE_FLOOD_PORTS_HI_ports_hi f * 2 ^ 32 + c.get Fields.PIPE_FLOOD_PORTS_LO_ports_lo f
  match pkt.kind with
  | .stand =>
    (((List.range 64).filter (fun l => mask.testBit l && c.flag Fields.LANE_UP_CFG_en l)).map Copy.port)
      ++ (if on && lsgOf c pkt.a ≠ 0 && lsgOf c pkt.a == c.get Fields.PIPE_FLOOD_GRP_lsg f then grp else [])
  | _ => if on then grp else []

/-- Admit one copy. -/
def admitCopy (c : Cfg) (p : Nat) (col : Colour) (bs : List Byte) (stamp : Option Nat) (x : Copy) (d : Dev) : Adm :=
  match x with
  | .bough q => admitBough c p q col bs d
  | .port lane => admitPort c p lane col bs stamp d

/-- Admit the copies of a flood one after the other: the last drop, and whether any copy was admitted. -/
def admitCopies (c : Cfg) (p : Nat) (col : Colour) (bs : List Byte) (stamp : Option Nat) : List Copy → Bool → Option Ctr → Dev → Adm
  | [], any, last, d => (if any then none else last, d)
  | x :: xs, any, last, d =>
    match admitCopy c p col bs stamp x d with
    | (none, d) => admitCopies c p col bs stamp xs true last d
    | (some r, d) => admitCopies c p col bs stamp xs any (some r) d

end Sys2Proof.Machine
end

