-- ==== Sys2Proof/Machine/Pipeline.lean ====
section
/-!
DEFINITION. The passes of a packet pipeline (spec file 10): lookup slots and their merge (R288 to R291), learn requests (R308, R309), resolution (R292),
floods (R293), the cascade wait (R326 to R328), the slot classes and the sampler (R593 to R597), and the drain of a rule-set bank (R295).
-/

namespace Sys2Proof.Machine

/-! ### Action records (R289, R290) -/

/-- An action record. -/
structure Action where
  final    : Bool
  destKind : Nat
  dest     : Nat
  policer  : Option Nat
  edit     : Option VlanEdit
  pcp      : Option Nat
  stripLen : Nat
  stripOff : Nat
  deriving DecidableEq, Repr

/-- Record `a` of a bank. -/
def actionOf (c : Cfg) (bank a : Nat) : Action :=
  let x := bank * 16384 + a
  let w0 := c.get Fields.PIPE_ACT_W0_word x
  let w1 := c.get Fields.PIPE_ACT_W1_word x
  let w2 := c.get Fields.PIPE_ACT_W2_word x
  let w3 := c.get Fields.PIPE_ACT_W3_word x
  { final := w0.testBit 31, destKind := bitsOf w0 28 3, dest := bitsOf w0 0 19
    policer := if w1.testBit 31 then some (bitsOf w1 0 17) else none
    edit := if bitsOf w2 29 3 = 0 then none
      else some { op := bitsOf w2 29 3, meta_ := w2.testBit 28, outer := bitsOf w2 16 12, inner := bitsOf w2 0 12 }
    pcp := if w3.testBit 31 then some (bitsOf w3 28 3) else none
    stripLen := bitsOf w3 8 8, stripOff := bitsOf w3 0 8 }

/-- An entry's override replaces a record's destination (R307): 1 BOUGH, 2 PORT. -/
def overrideDest (a : Action) (kind val : Nat) : Action :=
  if kind = 1 then { a with destKind := 2, dest := val * 8 + a.dest % 8 }
  else if kind = 2 then { a with destKind := 3, dest := val }
  else a

/-- The merged result of a pass; dest_kind 0 while nothing has set a destination. -/
structure Merged where
  destKind : Nat
  dest     : Nat
  strip    : Nat × Nat
  policer  : Option Nat
  edit     : Option VlanEdit
  pcp      : Option Nat
  deriving DecidableEq, Repr

/-- Nothing merged yet. -/
def Merged.init : Merged := { destKind := 0, dest := 0, strip := (0, 0), policer := none, edit := none, pcp := none }

/-- Merge one more record (R290): the first to set a field sets it. -/
def Merged.add (m : Merged) (a : Action) : Merged :=
  { destKind := if m.destKind = 0 then a.destKind else m.destKind
    dest := if m.destKind = 0 then a.dest else m.dest
    strip := if m.destKind = 0 then (a.stripOff, a.stripLen) else m.strip
    policer := m.policer <|> a.policer, edit := m.edit <|> a.edit, pcp := m.pcp <|> a.pcp }

/-! ### Lookup slots (R288) -/

/-- What the slots of a pass come to: the ring's answer to a key is awaited, or all have run, with the merged result, the key of the first
bridging slot that ran (its domain with the source address comes from it), and the cascade lookups run locally because the ring is down. -/
inductive SlotsOut where
  | ring (k : RingKey)
  | done (m : Merged) (learnDom : Option Nat) (locals : Nat)
  deriving DecidableEq, Repr

/-- What one slot finds: an action index with an override, or the ring is asked. -/
inductive SlotHit where
  | ask (k : RingKey)
  | hit (act kind val : Nat)
  deriving DecidableEq, Repr

/-- The key bytes of a slot as a number. -/
def slotKey (key : List Byte) (start n : Nat) : Nat := ofBytesBE (bytesAt key start n)

/-- Search the table of a slot (R288, R305, R322, R324, R326 to R328). `answer` is what the ring said for it: `none` where it has not answered. -/
def searchSlot (c : Cfg) (d : Dev) (x : Nat) (key : List Byte) (answer : Option (Option RingHit)) : SlotHit :=
  let miss := c.get Fields.PIPE_PRF_LKP1_miss_index x
  let start := c.get Fields.PIPE_PRF_LKP0_key_start x
  let width := c.get Fields.PIPE_PRF_LKP0_width x
  match c.get Fields.PIPE_PRF_LKP0_table x with
  | 1 =>
    let base := c.get Fields.PIPE_PRF_LKP0_base x
    let mask := c.get Fields.PIPE_PRF_LKP1_bank_mask x
    let banks := searchBanks base mask
    let k := slotKey key start (8 * ascGroup width)
    let own := ascFind c d width banks (fun _ => true) k
    let result := fun (r : Option RingHit) => match bestHit own r with | some h => SlotHit.hit h.act 0 0 | none => .hit miss 0 0
    if casLookup c width banks then
      match answer with
      | some r => result r
      | none => if casDown d then result none else .ask { width := width, base := base, banks := mask, key := k, best := none }
    else result none
  | 2 =>
    match brFind c d (brKeyOf (bytesAt key start 8)) with
    | some (_, e) => .hit e.act e.kind e.val
    | none => .hit miss 0 0
  | _ =>
    let r := if width = 1 then lpmFind d.lpm6 64 (slotKey key start 8) else lpmFind d.lpm4 32 (slotKey key start 4)
    match r with
    | some r => .hit r.act 0 0
    | none => .hit miss 0 0

/-- A slot's search is a cascade lookup. -/
def slotCascades (c : Cfg) (x : Nat) : Bool :=
  c.get Fields.PIPE_PRF_LKP0_table x == 1
    && casLookup c (c.get Fields.PIPE_PRF_LKP0_width x) (searchBanks (c.get Fields.PIPE_PRF_LKP0_base x) (c.get Fields.PIPE_PRF_LKP1_bank_mask x))

/-- Run the slots of a pass in order (R288, R290): the ring's answers go to its cascade lookups in order, and one that runs without an answer, the ring being
down, runs locally (R328). -/
def runSlots (c : Cfg) (d : Dev) (s : Parsed) : List Nat → List (Option RingHit) → Merged → Option Nat → Nat → SlotsOut
  | [], _, m, dom, locals => .done m dom locals
  | k :: ks, answers, m, dom, locals =>
    let x := (s.pkt.bank * 64 + s.profile) * 3 + k
    if c.get Fields.PIPE_PRF_LKP0_table x = 0 then runSlots c d s ks answers m dom locals
    else
      let cas := slotCascades c x
      match searchSlot c d x s.key answers.head? with
      | .ask k => .ring k
      | .hit act kind val =>
        let a := overrideDest (actionOf c s.pkt.bank act) kind val
        let dom := if dom.isNone && c.get Fields.PIPE_PRF_LKP0_table x == 2
          then some (ofBytesBE (bytesAt s.key (c.get Fields.PIPE_PRF_LKP0_key_start x) 2) % 4096) else dom
        let locals := if cas && answers.isEmpty then locals + 1 else locals
        if a.final then .done (m.add a) dom locals
        else runSlots c d s ks (if cas then answers.drop 1 else answers) (m.add a) dom locals

/-! ### Learn requests (R308, R309, R312) -/

/-- The learned source of a pass: BOUGH with the bough of a stand packet, PORT with the first lane of an uplink packet. -/
def learnSource (pkt : PipePkt) : Nat × Nat := if pkt.kind == .stand then (1, pkt.b) else (2, pkt.b)

/-- A pass learns from its first bridging slot where its domain learns and its source is no group (R308, R309). Whether or not it does, a hit on the
entry with the same source is an arrival for that entry's watchdog (R312). -/
def learnPass (c : Cfg) (p dom : Nat) (pkt : PipePkt) (d : Dev) : Dev :=
  let mac := numAt pkt.bytes 6 6
  let key := dom * 2 ^ 48 + mac
  let src := learnSource pkt
  let ask := fun (d : Dev) =>
    if !(c.flag Fields.TBL_BR_DOM_learn_en dom) || mac.testBit 40 then d
    else if (d.pipe p).learn.length < 64 then d.updPipe p (fun x => { x with learn := x.learn ++ [{ key := key, kind := src.1, val := src.2 }] })
    else d.count .device .learnFifoDrop p
  match brFind c d key with
  | none => ask d
  | some (pos, e) =>
    if e.kind = src.1 ∧ e.val = src.2 then { d with bridge := d.bridge.put pos { e with age := { e.age with arr := true } } }
    else if e.static then d
    else ask d

/-! ### Slot classes and the sampler (R593 to R597) -/

/-- The classes of an issue slot. -/
inductive SlotClass where
  | retired | wastedRecirc | wastedReplay | wastedDrop | frontStarved | backStarved
  deriving DecidableEq, Repr

/-- The counter of a class. -/
def SlotClass.ctr : SlotClass → Ctr
  | .retired => .retired
  | .wastedRecirc => .wastedRecirc
  | .wastedReplay => .wastedReplay
  | .wastedDrop => .wastedDrop
  | .frontStarved => .frontStarved
  | .backStarved => .backStarved

/-- The sampler's events that a slot of a class is (R595); code 0, a pass issued, comes with the pass. -/
def SlotClass.isEvent (x : SlotClass) (ev : Nat) : Bool :=
  match x with
  | .retired => ev == 1
  | .wastedRecirc => ev == 2 || ev == 6
  | .wastedReplay => ev == 2
  | .wastedDrop => ev == 2 || ev == 5
  | .frontStarved => ev == 4
  | .backStarved => ev == 3

/-- A pipeline's sampler. -/
def Dev.sampler (d : Dev) (p : Nat) : Sampler := d.samplers.getD p { count := 0, armed := none, recs := [], seq := 0 }

/-- Count sampler events: at the period the count restarts and the sampler arms (R595). -/
def sampleEvent (c : Cfg) (p n : Nat) (d : Dev) : Dev :=
  let per := c.get Fields.CNT_SMP_CTRL_period p
  if per = 0 ∨ n = 0 then d
  else
    let x := d.sampler p
    if per ≤ x.count + n then { d with samplers := d.samplers.put p { x with count := (x.count + n) % per, armed := x.armed <|> some 0 } }
    else { d with samplers := d.samplers.put p { x with count := x.count + n } }

/-- Account for `n` slots of a class (R593, R595). -/
def slotClass (c : Cfg) (p : Nat) (x : SlotClass) (n : Nat) (d : Dev) : Dev :=
  let d := d.count .device x.ctr p n
  if x.isEvent (c.get Fields.CNT_SMP_CTRL_smp_event p) then sampleEvent c p n d else d

/-- A pass has ended: its slot is classified, and an armed sampler takes it as its pass if it has none yet (R593, R595). -/
def passEnds (c : Cfg) (p : Nat) (x : SlotClass) (r : PassRec) (d : Dev) : Dev :=
  let d := slotClass c p x 1 d
  let d := if c.get Fields.CNT_SMP_CTRL_smp_event p = 0 then sampleEvent c p 1 d else d
  if (d.sampler p).armed.isSome && (d.pipe p).last.isNone then d.updPipe p (fun y => { y with last := some r }) else d

/-! ### Resolution (R292, R293) -/

/-- The queue of a BOUGH destination names a multicast bough or a bound unicast bough. -/
def boughValid (c : Cfg) (q : Nat) : Bool := decide (mcBase ≤ q / 8 ∧ q / 8 < 65536) || (standOfBough c (q / 8)).isSome

/-- The first two checks of R292. -/
def destValid (c : Cfg) (d : Dev) (p : Nat) (m : Merged) : Bool :=
  (if p < 16 then [1, 2, 5, 6] else [1, 2, 3, 4, 5]).contains m.destKind
    && (m.destKind != 2 || boughValid c m.dest)
    && (m.destKind != 3 || (decide (m.dest < 64) && portOn c d m.dest))
    && (m.destKind != 4 || (decide (m.dest < 64) && groupMask c m.dest ≠ 0))

/-- The groves that a packet for a slice flow is bound for. -/
def flowGroves (c : Cfg) (f : Nat) : List Nat := (flowDests c f).map (sliceGrove c)

/-- The groves of a unicast BOUGH destination and of a slice flow. -/
def destGroves (c : Cfg) (m : Merged) : List Nat :=
  if m.destKind = 2 ∧ m.dest / 8 < mcBase then ((standOfBough c (m.dest / 8)).map groveOf).toList
  else if m.destKind = 6 then flowGroves c (m.dest % 256)
  else []

/-- Every destination grove lies in a parked quadrant (R19). -/
def allParked (d : Dev) (gs : List Nat) : Bool := !gs.isEmpty && gs.all (groveParked d)

/-- An upstream packet may go to a bough (R183): that of another stand with the same non-zero lsg. -/
def isoOk (c : Cfg) (i q : Nat) : Bool :=
  match (if q / 8 < mcBase then standOfBough c (q / 8) else none) with
  | some j => j != i && lsgOf c i ≠ 0 && lsgOf c i == lsgOf c j
  | none => false

/-- The drop of a pass without a valid destination (R290, R292): none where every check passes. -/
def resolveDrop (c : Cfg) (d : Dev) (p : Nat) (pkt : PipePkt) (m : Merged) : Option (Fam × Ctr × Nat) :=
  if m.destKind = 0 then some (.device, .noDest, p)
  else if !(destValid c d p m) then some (.device, .destInvalid, p)
  else if allParked d (destGroves c m) then some (.device, .parkedDrop, p)
  else if 16 ≤ p ∧ m.destKind = 2 ∧ isoOk c pkt.a m.dest = false then some (.stand, .isoDrop, pkt.a)
  else if m.destKind = 1 then some (.device, .actionDrop, p)
  else none

/-- The RoE header of a packet (R266): subType, flowID, orderInfo, and the bytes behind it. -/
def roeOf (c : Cfg) (bs : List Byte) : Option (Nat × Nat × Nat × List Byte) :=
  let t := tagCount c bs
  let o := 14 + 4 * t
  if t ≤ 1 ∧ etherType c bs = 0xFC3D ∧ o + 8 ≤ bs.length then
    some (numAt bs o 1, numAt bs (o + 1) 1, numAt bs (o + 4) 4, (bs.drop (o + 8)).take (numAt bs (o + 2) 2))
  else none

/-- Give a packet to a flow (R266, R268, R292): one of another kind is dropped. -/
def toFlow (c : Cfg) (f : Nat) (pkt : PipePkt) (d : Dev) : Adm :=
  match roeOf c pkt.bytes with
  | some (sub, _, seq, body) =>
    if sub = Config.roeSubType then (none, flowPacketRx c f seq pkt.tick pkt.stamp body d) else dropAs .flow .roeUnsupported f d
  | none => dropAs .flow .roeUnsupported f d

/-- The flow that takes a packet at its port (R268). -/
def flowOfPkt (c : Cfg) (pkt : PipePkt) : Option Nat :=
  if pkt.kind == .uplink then
    match roeOf c pkt.bytes with
    | some (_, id, _, _) =>
      (enabledFlows c).find? (fun f => c.get Fields.SLC_FL_CTRL_port f == pkt.b && c.get Fields.SLC_FL_PKT_rx_flow_id f == id && !(flowDests c f).isEmpty)
    | none => none
  else none

/-- Slots of a flood's further copies (R293): each holds the admission path for a clock. -/
def floodSlots (c : Cfg) (p n : Nat) (d : Dev) : Dev :=
  if n = 0 then d
  else if (d.pipe p).ingress.isEmpty && (d.pipe p).recirc.isEmpty then slotClass c p .frontStarved n d
  else slotClass c p .backStarved n d

/-- A resolved packet goes where its destination says (R292, R293): its bytes have been edited and metered. -/
def deliver (c : Cfg) (p : Nat) (pkt : PipePkt) (m : Merged) (col : Colour) (bs : List Byte) (d : Dev) : Adm :=
  let stamp := if pkt.kind == .stand then some pkt.stamp else none
  match m.destKind with
  | 2 => admitBough c p m.dest col bs d
  | 3 => admitPort c p m.dest col bs stamp d
  | 4 => admitGroup c p m.dest pkt.hash col bs stamp d
  | 5 =>
    let xs := floodCopies c pkt m.dest
    if xs.isEmpty then dropAs .device .floodEmpty p d
    else
      let r := admitCopies c p col bs stamp xs false none d
      (r.1, floodSlots c p (xs.length - 1) r.2)
  | _ => toFlow c (m.dest % 256) { pkt with bytes := bs } d

/-- Resolve, edit, meter and let in (R292, R386). -/
def resolvePass (c : Cfg) (p : Nat) (s : Parsed) (m : Merged) (d : Dev) : Adm :=
  match resolveDrop c d p s.pkt m with
  | some (f, x, i) => dropAs f x i d
  | none =>
    let (bs, d) := editPacket c s.pkt s.tags (if m.destKind = 2 then some (m.dest / 8) else none) m.edit m.pcp d
    let (col, bs, dropped, d) := meterPacket c m.policer bs d
    if dropped then (some .polRedDrop, d) else deliver c p s.pkt m col bs d

/-! ### The end of a pass -/

/-- The record of a pass that has ended. -/
def passRec (d : Dev) (s : Parsed) (outcome dest : Nat) (drop : Option Ctr) : PassRec :=
  { second := s.second, outcome := outcome, dest := dest, drop := drop, md := s.md, hash := s.pkt.hash, bytes := padTo 64 s.pkt.bytes
    tick := d.sfc, clock := d.clock }

/-- A pass with its merged result (R291, R292): recirculated, delivered or dropped. The result of a packet whose tag has failed is discarded (R302). -/
def mergedPass (c : Cfg) (p : Nat) (s : Parsed) (m : Merged) (d : Dev) : Dev :=
  let ends := fun (d : Dev) (x : SlotClass) (o : Nat) (r : Option Ctr) => passEnds c p x (passRec d s o m.destKind r) d
  if s.pkt.tagOk = false then ends d .wastedDrop 2 (some .tagFail)
  else if m.destKind = 7 then
    if s.second then ends (d.count .device .recircExcess p) .wastedDrop 2 (some .recircExcess)
    else if (d.pipe p).recirc.length < 8192 then
      let bs := s.pkt.bytes.take m.strip.1 ++ s.pkt.bytes.drop (m.strip.1 + m.strip.2)
      ends (d.updPipe p (fun x => { x with recirc := x.recirc ++ [{ s.pkt with bytes := bs }] })) .wastedRecirc 1 none
    else ends (d.count .device .recircFull p) .wastedDrop 2 (some .recircFull)
  else
    match resolvePass c p s m d with
    | (none, d) => ends d .retired 0 none
    | (some r, d) => ends d .wastedDrop 2 (some r)

/-- The lookups of a parsed pass with the ring's answers so far: the pass ends, or waits for the ring (R326). -/
def lookupPass (c : Cfg) (p : Nat) (s : Parsed) (answers : List (Option RingHit)) (d : Dev) : Dev :=
  match runSlots c d s [0, 1, 2] answers Merged.init none 0 with
  | .ring k => (d.updPipe p (fun x => { x with wait := some { pass := s, answers := answers, since := d.now } })).emit (.ringKey k)
  | .done m dom locals =>
    let d := d.updPipe p (fun x => { x with wait := none })
    let d := d.count .device .casLocal 0 locals
    let d := match dom with | some v => if s.pkt.tagOk then learnPass c p v s.pkt d else d | none => d
    mergedPass c p s m d

/-- Start a pass: parse it, and run its lookups. A packet that a slice flow takes at its port needs none, and asks the fragment table nothing. -/
def startPass (c : Cfg) (p : Nat) (second : Bool) (pkt : PipePkt) (d : Dev) : Dev :=
  match (if second then none else flowOfPkt c pkt) with
  | some f =>
    let s := parsedOf c second pkt (netLayer c pkt.bank (passProfile c second pkt) pkt.bytes) none
    match (if allParked d (flowGroves c f) then dropAs .device .parkedDrop p d else toFlow c f pkt d) with
    | (none, d) => passEnds c p .retired (passRec d s 0 6 none) d
    | (some r, d) => passEnds c p .wastedDrop (passRec d s 2 6 (some r)) d
  | none =>
    match parsePass c p second pkt d with
    | (s, true, d) => passEnds c p .wastedDrop (passRec d s 2 0 (some .fragMissDrop)) d
    | (s, false, d) => lookupPass c p s [] d

/-- A pipeline works: its quadrant is not parked (R19, R494). -/
def pipeRuns (d : Dev) (p : Nat) : Bool := d.running && !((d.get Fields.CLK_PWR_STAT_parked 0).testBit (p % 16 / 4))

/-- The ring's answer reaches the pass that waits for it (R327). -/
def resumePass (c : Cfg) (p : Nat) (w : CasWait) (r : Option RingHit) (d : Dev) : Dev := lookupPass c p w.pass (w.answers ++ [r]) d

/-- The bank in force (R294). -/
def activeBank (c : Cfg) : Nat := c.get Fields.PIPE_RS_CTRL_active 0

/-- The first pass of the packet at the head of a pipeline's ingress buffer (R278, R294): none starts while a second pass waits (R23). Where a pass of the pipeline waits for the cascade ring, the ring's
answer, if it has come, ends that one. A pipeline with nothing to issue is front-starved. -/
def packetPass (c : Cfg) (p : Nat) (inp : PassIn) (d : Dev) : Dev :=
  if pipeRuns d p then
    match (d.pipe p).wait, (d.pipe p).ingress with
    | some w, _ => match inp.ring with | some r => resumePass c p w r d | none => d
    | none, pkt :: rest =>
      if (d.pipe p).recirc.isEmpty = false then d
      else
      let d := slotClass c p .wastedReplay inp.replays d
      let d := (d.updPipe p (fun x => { x with ingress := rest })).count .device .pktsFirst p
      let d := startPass c p false { pkt with bank := activeBank c } d
      match (d.pipe p).wait, inp.ring with
      | some w, some r => resumePass c p w r d
      | _, _ => d
    | none, [] => if (d.pipe p).recirc.isEmpty then slotClass c p .frontStarved 1 d else d
  else d

/-- PACKET_PASS. -/
def execPacketPass (p : Fin 32) (inp : PassIn) (s : State) : Outcome := onDev (fun c d => packetPass c p inp d) s

/-- The second pass of the packet at the head of a pipeline's recirculation queue (R291). -/
def recircPass (c : Cfg) (p : Nat) (inp : PassIn) (d : Dev) : Dev :=
  if pipeRuns d p then
    match (d.pipe p).wait, (d.pipe p).recirc with
    | none, pkt :: rest =>
      let d := slotClass c p .wastedReplay inp.replays d
      let d := (d.updPipe p (fun x => { x with recirc := rest })).count .device .pktsSecond p
      let d := startPass c p true pkt d
      match (d.pipe p).wait, inp.ring with
      | some w, some r => resumePass c p w r d
      | _, _ => d
    | _, _ => d
  else d

/-- RECIRC_PASS. -/
def execRecircPass (p : Fin 32) (inp : PassIn) (s : State) : Outcome := onDev (fun c d => recircPass c p inp d) s

/-- CASCADE_TIMEOUT: the ring's result has not returned within cas_timeout core clocks, and the lookup takes the local result (R328). A parked pipeline is
stopped (R19). -/
def cascadeTimeout (c : Cfg) (p : Nat) (d : Dev) : Dev :=
  match (if pipeRuns d p then (d.pipe p).wait else none) with
  | some w =>
    if w.since + c.get Fields.ASC_CAS_TIMEOUT_cas_timeout 0 ≤ d.now then resumePass c p w none (d.count .device .casTimeout 0) else d
  | none => d

/-- CASCADE_TIMEOUT. -/
def execCascadeTimeout (p : Fin 32) (s : State) : Outcome := onDev (fun c d => cascadeTimeout c p d) s

/-! ### The rule-set banks (R294, R295) -/

/-- A pipeline holds a packet stamped with a bank. -/
def pipeHolds (x : PipeSt) (bank : Nat) : Bool :=
  x.recirc.any (fun k => k.bank == bank) || (match x.wait with | some w => w.pass.pkt.bank == bank | none => false)

/-- BANK_DRAIN: no packet stamped with the swapped-out bank remains (R295); the bank becomes writable at the next edge. -/
def bankDrain (c : Cfg) (d : Dev) : Dev :=
  if d.flag Fields.PIPE_RS_STATUS_draining 0 && !(d.pipes.any (fun x => pipeHolds x.2 (1 - activeBank c))) then
    d.set Fields.PIPE_RS_STATUS_draining 0 0
  else d

/-- BANK_DRAIN. -/
def execBankDrain (s : State) : Outcome := onDev bankDrain s

/-! ### The sample record (R596, R597, R601) -/

/-- The words of a sample record. -/
def sampleWords (ev skid seq item : Nat) (r : PassRec) : List Nat :=
  [seq % 65536 * 65536 + ev * 256 + skid, r.tick % 2 ^ 32, r.clock % 2 ^ 18,
   r.second.toNat * 2 ^ 30 + r.outcome * 2 ^ 28 + r.dest * 2 ^ 25 + item % 4096, numAt r.md 0 4, numAt r.md 4 4, r.hash, 0]
    ++ (List.range 16).map (fun k => numAt r.bytes (4 * k) 4)

/-- SAMPLE_RECORD: the armed sampler records its pass, or loses the record where its buffer is full. -/
def sampleRecord (c : Cfg) (p : Nat) (d : Dev) : Dev :=
  let x := d.sampler p
  match x.armed, (d.pipe p).last with
  | some skid, some r =>
    if pipeRuns d p = false then d
    else
    let item := match r.drop with | some k => Config.dropItem k.ctorIdx p | none => 0
    let rec_ := sampleWords (c.get Fields.CNT_SMP_CTRL_smp_event p) skid x.seq item r
    let d := d.updPipe p (fun y => { y with last := none })
    if x.recs.length < 16 then
      ({ d with samplers := d.samplers.put p { x with armed := none, recs := x.recs ++ [rec_], seq := (x.seq + 1) % 65536 } }).count
        .device .samplesTaken p
    else ({ d with samplers := d.samplers.put p { x with armed := none, seq := (x.seq + 1) % 65536 } }).count .device .sampleLost p
  | _, _ => d

/-- SAMPLE_RECORD. -/
def execSampleRecord (p : Fin 32) (s : State) : Outcome := onDev (fun c d => sampleRecord c p d) s

end Sys2Proof.Machine
end

