-- ==== Sys2Proof/Machine/Uplink.lean ====
section
/-!
DEFINITION. Uplink ports (spec files 16 and 19): received frames, their checks and stamps (R534, R463), recognition and capture of PTP event messages (R464, R465),
the distribution to pipelines (R15, R17), and the sending of injected messages, flow packets and queued packets with their edits (R385, R466 to R468, R472).
-/

namespace Sys2Proof.Machine

/-! ### PTP event messages (R464) -/

/-- Where a recognised event message begins, and its UDP checksum's place with whether the packet is IPv4. -/
structure PtpAt where
  off : Nat
  udp : Option (Nat × Bool)
  deriving DecidableEq, Repr

/-- The place of a PTP message in one of the three forms, before its own fields are checked. -/
def ptpPlace (c : Cfg) (bs : List Byte) : Option PtpAt :=
  let o := 14 + 4 * tagCount c bs
  let et := etherType c bs
  if et = 0x88F7 then some { off := o, udp := none }
  else if et = 0x0800 ∧ numAt bs o 1 % 16 = 5 ∧ numAt bs (o + 6) 2 % 16384 = 0 ∧ numAt bs (o + 9) 1 = 17 ∧ numAt bs (o + 22) 2 = 319 then
    some { off := o + 28, udp := some (o + 26, true) }
  else if et = 0x86DD ∧ numAt bs (o + 6) 1 = 17 ∧ numAt bs (o + 42) 2 = 319 then some { off := o + 48, udp := some (o + 46, false) }
  else none

/-- A recognised event message: versionPTP 2 and messageType 0 to 3. -/
def ptpEvent (c : Cfg) (bs : List Byte) : Option PtpAt :=
  match ptpPlace c bs with
  | some x => if numAt bs (x.off + 1) 1 % 16 = 2 ∧ numAt bs x.off 1 % 16 ≤ 3 then some x else none
  | none => none

/-- The record of a message (R465). -/
def capRec (bs : List Byte) (off time port : Nat) (egress : Bool) : CapRec :=
  { time := time, port := port, egress := egress, ty := numAt bs off 1 % 16, dom := numAt bs (off + 4) 1, seq := numAt bs (off + 30) 2
    src := bytesAt bs (off + 20) 10 }

/-- Write a capture record, if the lane captures (R465). -/
def capture (c : Cfg) (lane : Nat) (r : CapRec) (d : Dev) : Dev :=
  if c.flag Fields.TIME_LANE_CTRL_cap_en lane then
    if d.caps.length < 1024 then ({ d with caps := d.caps ++ [r] }).count .device .capRecords 0 else d.count .device .capOverflow 0
  else d

/-! ### Reception (R534, R463, R459) -/

/-- The watchdog of a domain. -/
def syncTimer (x : Nat) : TimerKind := if x = 0 then .syncA else .syncB

/-- A Sync message is an arrival for the domains that expect it on this port (R459). -/
def syncArrives (c : Cfg) (lane dom : Nat) (d : Dev) : Dev :=
  [0, 1].foldl (fun d x =>
    if c.flag Fields.TIME_X_SRC_src_en x && c.get Fields.TIME_X_SRC_src_port x == lane && c.get Fields.TIME_X_SRC_ptp_dom x == dom
    then (d.arrive (syncTimer x) 0).count .device .syncRx x else d) d

/-- The pipeline of a packet of a port (R15, R17): an 8-lane port chooses between its two by the symmetric hash. -/
def ingressPipe (c : Cfg) (lane : Nat) (bs : List Byte) : Nat :=
  if c.get Fields.LANE_UP_CFG_width lane = 3 then lane / 4 + hashPick (symHash c bs) 2 else lane / 4

/-- UPLINK_FRAME_RX: a frame received on the port of a first lane, without its FCS, with the result of the FCS check (R532, R534, R535). -/
def uplinkFrameRx (c : Cfg) (lane : Nat) (bs : List Byte) (fcsOk : Bool) (d : Dev) : Dev :=
  if d.running && portOn c d lane && linkUp d lane then
    if bs.length + 4 < 64 then d.count .device .rxFramesRunt lane
    else if 16356 < bs.length + 4 then d.count .device .rxFramesOversize lane
    else if fcsOk = false then d.count .device .rxFcsErr lane
    else if numAt bs 12 2 = 0x8808 ∧ (numAt bs 14 2 = 1 ∨ numAt bs 14 2 = 0x101) then d.count .device .pauseRx lane
    else
      let stamp := ingressStamp c lane d
      let d := match ptpEvent c bs with
        | some x =>
          let r := capRec bs x.off stamp lane false
          let d := capture c lane r d
          if r.ty = 0 then syncArrives c lane r.dom d else d
        | none => d
      let p := ingressPipe c lane bs
      enterPipe p { kind := .uplink, bytes := bs, a := lane + 4 * (p - lane / 4), b := lane, tick := d.sfc, clock := d.clock, stamp := stamp
                    bank := 0, hash := 0, tagOk := true } d
  else d

/-- UPLINK_FRAME_RX. -/
def execUplinkFrameRx (lane : Fin 64) (bytes : List Byte) (fcsOk : Bool) (s : State) : Outcome :=
  onDev (fun c d => uplinkFrameRx c lane bytes fcsOk d) s

/-! ### Edits of departing event messages (R467, R468) -/

/-- One's complement addition of 16-bit words. -/
def onesAdd (a b : Nat) : Nat := (a + b) % 65536 + (a + b) / 65536

/-- The 16-bit words of an even number of bytes. -/
def words16 : Nat → List Byte → List Nat
  | 0, _ => []
  | n + 1, bs => numAt bs 0 2 :: words16 n (bs.drop 2)

/-- The checksum update of RFC 1624: HC' = ~(~HC + ~m + m'). -/
def checksumEdit (hc : Nat) (old new : List Nat) : Nat :=
  65535 - (List.zip old new).foldl (fun a p => onesAdd (onesAdd a (65535 - p.1)) p.2) (65535 - hc)

/-- Replace an even number of bytes at an offset and keep the UDP checksum right (R468). -/
def editBytes (udp : Option (Nat × Bool)) (off : Nat) (new bs : List Byte) : List Byte :=
  let n := new.length / 2
  let old := bytesAt bs off new.length
  let bs' := pasteAt bs off new
  match udp with
  | some (u, v4) =>
    let hc := numAt bs u 2
    if v4 ∧ hc = 0 then bs'
    else
      let r := checksumEdit hc (words16 n old) (words16 n new)
      pasteAt bs' u (toBytesBE 2 (if r = 0 then 65535 else r))
  | none => bs'

/-- Add to the correction field, saturating (R467): the packet, and whether it saturated. -/
def addCorrection (x : PtpAt) (inc : Int) (bs : List Byte) : List Byte × Bool :=
  let v := signed 64 (numAt bs (x.off + 8) 8) + inc
  let sat := decide (0x7FFFFFFFFFFFFFFF < v)
  let w : Int := if sat then 0x7FFFFFFFFFFFFFFF else v
  (editBytes x.udp (x.off + 8) (toBytesBE 8 (w % 2 ^ 64).toNat) bs, sat)

/-- One-step insertion: the originTimestamp takes E, and f of E joins the correction field (R456, R467). -/
def oneStep (c : Cfg) (lane e : Nat) (bs : List Byte) (d : Dev) : List Byte × Dev :=
  match ptpEvent c bs with
  | some x =>
    if (d.dom d.served).set then
      let ts := toBytesBE 6 (timeSec e % 2 ^ 48) ++ toBytesBE 4 (timeNs e)
      let (bs, sat) := addCorrection x (timeFrac e) (editBytes x.udp (x.off + 34) ts bs)
      let d := d.count .device .onestepEdits lane
      (bs, if sat then d.count .device .tcSaturate lane else d)
    else (bs, d)
  | none => (bs, d)

/-- The residence correction of an upstream stand packet (R467). -/
def residence (c : Cfg) (lane e : Nat) (stamp : Option Nat) (bs : List Byte) (d : Dev) : List Byte × Dev :=
  match stamp, ptpEvent c bs with
  | some i, some x =>
    if c.flag Fields.TIME_LANE_CTRL_tc_en lane then
      let (bs, sat) := addCorrection x (((e : Int) - i) * 65536 / (nsUnits : Int)) bs
      let d := d.count .device .tcEdits lane
      (bs, if sat then d.count .device .tcSaturate lane else d)
    else (bs, d)
  | _, _ => (bs, d)

/-! ### Sending (R385, R466, R472) -/

/-- Core clocks that a packet takes to leave a port of so many lanes: 200 Gbit/s a lane (R532), with the 8 bytes before the packet that IEEE 802.3 adds
(PRESUMED, log 60). -/
def sendClocks (lanes bytes : Nat) : Nat := (3 * (bytes + 8) + 50 * lanes - 1) / (50 * lanes)

/-- A packet leaves a port with its FCS (R276); from now on until its last byte it can be cut off (R550). -/
def sendOut (c : Cfg) (lane : Nat) (bs : List Byte) (d : Dev) : Dev :=
  let n := sendClocks (2 ^ c.get Fields.LANE_UP_CFG_width lane) (bs.length + 4)
  { d with outgoing := d.outgoing.put lane (d.now + n) }.emit (.uplink lane (withFcs bs))

/-- The injected message leaves (R466, R467). -/
def sendInjected (c : Cfg) (lane : Nat) (m : TxMsg) (d : Dev) : Dev :=
  let e := egressStamp c lane d
  let (bs, d) := if m.onestep then oneStep c lane e m.bytes d else (m.bytes, d)
  let off := match ptpPlace c m.bytes with | some x => x.off | none => 14 + 4 * tagCount c m.bytes
  let d := capture c lane (capRec m.bytes off e lane true) d
  (sendOut c lane bs { d with txMsg := none }).count .device .txSent 0

/-- A flow packet leaves: the first packet of a slice frame is stamped (R267, R472). -/
def sendFlow (c : Cfg) (lane : Nat) (p : QPkt) (rest : List QPkt) (d : Dev) : Dev :=
  let e := egressStamp c lane d
  let d := d.setQueue (flowQueue lane) { d.queue (flowQueue lane) with head := rest }
  let d := match p.flow with
    | some (f, k, 0) => ((d.set Fields.TIME_FL_TX_FRAME_frame f (k % 2 ^ 24)).set Fields.TIME_FL_TX_SEC_sec f (timeSec e % 2 ^ 32)).set
        Fields.TIME_FL_TX_NS_ns f (timeNs e)
    | _ => d
  let d := match p.flow with | some (f, _) => d.count .flow .pktsTx f | none => d
  sendOut c lane p.bytes d

/-- A queued packet leaves: its buffer is freed. -/
def sendQueued (c : Cfg) (lane q : Nat) (p : QPkt) (rest : List QPkt) (d : Dev) : Dev :=
  let (bs, d) := residence c lane (egressStamp c lane d) p.stamp p.bytes d
  let d := (d.freePkt 0 srcEgress p).setQueue q { d.queue q with head := rest }.join
  sendOut c lane bs d

/-- The first class of a port with a packet in its head segment. -/
def firstClass (d : Dev) (lane : Nat) : Option Nat := (List.range 8).find? (fun k => !((d.queue (upQueue lane k)).head.isEmpty))

/-- UPLINK_PACKET_TX: the port of a first lane sends what is next: the injected message, the flow packets, then its queues in ascending class. An injected
message whose port is down is discarded. -/
def uplinkPacketTx (c : Cfg) (lane : Nat) (d : Dev) : Dev :=
  if d.running then
    match (d.txMsg.filter (fun m => m.port == lane)) with
    | some m => if portOn c d lane && linkUp d lane then sendInjected c lane m d else { d with txMsg := none }.count .device .txLost 0
    | none =>
      if portOn c d lane && linkUp d lane then
        match (d.queue (flowQueue lane)).head, firstClass d lane with
        | p :: rest, _ => sendFlow c lane p rest d
        | [], some k =>
          match (d.queue (upQueue lane k)).head with
          | p :: rest => sendQueued c lane (upQueue lane k) p rest d
          | [] => d
        | [], none => d
      else d
  else d

/-- UPLINK_PACKET_TX. -/
def execUplinkPacketTx (lane : Fin 64) (s : State) : Outcome := onDev (fun c d => uplinkPacketTx c lane d) s

end Sys2Proof.Machine
end

