-- ==== Sys2Proof/Machine/Tables.lean ====
section
/-!
DEFINITION. The tables of spec file 11 as they change: learning, stash returns and aging (R309 to R312, R317), locks (R316 to R318), insertion and deletion
of routes (R325), the associative memory (R320, R321), and the table descriptors (R313 to R315).
-/

namespace Sys2Proof

/-! ### The words of a descriptor (R314) -/

/-- Word `k` of a descriptor. -/
def Desc.word (x : Desc) (k : Nat) : Nat := x.words.getD k 0 % 2 ^ 32
/-- The operation: word 0, bits 31:28. -/
def Desc.op (x : Desc) : Nat := x.word 0 / 2 ^ 28
/-- The table: word 0, bits 27:24. -/
def Desc.table (x : Desc) : Nat := x.word 0 / 2 ^ 24 % 16
/-- The number of records: word 0, bits 15:0. -/
def Desc.count (x : Desc) : Nat := x.word 0 % 2 ^ 16
/-- Completion raises the ring's interrupt source: word 1, bit 31. -/
def Desc.intr (x : Desc) : Bool := (x.word 1).testBit 31
/-- The host address of the record buffer: words 2 and 3, the low half first (DEDUCED, log 98). -/
def Desc.buf (x : Desc) : Nat := x.word 3 * 2 ^ 32 + x.word 2
/-- The first position, or the filter: words 4 and 5. -/
def Desc.index (x : Desc) : Nat := x.word 5 * 2 ^ 32 + x.word 4

end Sys2Proof

namespace Sys2Proof.Machine

/-! ### Locks (R316 to R318) -/

/-- The master that holds a table's lock. -/
def Dev.lockOf (d : Dev) (t : Nat) : Option Nat := d.locks.get? t

/-- A table is locked against a master. -/
def lockedFor (d : Dev) (m t : Nat) : Bool := match d.lockOf t with | some o => o != m | none => false

/-- Release a lock. (What the bridging lock holds up stays held until the next commit edge: R317.) -/
def releaseLock (t : Nat) (d : Dev) : Dev := { d with locks := d.locks.erase t }.disarm .lock t

/-- A write of lock = 1 (R316): the watchdog starts at the acquisition, and a write of the owner is an arrival for it (R318). -/
def acquireLock (m t : Nat) (d : Dev) : Status × Dev :=
  match d.lockOf t with
  | none => (.ok, { d with locks := d.locks.put t m, ageHold := d.ageHold || t == 0 }.armNext .lock t)
  | some o => if o = m then (.ok, d.arrive .lock t) else (.locked, d)

/-- A write of lock = 0 (R316). -/
def dropLock (m t : Nat) (d : Dev) : Status × Dev :=
  match d.lockOf t with
  | none => (.ok, d)
  | some o => if o = m then (.ok, releaseLock t d) else (.locked, d)

/-- LOCK_EXPIRED: the watchdog of a held lock has expired (R318). -/
def lockExpired (c : Cfg) (t : Nat) (d : Dev) : Dev :=
  if (d.lockOf t).isSome && d.expired .lock t (c.get Fields.TBL_LOCK_T_lock_ticks t) then
    ((releaseLock t d).count .device .lockExpired 0).raiseBit Fields.INT_DEV_CAUSE_lock_exp 0 t
  else d

/-- LOCK_EXPIRED. -/
def execLockExpired (t : Fin 4) (s : State) : Outcome := onDev (fun c d => lockExpired c t d) s

/-! ### The bridging table (R309 to R312, R317) -/

/-- The lowest free position for a key: a way of its bucket, then the stash (R310). -/
def brFree (c : Cfg) (d : Dev) (key : Nat) : Option Nat :=
  match (List.range 8).find? (fun w => (d.bridge.get? (brBucket c key * 8 + w)).isNone) with
  | some w => some (brBucket c key * 8 + w)
  | none => ((List.range stashSize).find? (fun k => (d.bridge.get? (stashBase + k)).isNone)).map (fun k => stashBase + k)

/-- The action index of a learned source. -/
def learnAct (c : Cfg) (kind : Nat) : Nat :=
  if kind = 1 then c.get Fields.TBL_BR_LEARN_ACT_act_stand 0 else c.get Fields.TBL_BR_LEARN_ACT_act_uplink 0

/-- The learn engine takes a request to the table (R309, R310). -/
def applyLearn (c : Cfg) (r : LearnReq) (d : Dev) : Dev :=
  match brFind c d r.key with
  | some (pos, e) =>
    if e.kind = r.kind ∧ e.val = r.val then d
    else if e.static then d.count .device .staticViolation 0
    else if c.flag Fields.TBL_BR_DOM_move_en (brDomain r.key) then
      ({ d with bridge := d.bridge.put pos { e with kind := r.kind, val := r.val, act := learnAct c r.kind } }).count .device .learnMove 0
    else d.count .device .moveRefused 0
  | none =>
    match brFree c d r.key with
    | some pos =>
      { d with bridge := d.bridge.put pos { key := r.key, static := false, act := learnAct c r.kind, kind := r.kind, val := r.val, age := newTmr } }
    | none => d.count .device .learnFail 0

/-- Requests that the learn engine takes in a tick (R309). -/
def learnBudget : Nat := 12500

/-- The next pipeline with a request, in rotation. -/
def nextLearner (d : Dev) : Option Nat :=
  ((List.range 32).map (fun k => (d.learnPtr + k) % 32)).find? (fun p => !((d.pipe p).learn.isEmpty))

/-- A request goes to the deferred queue: the bridging lock is held, or requests wait there (R317). -/
def learnDeferred (d : Dev) : Bool := (d.lockOf 0).isSome || !d.deferred.isEmpty

/-- LEARN_ENGINE: the engine takes the next request; while the bridging lock is held, or the deferred queue is not empty, it goes there (R309, R317,
R331). What joins the deferred queue takes nothing of the 12,500 requests that the table takes in a tick. -/
def learnEngine (c : Cfg) (d : Dev) : Dev :=
  if d.running && decide (d.usedOf usedLearn < learnBudget) && (learnDeferred d || decide (d.usedOf usedTable < learnBudget)) then
    match nextLearner d with
    | some p =>
      match (d.pipe p).learn with
      | r :: rest =>
        let defer := learnDeferred d
        let d : Dev := { (d.updPipe p (fun x => { x with learn := rest })).use usedLearn 1 with learnPtr := (p + 1) % 32 }
        if defer then
          if d.deferred.length < 65536 then { d with deferred := d.deferred ++ [r] } else d.count .device .deferOverflow 0
        else applyLearn c r (d.use usedTable 1)
      | [] => d
    | none => d
  else d

/-- LEARN_ENGINE. -/
def execLearnEngine (s : State) : Outcome := onDev learnEngine s

/-- DEFERRED_DRAIN: after the release of the bridging lock, the deferred queue reaches the table in order (R317). -/
def deferredDrain (c : Cfg) (d : Dev) : Dev :=
  if d.running && (d.lockOf 0).isNone && decide (d.usedOf usedTable < learnBudget) then
    match d.deferred with
    | r :: rest => applyLearn c r ({ d with deferred := rest }.use usedTable 1)
    | [] => d
  else d

/-- DEFERRED_DRAIN. -/
def execDeferredDrain (s : State) : Outcome := onDev deferredDrain s

/-- STASH_RETURN: a freed way takes the lowest stash entry of its bucket (R311, R317, R321). -/
def stashReturn (c : Cfg) (bucket : Nat) (d : Dev) : Dev :=
  if (d.lockOf 0).isSome then d
  else
    match (List.range 8).find? (fun w => (d.bridge.get? (bucket * 8 + w)).isNone),
      d.bridge.find? (fun p => decide (stashBase ≤ p.1) && brBucket c p.2.key == bucket) with
    | some w, some p => ({ d with bridge := (d.bridge.put (bucket * 8 + w) p.2).erase p.1 }).count .device .stashReturn 0
    | _, _ => d

/-- STASH_RETURN. -/
def execStashReturn (bucket : Fin 262144) (s : State) : Outcome := onDev (fun c d => stashReturn c bucket d) s

/-- BRIDGE_AGED: a non-static entry whose watchdog has expired is removed, unless the bridging lock is held or no commit edge has passed since its
release (R312, R317). -/
def bridgeAged (c : Cfg) (pos : Nat) (d : Dev) : Dev :=
  match d.bridge.get? pos with
  | some e =>
    if !e.static && (d.lockOf 0).isNone && !d.ageHold && e.age.expired (c.get Fields.TBL_BR_AGE_age_ticks 0) then
      ({ d with bridge := d.bridge.erase pos }).count .device .aged 0
    else d
  | none => d

/-- BRIDGE_AGED. -/
def execBridgeAged (pos : Fin 2101248) (s : State) : Outcome := onDev (fun c d => bridgeAged c pos d) s

/-- A bough lies in a VF's range (R565); only VFs are scoped. -/
def boughInScope (c : Cfg) (m b : Nat) : Bool :=
  m == 0 || decide (15 < m) || (c.flag Fields.ACC_VF_CTRL_bough_en (m - 1) && decide (c.get Fields.ACC_VF_BOUGH_first (m - 1) ≤ b ∧ b ≤ c.get Fields.ACC_VF_BOUGH_last (m - 1)))

/-- A WRITE of a bridging record (R315): insert, update in place, or remove where the record says that it is not valid. -/
def brWrite (c : Cfg) (m key : Nat) (valid static : Bool) (kind act val : Nat) (d : Dev) : Status × Dev :=
  let key := brKeyOf (toBytesBE 8 key)
  if 2 < kind then (.badValue, d)
  else if kind = 1 ∧ boughInScope c m val = false then (.denied, d)
  else
    match brFind c d key with
    | some (pos, e) =>
      if valid then
        let age := if e.static && !static then newTmr else e.age
        (.ok, { d with bridge := d.bridge.put pos { key := key, static := static, act := act, kind := kind, val := val, age := age } })
      else (.ok, { d with bridge := d.bridge.erase pos })
    | none =>
      if valid then
        match brFree c d key with
        | some pos => (.ok, { d with bridge := d.bridge.put pos { key := key, static := static, act := act, kind := kind, val := val, age := newTmr } })
        | none => (.noRoom, d)
      else (.ok, d)

/-- A DELETE of a bridging key. -/
def brDelete (c : Cfg) (key : Nat) (d : Dev) : Status × Dev :=
  match brFind c d (brKeyOf (toBytesBE 8 key)) with
  | some (pos, _) => (.ok, { d with bridge := d.bridge.erase pos })
  | none => (.ok, d)

/-- FLUSH (R315): every non-static entry with the override of the index word goes. -/
def brFlush (index : Nat) (d : Dev) : Dev :=
  { d with bridge := d.bridge.filter (fun p => p.2.static || !(p.2.kind == bitsOf index 16 2 && p.2.val == bitsOf index 0 16)) }

/-! ### LPM insertion and deletion (R325) -/

/-- A zone with its first route moved behind its last. -/
def rotateUp : List Route → List Route
  | [] => []
  | r :: rs => rs ++ [r]

/-- A zone with its last route moved before its first. -/
def rotateDown (rs : List Route) : List Route :=
  match rs.getLast? with
  | some r => r :: rs.dropLast
  | none => []

/-- The zone of a length. -/
def zone (rs : List Route) (len : Nat) : List Route := rs.filter (fun r => r.len == len)

/-- The zones below a length, longest first, each changed by `f`. -/
def zonesBelow (f : List Route → List Route) (rs : List Route) : Nat → List Route
  | 0 => []
  | n + 1 => f (zone rs n) ++ zonesBelow f rs n

/-- Insert a route at the end of its zone: each shorter zone gives its first route's position up (R325). -/
def lpmInsert (rs : List Route) (r : Route) : List Route :=
  rs.filter (fun x => decide (r.len ≤ x.len)) ++ [r] ++ zonesBelow rotateUp rs r.len

/-- Remove a route: the last route of its zone fills the hole, and the gap moves through the shorter zones to the free block (R325). -/
def lpmRemove (rs : List Route) (r : Route) : List Route :=
  let z := zone rs r.len
  let z' := match z.getLast? with
    | some l => if l = r then z.dropLast else (z.dropLast).map (fun x => if x = r then l else x)
    | none => []
  rs.filter (fun x => decide (r.len < x.len)) ++ z' ++ zonesBelow rotateDown rs r.len

/-- A prefix is well formed in a table of `w` bits (R315). -/
def prefixOk (w pfx len : Nat) : Bool := decide (len ≤ w) && decide (pfx < 2 ^ w) && pfx % 2 ^ (w - len) == 0

/-- A WRITE of a route into a table of `w` bits and `cap` positions. -/
def lpmWrite (w cap : Nat) (r : Route) (rs : List Route) : Status × List Route :=
  if prefixOk w r.pfx r.len = false then (.badValue, rs)
  else if rs.any (fun x => x.pfx == r.pfx && x.len == r.len) then
    (.ok, rs.map (fun x => if x.pfx = r.pfx ∧ x.len = r.len then r else x))
  else if cap ≤ rs.length then (.noRoom, rs)
  else (.ok, lpmInsert rs r)

/-- A DELETE of a route. -/
def lpmDelete (w pfx len : Nat) (rs : List Route) : Status × List Route :=
  if prefixOk w pfx len = false then (.badValue, rs)
  else
    match rs.find? (fun x => x.pfx == pfx && x.len == len) with
    | some r => (.ok, lpmRemove rs r)
    | none => (.ok, rs)

/-! ### The associative memory as it changes (R320, R321, R323) -/

/-- The width at a position: none where the position is no start of an entry. -/
def ascPos (c : Cfg) (pos : Nat) : Option Nat := if pos < 2 ^ 20 then ascWidthAt c (pos / 4096) else none

/-- An entry that has not been written. -/
def ascEmpty (width : Nat) : AscEntry := { width := width, value := 0, mask := 0, side := 0 }

/-- The entry at a position. -/
def Dev.ascAt (d : Dev) (width pos : Nat) : AscEntry := d.asc.getD pos (ascEmpty width)

/-- A written entry. -/
def ascOf (width value mask side : Nat) : AscEntry :=
  { width := width, value := value % 2 ^ (64 * ascGroup width), mask := mask % 2 ^ (64 * ascGroup width), side := side &&& 0x8F003FFF }

/-- Write an entry. -/
def ascPut (pos : Nat) (e : AscEntry) (d : Dev) : Dev := { d with asc := d.asc.put pos e }

/-- Invalidate an entry. -/
def ascInvalidate (width pos : Nat) (d : Dev) : Dev :=
  let e := d.ascAt width pos
  if e.valid then ascPut pos { e with side := e.side - 2 ^ 31 } d else d

/-- The position after one in search order within a run of groups of a width. -/
def ascNext (c : Cfg) (width pos : Nat) : Option Nat :=
  if pos % 4096 + 1 < 4096 then some (pos + 1)
  else
    let b := pos / 4096 + ascGroup width
    if b < 256 ∧ ascWidthAt c b = some width then some (b * 4096) else none

/-- The positions from one to the first invalid entry after it, highest first; none where the run holds no invalid entry after it. -/
def ascChain (c : Cfg) (d : Dev) (width : Nat) : Nat → Nat → List Nat → Option (List Nat)
  | 0, _, _ => none
  | n + 1, pos, acc =>
    match ascNext c width pos with
    | none => none
    | some q => if (d.ascAt width q).valid then ascChain c d width n q (q :: acc) else some (q :: acc)

/-- Move every entry of a chain one step upward, highest first. -/
def ascShift (width : Nat) : List Nat → Dev → Dev
  | q :: p :: rest, d => ascShift width (p :: rest) (ascPut q (d.ascAt width p) d)
  | _, d => d

/-- INSERT_BEFORE (R320). -/
def ascInsert (c : Cfg) (pos value mask side : Nat) (d : Dev) : Status × Dev :=
  match ascPos c pos with
  | none => (.badIndex, d)
  | some w =>
    match ascChain c d w (2 ^ 20) pos [pos] with
    | none => (.noRoom, d)
    | some chain => (.ok, ascPut pos (ascOf w value mask side) (ascShift w chain d))

/-- A WRITE of an entry (R315, R323). -/
def ascWrite (c : Cfg) (pos value mask side : Nat) (d : Dev) : Status × Dev :=
  match ascPos c pos with
  | none => (.badIndex, d)
  | some w => (.ok, ascPut pos (ascOf w value mask side) d)

/-- A DELETE of an entry. -/
def ascDelete (c : Cfg) (pos : Nat) (d : Dev) : Status × Dev :=
  match ascPos c pos with
  | none => (.badIndex, d)
  | some w => (.ok, ascInvalidate w pos d)

/-! ### Table descriptors (R313 to R315) -/

/-- Positions of a table. -/
def tablePositions (t : Nat) : Nat := if t = 0 then 2101248 else if t = 1 then 1048576 else if t = 2 then 524288 else 1048576

/-- The record that is not valid. -/
def noRec : TblRec := .bridge 0 false false 0 0 0

/-- A bridging entry as a record. -/
def BrEntry.rec_ (e : BrEntry) : TblRec := .bridge e.key true e.static e.kind e.act e.val

/-- An entry of the associative memory as a record. -/
def AscEntry.rec_ (e : AscEntry) : TblRec := .asc e.value e.mask e.side

/-- Read the entry at a position (R315): the status, the record and the device. A free position of a route array holds what the spec does not say. -/
def readEntry (c : Cfg) (t pos : Nat) (d : Dev) : Status × TblRec × Dev :=
  if tablePositions t ≤ pos then (.badIndex, noRec, d)
  else
    match t with
    | 0 => (.ok, (match d.bridge.get? pos with | some e => e.rec_ | none => noRec), d)
    | 3 => match ascPos c pos with | some w => (.ok, (d.ascAt w pos).rec_, d) | none => (.badIndex, noRec, d)
    | _ =>
      match (if t = 1 then d.lpm4 else d.lpm6)[pos]? with
      | some r => (.ok, (if t = 1 then .lpm4 r.pfx r.len r.act else .lpm6 r.pfx r.len r.act), d)
      | none =>
        let (x, d) := d.draw (2 ^ (if t = 1 then 32 else 64))
        let (y, d) := d.draw 256
        let (z, d) := d.draw 16384
        (.ok, (if t = 1 then .lpm4 x y z else .lpm6 x y z), d)

/-- Read entries one after the other, up to the first that fails. -/
def readEntries (c : Cfg) (t : Nat) : Nat → Nat → List (Nat × TblRec) → Dev → Status × List (Nat × TblRec) × Dev
  | 0, _, acc, d => (.ok, acc.reverse, d)
  | n + 1, pos, acc, d =>
    match readEntry c t pos d with
    | (.ok, r, d) => readEntries c t n (pos + 1) ((pos, r) :: acc) d
    | (st, _, d) => (st, acc.reverse, d)

/-- Apply a modification to records one after the other, up to the first that fails (R315): status and number processed. -/
def eachRec (f : Nat → TblRec → Dev → Status × Dev) : List TblRec → Nat → Dev → Status × Nat × Dev
  | [], k, d => (.ok, k, d)
  | r :: rs, k, d =>
    match f k r d with
    | (.ok, d) => eachRec f rs (k + 1) d
    | (st, d) => (st, k, d)

/-- A route table with a change applied. -/
def onLpm (t : Nat) (f : List Route → Status × List Route) (d : Dev) : Status × Dev :=
  if t = 1 then let r := f d.lpm4; (r.1, { d with lpm4 := r.2 }) else let r := f d.lpm6; (r.1, { d with lpm6 := r.2 })

/-- WRITE of record `k`. A record of another table's layout is an illegal value. -/
def writeRec (c : Cfg) (m t index k : Nat) (r : TblRec) (d : Dev) : Status × Dev :=
  match t, r with
  | 0, .bridge key valid static kind act val => brWrite c m key valid static kind act val d
  | 1, .lpm4 p l a => onLpm 1 (lpmWrite 32 (tablePositions 1) { pfx := p, len := l, act := a % 16384 }) d
  | 2, .lpm6 p l a => onLpm 2 (lpmWrite 64 (tablePositions 2) { pfx := p, len := l, act := a % 16384 }) d
  | 3, .asc value mask side => ascWrite c (index + k) value mask side d
  | _, _ => (.badValue, d)

/-- DELETE of record `k`. -/
def deleteRec (c : Cfg) (t k index : Nat) (r : TblRec) (d : Dev) : Status × Dev :=
  match t, r with
  | 0, .bridge key _ _ _ _ _ => brDelete c key d
  | 1, .lpm4 p l _ => onLpm 1 (lpmDelete 32 p l) d
  | 2, .lpm6 p l _ => onLpm 2 (lpmDelete 64 p l) d
  | 3, _ => ascDelete c (index + k) d
  | _, _ => (.badValue, d)

/-- The route of a key with its position. -/
def lpmAt (rs : List Route) (pfx len : Nat) : Option (Nat × Route) :=
  ((rs.zipIdx).find? (fun x => x.1.pfx == pfx && x.1.len == len)).map (fun x => (x.2, x.1))

/-- SEARCH of one record (R315): its status, and the entry found with its position, or the record that is not valid. -/
def searchRec (c : Cfg) (d : Dev) (t index : Nat) (r : TblRec) : Status × Nat × TblRec :=
  match t, r with
  | 0, .bridge key _ _ _ _ _ =>
    (.ok, match brFind c d (brKeyOf (toBytesBE 8 key)) with | some (pos, e) => (pos, e.rec_) | none => (0, noRec))
  | 1, .lpm4 p l _ =>
    if prefixOk 32 p l then (.ok, match lpmAt d.lpm4 p l with | some (k, x) => (k, .lpm4 x.pfx x.len x.act) | none => (0, noRec))
    else (.badValue, 0, noRec)
  | 2, .lpm6 p l _ =>
    if prefixOk 64 p l then (.ok, match lpmAt d.lpm6 p l with | some (k, x) => (k, .lpm6 x.pfx x.len x.act) | none => (0, noRec))
    else (.badValue, 0, noRec)
  | 3, .asc value _ _ =>
    match ascPos c index with
    | none => (.badIndex, 0, noRec)
    | some w =>
      (.ok, match ascFind c d w (List.range 256) (fun _ => true) value with
        | some h => (h.pos % 2 ^ 20, (d.ascAt w (h.pos % 2 ^ 20)).rec_)
        | none => (0, noRec))
  | _, _ => (.badValue, 0, noRec)

/-- SEARCH of records in order, up to the first that fails. -/
def searchRecs (c : Cfg) (d : Dev) (t index : Nat) : List TblRec → List (Nat × TblRec) → Status × List (Nat × TblRec)
  | [], acc => (.ok, acc.reverse)
  | r :: rs, acc =>
    match searchRec c d t index r with
    | (.ok, x) => searchRecs c d t index rs (x :: acc)
    | (st, _) => (st, acc.reverse)

/-- The operations of R315. -/
inductive TblOp where
  | read | write | delete | flush | insertBefore | search
  deriving DecidableEq, Repr

/-- An operation is listed for a table. -/
def TblOp.allowed (o : TblOp) (t : Nat) : Bool :=
  match o with
  | .flush => t == 0
  | .insertBefore => t == 3
  | _ => decide (t < 4)

/-- An operation modifies its table (R316). -/
def TblOp.modifies (o : TblOp) : Bool :=
  match o with
  | .read => false
  | .search => false
  | _ => true

/-- An operation reads or writes its record buffer. -/
def TblOp.usesBuffer (o : TblOp) (t : Nat) : Bool :=
  match o with
  | .flush => false
  | .delete => t != 3
  | _ => true

/-- The operation that a descriptor names: none for another value of op (R315). -/
def descOp (x : Desc) : Option TblOp :=
  match x.op with
  | 1 => some .read
  | 2 => some .write
  | 3 => some .delete
  | 4 => some .flush
  | 5 => some .insertBefore
  | 6 => some .search
  | _ => none

/-- The records of a descriptor that its buffer's host address lets through: all of them, or those before the one at which it faults. -/
def descReach (o : TblOp) (x : Desc) : Nat :=
  match x.fault with
  | some k => if o.usesBuffer x.table then min k x.count else x.count
  | none => x.count

/-- A descriptor's work: its status, the number processed, the records written back, and the device. A host address that faults at a record fails that
record with ST_INTEGRITY (R315). -/
def runDesc (c : Cfg) (m : Nat) (o : TblOp) (x : Desc) (d : Dev) : Status × Nat × List (Nat × TblRec) × Dev :=
  let n := descReach o x
  let cut := fun (st : Status) => if st = .ok ∧ n < x.count then Status.integrity else st
  if o.allowed x.table = false then (.badValue, 0, [], d)
  else if o.modifies && lockedFor d m x.table then (.locked, 0, [], d)
  else
    match o with
    | .read => let r := readEntries c x.table n x.index [] d; (cut r.1, r.2.1.length, r.2.1, r.2.2)
    | .write => let r := eachRec (writeRec c m x.table x.index) (x.recs.take n) 0 d; (cut r.1, r.2.1, [], r.2.2)
    | .delete =>
      let rs := if x.table = 3 then List.replicate n noRec else x.recs.take n
      let r := eachRec (fun k r d => deleteRec c x.table k x.index r d) rs 0 d
      (cut r.1, r.2.1, [], r.2.2)
    | .flush => (.ok, 0, [], brFlush x.index d)
    | .insertBefore =>
      let r := eachRec (fun _ r d => match r with | .asc v k s => ascInsert c x.index v k s d | _ => (.badValue, d)) (x.recs.take n) 0 d
      (cut r.1, r.2.1, [], r.2.2)
    | .search => let r := searchRecs c d x.table x.index (x.recs.take n) []; (cut r.1, r.2.length, r.2, d)

/-- Descriptors of a ring (R313). -/
def ringLen (c : Cfg) (r : Nat) : Nat := 2 ^ c.get Fields.TBL_RING_SIZE_ring_size r

/-- The head of a ring. -/
def ringHead (d : Dev) (r : Nat) : Nat := d.get Fields.TBL_RING_HEAD_head r

/-- A ring has a descriptor to execute. -/
def ringReady (c : Cfg) (d : Dev) (r : Nat) : Bool :=
  d.running && c.flag Fields.TBL_RING_CTRL_en r && ringHead d r != c.get Fields.TBL_RING_TAIL_tail r % ringLen c r

/-- The ring that the table engine serves next, in rotation (R313). -/
def nextRing (c : Cfg) (d : Dev) : Option Nat := ((List.range 16).map (fun k => (d.ringPtr + k) % 16)).find? (ringReady c d)

/-- The host address of the descriptor at a ring's head (R313). -/
def descAddr (c : Cfg) (d : Dev) (r : Nat) : Nat :=
  c.get Fields.TBL_RING_BASE_HI_base_hi r * 2 ^ 32 + c.get Fields.TBL_RING_BASE_LO_base_lo r * 32 + 32 * ringHead d r

/-- A descriptor as the device writes it back (R314): the status, the number processed and the superframe of completion put in. -/
def doneWords (x : Desc) (st : Status) (n sfc : Nat) : List Nat :=
  [x.op * 2 ^ 28 + x.table * 2 ^ 24 + st.code * 2 ^ 16 + n, x.word 1, x.word 2, x.word 3, x.word 4, x.word 5, sfc % 2 ^ 32, sfc / 2 ^ 32 % 2 ^ 16]

/-- The table engine executes the descriptor at a ring's head (R313): it writes the status and the completion into it, and advances the head. A
descriptor whose op is another operation is not this command's, and one whose op is none of R315 fails under whichever command brings it. -/
def execDesc (c : Cfg) (r : Nat) (o : TblOp) (x : Desc) (d : Dev) : Dev :=
  if nextRing c d = some r ∧ (descOp x = some o ∨ descOp x = none) then
    let at_ := descAddr c d r
    let d := { d with ringPtr := (r + 1) % 16 }
    let (st, n, recs, d) := if descOp x = none then (.badValue, 0, [], d) else runDesc c r o x d
    let d := d.emit (.descDone r at_ (doneWords x st n d.sfc) x.buf recs)
    let d := (d.count .device .dmaDescriptors r).set Fields.TBL_RING_HEAD_head r ((ringHead d r + 1) % ringLen c r)
    let d := if st = .ok then d else d.count .device .dmaErrors r
    let d := if d.lockOf x.table = some r then d.arrive .lock x.table else d
    if x.intr then d.raiseBit Fields.INT_DEV_CAUSE_ring_done 0 r else d
  else d

/-- READ. -/
def execRead (r : Fin 16) (x : Desc) (s : State) : Outcome := onDev (fun c d => execDesc c r .read x d) s

/-- WRITE. -/
def execWrite (r : Fin 16) (x : Desc) (s : State) : Outcome := onDev (fun c d => execDesc c r .write x d) s

/-- DELETE. -/
def execDelete (r : Fin 16) (x : Desc) (s : State) : Outcome := onDev (fun c d => execDesc c r .delete x d) s

/-- FLUSH. -/
def execFlush (r : Fin 16) (x : Desc) (s : State) : Outcome := onDev (fun c d => execDesc c r .flush x d) s

/-- INSERT_BEFORE. -/
def execInsertBefore (r : Fin 16) (x : Desc) (s : State) : Outcome := onDev (fun c d => execDesc c r .insertBefore x d) s

/-- SEARCH. -/
def execSearch (r : Fin 16) (x : Desc) (s : State) : Outcome := onDev (fun c d => execDesc c r .search x d) s

end Sys2Proof.Machine
end

