-- ==== Sys2Proof/Machine/TickSource.lean ====
section
/-!
DEFINITION. The source of the tick's phase (R51, R52) and the checkpoints of the superframe counter (R41).
-/

namespace Sys2Proof.Machine

/-- phase_src in force (R51): 0 FREE, 1 TICK_IN, 2 MATE. -/
def phaseSrc (c : Cfg) : Nat := c.get Fields.TICK_CTRL_phase_src 0

/-- Where the source puts the commit edge, as a core clock of the device's tick, when its edge comes at core clock `clk`: tick_in_offset clocks after TICK_IN,
and on the mate's edge (R51). -/
def sourcePlace (c : Cfg) (clk : Nat) : Nat :=
  (clk + (if phaseSrc c = 1 then c.get Fields.TICK_TICKIN_OFFSET_tick_in_offset 0 else 0)) % tickClocks

/-- The error of the device's commit edge against the source's place for it: how many core clocks the source's comes later (R52). The sign is the model's
choice (DESIGN CHOICE, log 28). -/
def phaseError (place : Nat) : Int := if 2 * place ≤ tickClocks then (place : Int) else (place : Int) - tickClocks

/-- An alignment ends with the choice of its source: nothing is measured and the source is not watched. -/
def loseAlignment (d : Dev) : Dev := (d.set Fields.TICK_STATUS_aligned 0 0).disarm .alignSrc 0

/-- TICK_IN_EDGE: an edge of the source comes at a core clock of the tick: under MATE the mate's, else that of the TICK_IN input, which comes under FREE too. It is
remembered for an alignment (R51); once aligned it is measured against the commit edge, and the phase is not corrected (R52). A source that had gone silent is
watched again. -/
def tickInEdge (c : Cfg) (clk : Nat) (d : Dev) : Dev :=
  let d := { d with srcEdge := some clk }
  if phaseSrc c = 0 then d
  else
    let p := sourcePlace c clk
    if d.flag Fields.TICK_STATUS_aligned 0 then
      let d := d.setInt Fields.TICK_PHASE_ERR_phase_err 0 (phaseError p)
      let d := if d.armed .alignSrc 0 then d.arrive .alignSrc 0 else d.armNext .alignSrc 0
      if c.get Fields.TICK_PHASE_LIMIT_phase_limit 0 < (phaseError p).natAbs then d.setRun .phase 0 (d.run .phase 0 + 1)
      else (d.setRun .phase 0 0).setRun .phaseSeen 0 0
    else d

/-- TICK_IN_EDGE. -/
def execTickInEdge (clk : Fin 187500) (s : State) : Outcome := onDev (fun c d => tickInEdge c clk d) s

/-- PHASE_EXCESS: the error has been over its limit at 64 consecutive edges (R52). A run is counted once. -/
def phaseExcess (d : Dev) : Dev :=
  if 64 ≤ d.run .phase 0 ∧ d.run .phaseSeen 0 = 0 then
    ((d.setRun .phaseSeen 0 1).raise Fields.TICK_STATUS_phase_excess 0).count .device .phaseExcess 0
  else d

/-- PHASE_EXCESS. -/
def execPhaseExcess (s : State) : Outcome := onDev (fun _ d => phaseExcess d) s

/-- ALIGN_SRC_LOST: the source has shown no edge for 3 ticks (R52). -/
def alignSrcLost (d : Dev) : Dev :=
  if d.expired .alignSrc 0 3 then ((d.disarm .alignSrc 0).raise Fields.TICK_STATUS_src_lost 0).count .device .tickSrcLost 0 else d

/-- ALIGN_SRC_LOST. -/
def execAlignSrcLost (s : State) : Outcome := onDev (fun _ d => alignSrcLost d) s

/-- The superframe counter goes to the keep store (R41). -/
def checkpointSfc (d : Dev) : Dev := { d with keepSfc := some d.sfc }

/-- SFC_CHECKPOINT: at every edge whose number is a multiple of 65,536 (R41). -/
def sfcCheckpoint (d : Dev) : Dev := if d.running && d.sfc % 65536 == 0 then checkpointSfc d else d

/-- SFC_CHECKPOINT. -/
def execSfcCheckpoint (s : State) : Outcome := onDev (fun _ d => sfcCheckpoint d) s

end Sys2Proof.Machine
end

