-- ==== Sys2Proof/Machine/Time.lean ====
section
/-!
DEFINITION. Network time (spec file 16): the Sync watchdogs, the selection of the served domain, the commands of the domains, the marks to the stands,
and the injection of PTP messages.
-/

namespace Sys2Proof.Machine

/-! ### Lost domains and the selection (R459, R460) -/

/-- The length of a domain's watchdog (R459). -/
def syncLen (c : Cfg) (x : Nat) : Nat := c.get Fields.TIME_X_SYNC_sync_ticks x * c.get Fields.TIME_X_SYNC_loss_cnt x

/-- A domain's watchdog has run out. -/
def syncExpired (c : Cfg) (x : Nat) (d : Dev) : Bool :=
  c.flag Fields.TIME_X_SRC_src_en x && d.expired (syncTimer x) 0 (syncLen c x)

/-- The lost flag of a domain. -/
def lostFlag (x : Nat) : Fld := if x = 0 then Fields.TIME_STATUS_lost_a else Fields.TIME_STATUS_lost_b

/-- Whether a domain is lost (R457, R459): while it is unset, and with src_en from the expiry of its watchdog until the edge that takes an arrival. -/
def domLost (c : Cfg) (x : Nat) (d : Dev) : Bool :=
  !((d.dom x).set) || syncExpired c x d || (c.flag Fields.TIME_X_SRC_src_en x && d.flag (lostFlag x) 0)

/-- The watchdog of a domain stands at 0 at this edge: it has been armed or satisfied (R46). -/
def syncFresh (x : Nat) (d : Dev) : Bool := ((d.timers.get? (timerKey (syncTimer x) 0)).map (fun t => t.c == 0)).getD true

/-- Show whether the time is valid (R462). -/
def noteValid (d : Dev) : Dev := d.set Fields.TIME_STATUS_time_valid 0 ((d.dom d.served).set).toNat

/-- DOMAIN_LOST: a set domain's watchdog has expired (R459). -/
def domainLost (c : Cfg) (x : Nat) (d : Dev) : Dev :=
  if (d.dom x).set && syncExpired c x d && !(d.flag (lostFlag x) 0) then (d.raise (lostFlag x) 0).count .device .domainLost x else d

/-- DOMAIN_LOST. -/
def execDomainLost (x : Fin 2) (s : State) : Outcome := onDev (fun c d => domainLost c x d) s

/-- A domain's watchdog at an edge: it runs while src_en is set on a set domain; an arrival ends what its expiry has set, and so does a clear src_en (R459). -/
def syncEdge (c : Cfg) (x : Nat) (d : Dev) : Dev :=
  let k := syncTimer x
  let d := if c.flag Fields.TIME_X_SRC_src_en x && (d.dom x).set then (if d.armed k 0 then d else d.armNow k 0) else d.disarm k 0
  if (d.dom x).set && (!(c.flag Fields.TIME_X_SRC_src_en x) || syncFresh x d) then d.set (lostFlag x) 0 0 else d

/-- The number of a domain's time, zero while it is unset. -/
def domTime (d : Dev) (x : Nat) : Int := if (d.dom x).set then ((d.dom x).t : Int) else 0

/-- The served time moves to the other domain without a step (R460, R474). -/
def timeSwitch (d : Dev) : Dev :=
  let s := d.served
  let d := { d with sigma := domTime d s + d.sigma - domTime d (1 - s) }
  ((d.set Fields.TIME_STATUS_served 0 (1 - s)).raise Fields.TIME_STATUS_switched 0).count .device .timeSwitch 0

/-- The judgement of the selection at step 5 of an edge (R460, R473). -/
def timeSelect (c : Cfg) (d : Dev) : Dev :=
  let s := d.served
  let d :=
    if domLost c s d then
      (if domLost c (1 - s) d then d.set Fields.TIME_STATUS_holdover 0 1 else (timeSwitch d).set Fields.TIME_STATUS_holdover 0 0)
    else
      let d := d.set Fields.TIME_STATUS_holdover 0 0
      if !(c.get Fields.TIME_CTRL_pref 0 == s) && c.flag Fields.TIME_CTRL_revert 0 && !(domLost c (1 - s) d) then timeSwitch d else d
  noteValid d

/-- The selection before the judgement of an edge. -/
def selNow (d : Dev) : SelBack :=
  { served := d.served, sigma := d.sigma, holdover := d.get Fields.TIME_STATUS_holdover 0, switched := d.get Fields.TIME_STATUS_switched 0 }

/-- The judgement of the selection is taken back, as if the tick had run to here without it; a switch that it made is not counted. -/
def selUndo (c : Cfg) (b : SelBack) (d : Dev) : Dev :=
  let d := { d with sigma := b.sigma - slew b.sigma (c.get Fields.TIME_CTRL_slew_max 0) d.clock }.set Fields.TIME_STATUS_holdover 0 b.holdover
  if d.served = b.served then d
  else ((d.set Fields.TIME_STATUS_served 0 b.served).set Fields.TIME_STATUS_switched 0 b.switched).count .device .timeSwitch 0 (2 ^ 64 - 1)

/-- A change of a domain that is accepted up to core clock 512 of a tick comes before step 5 of its edge, whose judgement of the selection uses it (R32, R460, R475). -/
def beforeSelect (c : Cfg) (f : Dev → Dev) (d : Dev) : Dev :=
  match (if d.running && decide (d.clock ≤ 512) then d.selBack else none) with
  | some b => noteTime c (timeSelect c (f (selUndo c b d)))
  | none => noteTime c (f d)

/-- The time of the edge in progress, as TIME_EDGE shows it (R472). -/
def timeEdge (c : Cfg) (d : Dev) : Dev :=
  let t := d.servedTime
  let d := noteTime c { d with edgeTime := t, edgeSet := (d.dom d.served).set, bases := [] }
  let d := d.set48 Fields.TIME_EDGE_SFC_LO_sfc_lo Fields.TIME_EDGE_SFC_HI_sfc_hi 0 d.sfc
  let d := (d.set Fields.TIME_EDGE_SEC_LO_sec_lo 0 (timeSec t % 2 ^ 32)).set Fields.TIME_EDGE_SEC_HI_sec_hi 0 (timeSec t / 2 ^ 32 % 2 ^ 32)
  (d.set Fields.TIME_EDGE_NS_ns 0 (timeNs t)).set Fields.TIME_EDGE_FRAC_frac 0 (timeFrac t)

/-! ### The commands of a domain (R458, R475) -/

/-- The value of TIME_x_SET. -/
def setValue (c : Cfg) (x : Nat) : Nat :=
  (c.get Fields.TIME_X_SET_SEC_HI_sec_hi x * 2 ^ 32 + c.get Fields.TIME_X_SET_SEC_LO_sec_lo x) * secUnits
    + c.get Fields.TIME_X_SET_NS_ns x * nsUnits + c.get Fields.TIME_X_SET_FRAC_frac x * (nsUnits / 65536)

/-- SET: the domain takes the value; an adjustment in progress is cancelled; the first SET arms its watchdog (R458, R459, R462). -/
def timeSet (c : Cfg) (x : Nat) (d : Dev) : Dev :=
  let first := !((d.dom x).set)
  let d := d.setDom x { set := true, t := setValue c x, left := 0 }
  let d := if first && c.flag Fields.TIME_X_SRC_src_en x then d.armNext (syncTimer x) 0 else d
  noteValid (if first then d.set (lostFlag x) 0 0 else d)

/-- ADJ: a new amount replaces what is not yet applied (R458). -/
def timeAdj (c : Cfg) (x : Nat) (d : Dev) : Dev :=
  d.setDom x { d.dom x with left := signed 32 (c.get Fields.TIME_X_ADJ_adj x) * (nsUnits : Int) }

/-- A write of TIME_x_CMD, checked (R458, R478). -/
def timeCmdCheck (x w : Nat) (d : Dev) : Status :=
  let op := bitsOf w 0 2
  if bitsOf w 31 1 = 0 then .ok
  else if op = 1 then .ok
  else if op = 2 then (if (d.dom x).set then .ok else .wrongState)
  else .badValue

/-- The effect of an accepted write of TIME_x_CMD. -/
def timeCmdRun (c : Cfg) (x w : Nat) (d : Dev) : Dev :=
  if bitsOf w 31 1 = 0 then d else beforeSelect c (if bitsOf w 0 2 = 1 then timeSet c x else timeAdj c x) d

/-! ### Marks to the stands (R469, R477) -/

/-- The 46 bytes of a TIME_MARK (R469). -/
def markBody (n s loop share : Nat) : List Byte :=
  padTo 46 (toBytesBE 6 n ++ toBytesBE 8 (timeSec s % 2 ^ 64) ++ toBytesBE 4 (timeNs s) ++ toBytesBE 2 (timeFrac s) ++ toBytesBE 1 loop ++ toBytesBE 4 share)

/-- The downstream offset of a grove in force: w while a non-reference device is active (R437). -/
def downOfs (d : Dev) (g : Nat) : Int :=
  if d.get Fields.MATE_STATUS_role 0 == 1 && !(d.flag Fields.MATE_STATUS_reference 0) then (d.ofs g).w else 0

/-- Whether an edge marks a grove (R469). -/
def markDue (c : Cfg) (g n : Nat) : Bool :=
  let k := c.get Fields.TIME_MARK_CTRL_mark_ticks 0
  c.flag Fields.TIME_MARK_CTRL_mark_en 0 && n % k == g * (k / 64)

/-- Queue a message ahead of every queued one (R469); where the queue is full it waits beside it, and the next frame takes it first. -/
def queueFirst (g : Nat) (m : LineMsg) (d : Dev) : Dev :=
  d.updGrove g (fun x => if x.msgQ.length < msgRoom then { x with msgQ := m :: x.msgQ } else { x with waiting := m :: x.waiting })

/-- TIME_MARK_SEND (R469, R471, R477): on a native grove in service, once at its edge, where the time was valid at the edge. The grove's broadcast message key is drawn
when it is first needed, and is in use only once it has been delivered (R412). -/
def timeMarkSend (c : Cfg) (g : Nat) (d : Dev) : Dev :=
  if !(compat c g) && markDue c g d.sfc && (d.grove g).inService && !(d.isStandby) && d.edgeSet && d.clock == 0 && !((d.grove g).marked == some d.sfc) then
    let d := if (d.sharedOf (bcastKey g)).drawn then d else drawShared c (bcastKey g) d
    if (d.sharedOf (bcastKey g)).valid then
      let t := ((d.edgeTime : Int) - downOfs d g * 468750000000).toNat
      let body := markBody d.sfc t (tLoop d g) (c.get Fields.TIME_GRV_SHARE_ds_share g)
      ((queueFirst g { ty := 0x0E, stand := 0x1FF, body := body, host := false } d).updGrove g (fun x => { x with marked := some d.sfc })).count
        .grove .marksSent g
    else d
  else d

/-- TIME_MARK_SEND. -/
def execTimeMarkSend (g : Fin 64) (s : State) : Outcome := onDev (fun c d => timeMarkSend c g d) s

/-! ### Injection and capture (R465, R466) -/

/-- A write of TIME_TX_CTRL, checked (R466). -/
def txInjectCheck (c : Cfg) (w : Nat) (d : Dev) : Status :=
  if bitsOf w 31 1 = 0 then .ok
  else if d.txMsg.isSome then .locked
  else if portOn c d (bitsOf w 24 6) = false then .badIndex
  else if bitsOf w 0 11 < 60 ∨ 1024 < bitsOf w 0 11 then .badValue
  else .ok

/-- The injected message waits for its port. -/
def txInjectRun (c : Cfg) (w : Nat) (d : Dev) : Dev :=
  if bitsOf w 31 1 = 0 then d
  else { d with txMsg := some { port := bitsOf w 24 6, onestep := bitsOf w 30 1 == 1
                                bytes := (wordBytes (c.words .TIME_TX_BUF 256)).take (bitsOf w 0 11) } }

/-- A write of TIME_CAP_STAT: pop removes the head record (R465). -/
def capPopRun (w : Nat) (d : Dev) : Dev := if bitsOf w 31 1 = 1 then { d with caps := d.caps.drop 1 } else d

end Sys2Proof.Machine
end

