-- ==== Sys2Proof/Machine/Lanes.lean ====
section
/-!
DEFINITION. The serial lanes (spec file 19): uplink ports and their links, load-spreading groups, equalizer pinning, Plaxon ports, and the checks of the writes that
configure and test lanes.
-/

namespace Sys2Proof.Machine

/-! ### Outputs held safe (R488) -/

/-- An uplink lane is held electrically idle. -/
def laneSafe (d : Dev) (lane : Nat) : Bool := d.safeOut.contains 0 || d.safeOut.contains (1 + lane / 16)

/-- A Plaxon port is held electrically idle. -/
def plxSafe (d : Dev) (p : Nat) : Bool := d.safeOut.contains 0 || d.safeOut.contains (5 + p)

/-! ### Uplink links (R534 to R537) -/

/-- Record a change of link_up of a port (R569). -/
def linkCause (lane : Nat) (d : Dev) : Dev :=
  if lane < 32 then d.raiseBit Fields.INT_LINK_CAUSE0_uplink_lo 0 lane else d.raiseBit Fields.INT_LINK_CAUSE1_uplink_hi 0 (lane - 32)

/-- 500 ms in ticks (R534). -/
def linkRetryTicks : Nat := 4000

/-- The link of a port comes up (R534): it negotiates unless an_en is clear or the port is chip-to-module. -/
def linkComesUp (c : Cfg) (lane : Nat) (d : Dev) : Dev :=
  if d.phase == .run && portOn c d lane && !(laneSafe d lane) && !(linkUp d lane) then
    let an := c.flag Fields.LANE_UP_CFG_an_en lane && !(c.get Fields.LANE_UP_CFG_mode lane == 0)
    let d := ((d.set Fields.LANE_UP_STATUS_link_up lane 1).set Fields.LANE_UP_STATUS_fec_lock lane 1).set Fields.LANE_UP_STATUS_an_done lane an.toNat
    linkCause lane ((d.setRun .linkHold lane 0).disarm .linkRetry lane)
  else d

/-- LINK_UP. -/
def execLinkUp (lane : Fin 64) (s : State) : Outcome := onDev (fun c d => linkComesUp c lane d) s

/-- Empty an egress queue of a port and count its packets (R535). -/
def dropEgress (lane q : Nat) (d : Dev) : Dev := (d.dropQueue q srcEgress).count .device .linkDownDrop lane (d.queue q).pkts

/-- Empty the flow packets of a port; they hold no buffers (R267, R535). -/
def dropFlow (lane : Nat) (d : Dev) : Dev :=
  (d.setQueue (flowQueue lane) Queue.init).count .device .linkDownDrop lane (d.queue (flowQueue lane)).pkts

/-- A packet that is leaving a port whose link is lost is cut off (R550). -/
def cutOff (lane : Nat) (d : Dev) : Dev :=
  let d' := { d with outgoing := d.outgoing.erase lane }
  if d.now < d.outgoing.getD lane 0 then (d'.emit (.uplinkCut lane)).count .device .txTruncated lane else d'

/-- A port loses its link (R535, R537, R550): its egress queues are flushed, it leaves its groups, and bring-up starts again where it is still configured. -/
def linkLost (c : Cfg) (lane : Nat) (d : Dev) : Dev :=
  if linkUp d lane then
    let d := dropFlow lane ((List.range 8).foldl (fun d k => dropEgress lane (upQueue lane k) d) (cutOff lane d))
    let d := ((d.set Fields.LANE_UP_STATUS_link_up lane 0).set Fields.LANE_UP_STATUS_fec_lock lane 0).set Fields.LANE_UP_STATUS_an_done lane 0
    let d := ((d.set Fields.LANE_UP_STATUS_member lane 0).setRun .linkHold lane 0).count .device .linkDown lane
    linkCause lane (if portOn c d lane then d.armNext .linkRetry lane else d)
  else d

/-- LINK_RETRY: no link within 500 ms; bring-up starts again (R534). -/
def linkRetry (c : Cfg) (lane : Nat) (d : Dev) : Dev :=
  if portOn c d lane && !(linkUp d lane) && d.expired .linkRetry lane linkRetryTicks
  then (d.armNow .linkRetry lane).count .device .linkRetry lane else d

/-- LINK_RETRY. -/
def execLinkRetry (lane : Fin 64) (s : State) : Outcome := onDev (fun c d => linkRetry c lane d) s

/-- GROUP_MEMBER_JOIN: link_up has held through 8 whole ticks (R537). -/
def memberJoin (c : Cfg) (lane : Nat) (d : Dev) : Dev :=
  if portOn c d lane && linkUp d lane && decide (9 ≤ d.run .linkHold lane) then d.set Fields.LANE_UP_STATUS_member lane 1 else d

/-- GROUP_MEMBER_JOIN. -/
def execGroupMemberJoin (lane : Fin 64) (s : State) : Outcome := onDev (fun c d => memberJoin c lane d) s

/-- The lanes at a commit edge: links that hold, and the ticks in which a clamp acted (R537, R538). -/
def lanesEdge (clamp : List Nat) (d : Dev) : Dev :=
  (List.range 66).foldl (fun d l =>
    let up := if l < 64 then linkUp d l else d.flag Fields.LANE_PLX_STATUS_up (l - 64)
    if up then
      let d := d.mark .rx l (if clamp.contains l then 1 else 2)
      if l < 64 then d.setRun .linkHold l (d.run .linkHold l + 1) else d
    else d) d

/-- The rx_pinned flag of a lane or Plaxon port. -/
def rxPinFlag (l : Nat) : Fld := if l < 64 then Fields.LANE_UP_STATUS_rx_pinned else Fields.LANE_PLX_STATUS_rx_pinned

/-- RX_PINNED (R538): 64 and 65 are the Plaxon ports. -/
def rxPinned (l : Nat) (d : Dev) : Dev := pinIf .rx l (rxPinFlag l) (if l < 64 then l else l - 64) .device .rxPinned l d

/-- RX_PINNED. -/
def execRxPinned (lane : Fin 66) (s : State) : Outcome := onDev (fun _ d => rxPinned lane d) s

/-! ### Plaxon ports (R543 to R545) -/

/-- A Plaxon port is ACTIVE. -/
def plxUp (d : Dev) (p : Nat) : Bool := d.flag Fields.LANE_PLX_STATUS_up p

/-- A Plaxon port runs in Plaxon-1 mode. -/
def plxOne (c : Cfg) (p : Nat) : Bool := c.flag Fields.LANE_PLX_CTRL_mode p

/-- For the mate logic a west port in Plaxon-1 mode is never up (R545). -/
def mateUp (c : Cfg) (d : Dev) : Bool := plxUp d 0 && !(plxOne c 0)

/-- The ring is down: every pass that waits for it runs its cascade lookup locally, without waiting (R328). -/
def casLocals (c : Cfg) (d : Dev) : Dev :=
  (List.range 32).foldl (fun d p => match (if pipeRuns d p then (d.pipe p).wait else none) with
    | some w => lookupPass c p w.pass w.answers d
    | none => d) d

/-- The cascade ring is down while the east port or CAS_MI is (R328). -/
def casUpdate (c : Cfg) (d : Dev) : Dev :=
  let d := d.set Fields.ASC_CAS_STATUS_cas_down 0 (!(d.casMi && plxUp d 1)).toNat
  if casDown d then casLocals c d else d

/-- A Plaxon port returns to DETECT. -/
def plxDown (c : Cfg) (p : Nat) (d : Dev) : Dev :=
  let d := if plxUp d p then (d.set Fields.LANE_PLX_STATUS_up p 0).raiseBit Fields.INT_LINK_CAUSE2_other 0 p else d
  casUpdate c (d.set Fields.LANE_PLX_STATUS_state p 0)

/-- A Plaxon port goes on by one state of R543; Plaxon-1 mode has no DESKEW of its own, so its six states take the codes 0 to 4 and 6 (R545). -/
def plxAdvance (c : Cfg) (p pol : Nat) (rev : Bool) (d : Dev) : Dev :=
  let s := d.get Fields.LANE_PLX_STATUS_state p
  let d := if s = 2 ∧ plxOne c p = false then
      (d.set Fields.LANE_PLX_STATUS_pol_found p pol).set Fields.LANE_PLX_STATUS_reversed p rev.toNat
    else d
  if (if plxOne c p then 4 else 5) ≤ s then
    casUpdate c (((d.set Fields.LANE_PLX_STATUS_state p 6).set Fields.LANE_PLX_STATUS_up p 1).raiseBit Fields.INT_LINK_CAUSE2_other 0 p)
  else d.set Fields.LANE_PLX_STATUS_state p (s + 1)

/-- PLAXON_STATE_CHANGE (R543, R545): a failure in any state returns the port to DETECT and counts. -/
def plxChange (c : Cfg) (p : Nat) (mv : PlaxonMove) (d : Dev) : Dev :=
  if d.phase == .run && c.flag Fields.LANE_PLX_CTRL_en p && !(plxSafe d p) then
    match mv with
    | .advance pol rev => if plxUp d p then d else plxAdvance c p pol rev d
    | .fail => (plxDown c p d).count .device .plxRetry p
  else d

/-- PLAXON_STATE_CHANGE. -/
def execPlaxonStateChange (p : Fin 2) (mv : PlaxonMove) (s : State) : Outcome := onDev (fun c d => plxChange c p mv d) s

/-- ELASTIC_ERR (R544). -/
def elasticErr (c : Cfg) (p : Nat) (d : Dev) : Dev := if plxUp d p then (plxDown c p d).count .device .elasticErr p else d

/-- ELASTIC_ERR. -/
def execElasticErr (p : Fin 2) (s : State) : Outcome := onDev (fun c d => elasticErr c p d) s

/-- CAS_MI_STATE_CHANGE (R328). -/
def casMiChange (c : Cfg) (up : Bool) (d : Dev) : Dev := casUpdate c { d with casMi := up }

/-- CAS_MI_STATE_CHANGE. -/
def execCasMiStateChange (up : Bool) (s : State) : Outcome := onDev (fun c d => casMiChange c up d) s

/-! ### PON lanes (R540) -/

/-- PON_TX_LANE_READY: the PLL of a powered lane locks. -/
def ponReady (g : Nat) (d : Dev) : Dev :=
  if d.phase == .run && !(groveParked d g) then
    (d.set Fields.LANE_PON_STATUS_tx_ready g 1).set Fields.LANE_PON_STATUS_rx_ready g 1
  else d

/-- PON_TX_LANE_READY. -/
def execPonTxLaneReady (g : Fin 64) (s : State) : Outcome := onDev (fun _ d => ponReady g d) s

/-! ### Checks of writes (R533, R539, R542, R545, R547) -/

/-- Lanes of a port by its width code. -/
def portLanes (width : Nat) : Nat := 2 ^ width

/-- The first lane of the enabled port that a lane belongs to. -/
def portAt (c : Cfg) (lane : Nat) : Option Nat :=
  [lane, lane / 2 * 2, lane / 4 * 4, lane / 8 * 8].find? (fun l =>
    c.flag Fields.LANE_UP_CFG_en l && decide (lane < l + portLanes (c.get Fields.LANE_UP_CFG_width l)))

/-- A write of LANE_UP_CFG is checked (R16, R533). -/
def upCfgCheck (c : Cfg) (d : Dev) (lane w : Nat) : Status :=
  let n := portLanes (bitsOf w 0 2)
  if lane % n ≠ 0 then .badValue
  else if quadParked d (lane / 16) then .wrongState
  else if (portAt c lane).isSome then
    (if bitsOf w 31 1 = 0 ∧ w % 2 ^ 31 = c.word .LANE_UP_CFG lane % 2 ^ 31 then .ok else .wrongState)
  else if bitsOf w 31 1 = 1 ∧ (List.range n).any (fun k => (portAt c (lane + k)).isSome) then .wrongState
  else .ok

/-- What an accepted write of LANE_UP_CFG does: bring-up begins, or the port goes down (R533, R534). -/
def upCfgRun (old new : Cfg) (lane : Nat) (d : Dev) : Dev :=
  let was := old.flag Fields.LANE_UP_CFG_en lane
  let is_ := new.flag Fields.LANE_UP_CFG_en lane
  if was && !is_ then linkLost new lane (d.disarm .linkRetry lane)
  else if !was && is_ then d.armNext .linkRetry lane
  else d

/-- A tap of 6 bits lies within a bound. -/
def tapOk (v bound : Nat) : Bool := decide ((signed 6 v).natAbs ≤ bound)

/-- A write of LANE_TX_EQ is checked (R539). -/
def txEqCheck (c : Cfg) (lane w : Nat) : Status :=
  let pre := c.get Fields.LANE_TX_BOUND_pre_max lane
  if !(tapOk (bitsOf w 24 6) pre && tapOk (bitsOf w 18 6) pre && tapOk (bitsOf w 12 6) pre && tapOk (bitsOf w 0 6) (c.get Fields.LANE_TX_BOUND_post_max lane))
  then .badValue
  else
    match portAt c lane with
    | some l => if c.get Fields.LANE_UP_CFG_mode l = 0 then .ok else .wrongState
    | none => .ok

/-- A receive bound's own consistency (R555). -/
def rxBoundCheck (w : Nat) : Status :=
  if bitsOf w 28 4 < bitsOf w 24 4 ∨ 127 < bitsOf w 8 8 ∨ 127 < bitsOf w 0 8 then .badValue else .ok

/-- A test word asks for something (R547). -/
def testAsks (w : Nat) : Bool := bitsOf w 31 1 == 1 || bitsOf w 30 1 == 1 || !(bitsOf w 0 2 == 0)

/-- A write of LANE_TEST is checked (R547). -/
def laneTestCheck (c : Cfg) (lane w : Nat) : Status := if testAsks w && (portAt c lane).isSome then .wrongState else .ok

/-- A write of LANE_PLX_TEST is checked (R547, R555). -/
def plxTestCheck (c : Cfg) (p w : Nat) : Status :=
  if 1 < bitsOf w 28 2 then .badValue else if testAsks w && c.flag Fields.LANE_PLX_CTRL_en p then .wrongState else .ok

/-- A write of LANE_PON_CTRL is checked for its test fields (R547): tx_en is 0, in force and as written. -/
def ponTestCheck (c : Cfg) (g w : Nat) : Status :=
  if (bitsOf w 0 1 == 1 || bitsOf w 26 2 ≠ 0) && (c.flag Fields.LANE_PON_CTRL_tx_en g || bitsOf w 31 1 == 1) then .wrongState else .ok

/-- A write of LANE_PLX_CTRL is checked (R545). -/
def plxCtrlCheck (c : Cfg) (p w : Nat) : Status :=
  let old := c.word .LANE_PLX_CTRL p
  if c.flag Fields.LANE_PLX_CTRL_en p && !(bitsOf w 30 1 == bitsOf old 30 1 && bitsOf w 8 8 == bitsOf old 8 8 && bitsOf w 0 1 == bitsOf old 0 1)
  then .wrongState else .ok

/-- The key of a lane's symbol errors among the counts of events that no command delivers: class 0 uplink, 1 PON. -/
def errKey (cls l : Nat) : Nat := 2 ^ 32 + cls * 64 + l

/-- A checker counts from the write that sets its chk_en (R546). -/
def checkerRun (old new : Cfg) (x : Fld) (cls l : Nat) (d : Dev) : Dev :=
  if new.flag x l && !(old.flag x l) then { d with amb := d.amb.put (errKey cls l) 0 } else d

/-- Symbol errors of a lane as its register shows them (R546, R555): those of the ticks before and, while the checker runs, of this one. -/
def laneErrors (c : Cfg) (d : Dev) (x : Fld) (cls l : Nat) : Nat :=
  min (2 ^ 32 - 1) (d.amb.getD (errKey cls l) 0 + (if c.flag x l then Config.laneErr cls l d.now else 0))

/-- What an accepted write of LANE_PLX_CTRL does: the port starts from DETECT, or goes down. -/
def plxCtrlRun (old new : Cfg) (p : Nat) (d : Dev) : Dev :=
  if old.flag Fields.LANE_PLX_CTRL_en p == new.flag Fields.LANE_PLX_CTRL_en p then d else plxDown new p d

end Sys2Proof.Machine
end

