-- ==== Sys2Proof/Machine/Send.lean ====
section
/-!
DEFINITION. Whether a grove's transmitter is on (R492, R493, R540), the sending of a frame at its commit edge (R42, R253), and the entry of a grove into service
and its leaving (R541, R630).
-/

namespace Sys2Proof.Machine

/-! ### The transmit disable (R540) -/

/-- The mate is dead as far as the device can tell: both paths are silent (R441, R442). -/
def mateDead (d : Dev) : Bool := d.expired .plaxonSilent 0 3 && d.expired .pinSilent 0 3

/-- The swap edge of an accepted do-si-do has come, and the mate is alive (R448, R451). -/
def swapDue (d : Dev) : Bool :=
  d.isPaired && !(mateDead d) && d.mate.swapOk == some true && (match d.mate.swapAt with | some e => decide (e ≤ d.sfc) | none => false)

/-- The device is QUIET (R493): a paired device while its role is STANDBY, and from the swap edge of a do-si-do on (R448); another one from the edge at which its req_state asks for it. A request of STANDBY
darkens the transmitters in the same way (R496). -/
def quietNow (c : Cfg) (d : Dev) : Bool :=
  if d.isPaired then d.isStandby || swapDue d else c.get Fields.CLK_PWR_req_state 0 == 1 || c.get Fields.CLK_PWR_req_state 0 == 2

/-- TX_DIS of a grove is deasserted (R540). A committed bit of park_mask counts from its edge on (R494). -/
def txOn (c : Cfg) (d : Dev) (g : Nat) : Bool :=
  c.flag Fields.LANE_PON_CTRL_tx_en g && d.flag Fields.LANE_PON_STATUS_tx_ready g && !(coreSafe d) && !(quietNow c d) && !(groveParked d g)
    && !((c.get Fields.CLK_PWR_park_mask 0).testBit (quadrantOf g)) && d.running

/-! ### Sending (R42, R64, R90, R253, R257) -/

/-- A KEY_CONFIRM of a stand waits that completes its agreement at this edge (R406, R410): no command or expiry takes the stand away before it (R418). -/
def confirmDue (c : Cfg) (d : Dev) (i : Nat) : Bool :=
  let k := d.keysOf i
  mayAgree d i && k.agree == .answered && !(d.isStandby) && (d.lifeOf i).cmds.isEmpty && !(d.st i == .ranging && rangingOver c d i)
    && (d.grove (groveOf i)).judge.any (fun m => m.stand == i && m.ty == 0x08 && ofBytesBE (m.body.take 1) == k.target)

/-- The epoch of a slice frame that leaves at edge `n` (R253, R273): an epoch that becomes current at the edge holds for its frame already. -/
def sliceEpoch (c : Cfg) (d : Dev) (i n : Nat) : Nat :=
  if confirmDue c d i then (d.keysOf i).target
  else if (d.keysOf i).curFrom = n + 1 ∧ (d.keysOf i).lastDone = some n then (d.keysOf i).cur
  else sendEpoch (d.keysOf i) n

/-- A slice frame as it leaves: in clear where it is an AIS frame or its stand has no keys, else under the slice key of the epoch that holds at the edge. -/
def sliceOut (c : Cfg) (g n slot : Nat) (bs : List Byte) (d : Dev) : List Byte :=
  match (slicesOf c g false).find? (fun s => sliceFirst c s == slot) with
  | none => bs
  | some s =>
    let i := sliceStand c s
    let ais := (byteAt bs 5).testBit 7 && (bs.drop 8).all (fun b => b == 0xFF#8)
    if ais || !((d.keysOf i).ready) then bs
    else
      let e := sliceEpoch c d i n
      bs.take 6 ++ [BitVec.ofNat 8 (e * 128 + 64)] ++ (bs.drop 7).take 1 ++ sliceCipher d i e s n false (bs.drop 8)

/-- The messages of a frame go out. -/
def emitMsgs (g : Nat) (fr : DsFrame) (d : Dev) : Dev :=
  let d := fr.msgs.foldl (fun d m => d.emit (.lineMsg g fr.sfc m.bytes)) d
  let d := fr.ploams.foldl (fun d p => d.emit (.ploam g p)) d
  match fr.omci with
  | some (i, bs) => d.emit (.omci i bs)
  | none => d

/-- A frame leaves the transmit balls at its edge, or as many symbols before it as the mate's offset says (R437): `frameLine` says what a native one carries. Only native frames are frames of R64 and count in R90. -/
def putOnAir (c : Cfg) (g : Nat) (fr : DsFrame) (d : Dev) : Dev :=
  let sent := { fr with slices := fr.slices.map (fun p => (p.1, sliceOut c g fr.sfc p.1 p.2 d)) }
  let d := if compat c g then d
    else ((d.count .grove .framesSent g).count .grove .payloadBytes g ((fr.frags.map (fun f => fragSpan f.payload.length)).sum)).count
      .grove .idleBytes g (idleSpan fr.idle)
  let d := fr.ais.foldl (fun d s => d.count .slice .aisFramesSent s) (d.updGrove g (fun x => { x with onAir := some sent, frame := none }))
  emitMsgs g fr (d.emit (.frame g sent (downOfs d g)))

/-- Send frame n of a grove in service; a frame that the edge does not send is discarded, but for a standby's, which a takeover at the edge may yet send. -/
def sendFrame (c : Cfg) (g : Nat) (d : Dev) : Dev :=
  match (d.grove g).frame with
  | some fr =>
    if fr.sfc = d.sfc ∧ (d.grove g).inService = true ∧ txOn c d g = true then putOnAir c g fr d
    else if fr.sfc < d.sfc ∨ (fr.sfc = d.sfc ∧ d.isStandby = false ∧ swapDue d = false) then d.updGrove g (fun x => { x with frame := none, onAir := none })
    else d
  | none => d.updGrove g (fun x => { x with onAir := none })

/-! ### Service (R541, R630) -/

/-- The four burst profiles of a compatibility grove are announced as it enters service (DESIGN CHOICE, log 93). -/
def announceProfiles (c : Cfg) (g : Nat) (d : Dev) : Dev :=
  if compat c g then (List.range 4).foldl (fun d k => profileMsg c g k d) d else d

/-- A clearing that R131 puts at the grove's first edge in service is held (R507), though the frame of that edge carries no map and so no discovery entry (R630): nothing
announces it. -/
def firstClearing (c : Cfg) (g : Nat) (d : Dev) : Dev :=
  if clrScheduled c d g d.sfc then (clearingFrom c g d.sfc d).updGrove g (fun x => { x with announce := none }) else d

/-- GROVE_ENTER_SERVICE: at an edge, with TX_DIS deasserted, the grove seals its first frame and sends it. -/
def enterService (c : Cfg) (g : Nat) (d : Dev) : Dev :=
  if !((d.grove g).inService) && txOn c d g && d.clock == 0 then
    let n := d.sfc
    let d := firstClearing c g (d.updGrove g (fun x => { x with inService := true, since := n, fastEvent := some n, cont := none }))
    announceProfiles c g ((sendFrame c g (firstFrame c g d)).updGrove g (fun x => { x with inService := true, since := n }))
  else d

/-- GROVE_ENTER_SERVICE. -/
def execGroveEnterService (g : Fin 64) (s : State) : Outcome := onDev (fun c d => enterService c g d) s

/-- Every stand of a grove that is not ABSENT becomes ABSENT (R172, R494, R541). -/
def allAbsent (c : Cfg) (g : Nat) (d : Dev) : Dev :=
  (d.standsOf g).foldl (fun d i => if d.st i = .absent then d else enterAbsent c i false d) d

/-- A grove no longer transmits; a continuation that it owed is discarded (R84), and its replicas of multicast packets are dropped (R379). -/
def outOfService (g : Nat) (d : Dev) : Dev :=
  let d := dropGroveReplicas g (d.count .grove .contDiscarded g (d.grove g).cont.toList.length)
  d.updGrove g (fun x => { x with inService := false, frame := none, onAir := none, cont := none })

/-- A cause of R540 holds for a grove. -/
def causeHolds (c : Cfg) (d : Dev) (g : Nat) : LeaveCause → Bool
  | .txDisabled => !(c.flag Fields.LANE_PON_CTRL_tx_en g)
  | .laneLost => true
  | .safe => coreSafe d
  | .quiet => quietNow c d
  | .parked => groveParked d g

/-- GROVE_LEAVE_SERVICE (R541): with tx_en off or the quadrant parked its stands become ABSENT; for any other cause they keep their states. -/
def leaveService (c : Cfg) (g : Nat) (cause : LeaveCause) (d : Dev) : Dev :=
  if (d.grove g).inService && causeHolds c d g cause then
    let d := outOfService g d
    match cause with
    | .txDisabled => allAbsent c g d
    | .parked => allAbsent c g d
    | .laneLost => d.set Fields.LANE_PON_STATUS_tx_ready g 0
    | .safe => d
    | .quiet => d
  else d

/-- GROVE_LEAVE_SERVICE. -/
def execGroveLeaveService (g : Fin 64) (cause : LeaveCause) (s : State) : Outcome := onDev (fun c d => leaveService c g cause d) s

end Sys2Proof.Machine
end

