-- ==== Sys2Proof/Machine/Staging.lean ====
section
/-!
DEFINITION. The staging area (R34 to R39, R55): how staged writes take effect, and the configuration as it will stand at an edge.
-/

namespace Sys2Proof.Machine

/-- A staged write takes effect. -/
def Staged.apply (w : Staged) (c : Cfg) : Cfg :=
  let old := c.word w.reg w.idx
  c.setWord w.reg w.idx (old - (old &&& w.mask) + (w.value &&& w.mask))

/-- A staged write accepted after another takes effect before it (R55): both were accepted at one core clock and its master is the higher one. -/
def Staged.before (a b : Staged) : Bool := a.cyc == b.cyc && decide (b.master < a.master)

/-- Put a staged write among those accepted before it, the last to take effect standing first. -/
def insertStaged (w : Staged) : List Staged → List Staged
  | [] => [w]
  | x :: t => if w.before x then x :: insertStaged w t else w :: x :: t

/-- A staged write commits at or before an edge. -/
def Staged.dueBy (n : Nat) (w : Staged) : Bool :=
  match w.due with
  | some e => decide (e ≤ n)
  | none => false

/-- Staged writes, given in the order of their acceptance, in the order in which they take effect. -/
def inOrder (ws : List Staged) : List Staged := (ws.foldl (fun l w => insertStaged w l) []).reverse

/-- The configuration as the staged writes due by edge `n` leave it. A later edge's write does not go before an earlier edge's (R55). -/
def Cfg.at (n : Nat) (c : Cfg) : Cfg :=
  let now := c.staged.filter (Staged.dueBy n)
  let first := now.filter (Staged.dueBy (n - 1))
  let last := now.filter (fun w => !(w.dueBy (n - 1)))
  (inOrder last).foldl (fun c w => w.apply c) ((inOrder first).foldl (fun c w => w.apply c) c)

/-- The configuration as every staged write leaves it, those under hold as well. -/
def Cfg.final (c : Cfg) : Cfg :=
  let held := c.staged.filter (fun w => w.due.isNone)
  let last := c.staged.filter (fun w => w.due.isSome)
  (inOrder held).foldl (fun c w => w.apply c) (c.at ((last.map (fun w => w.due.getD 0)).foldl max 0))

/-- Step 2 of R32: the staged writes due at edge `n` take effect and leave the staging area. -/
def Cfg.commit (n : Nat) (c : Cfg) : Cfg := { c.at n with staged := c.staged.filter (fun w => !(w.dueBy n)) }

/-- The number at which the superframe counter starts (R41): the one kept plus 65,536, and zero in a device that has never run. -/
def startSfc (d : Dev) : Nat := match d.keepSfc with | some n => (n + 65536) % 2 ^ 48 | none => 0

/-- The edge at which a staged write accepted now commits (R34, R39). Before the first edge after a start it is that edge, whose number the keep store gives. -/
def dueEdge (d : Dev) : Nat :=
  if d.running then (if d.clock < 165000 then d.sfc + 1 else d.sfc + 2) else if d.phase == .run then d.sfc else startSfc d

/-- Whether a master holds (R37). -/
def holding (c : Cfg) (m : Nat) : Bool := c.flag Fields.TICK_STAGE_CTL_hold m

/-- Entries of the staging area (R36). -/
def stageRoom : Nat := 4096

/-- The entries of the staging area in use: the loader's writes take none (R36, R517). -/
def Cfg.fill (c : Cfg) : Nat := (c.staged.filter (fun w => w.master != 18)).length

/-- The staging record of a master (R38). -/
def Cfg.stage (c : Cfg) (m : Nat) : StageRec := c.stages.getD m { edge := 2 ^ 48 - 1, held := 0 }

/-- Stage a write (R34 to R38). -/
def Cfg.stageWrite (d : Dev) (m : Nat) (r : Reg) (i mask value : Nat) (c : Cfg) : Cfg :=
  let h := holding c m
  let due := if h then none else some (dueEdge d)
  let w : Staged := { master := m, reg := r, idx := i, mask := mask, value := value, cyc := d.cyc, due := due }
  let s := c.stage m
  { c with staged := c.staged ++ [w]
           stages := c.stages.put m (if h then { s with held := s.held + 1 } else { s with edge := dueEdge d }) }

/-- A master clears hold: what it accumulated is released as one set for the edge that R34 gives (R37, R38, R58). -/
def Cfg.release (d : Dev) (m : Nat) (c : Cfg) : Cfg :=
  let s := c.stage m
  let e := dueEdge d
  { c with staged := c.staged.map (fun w => if w.master = m ∧ w.due.isNone then { w with due := some e } else w)
           stages := c.stages.put m (if s.held = 0 then s else { edge := e, held := 0 }) }

/-- A master's held writes are discarded (R567). -/
def Cfg.discardHeld (m : Nat) (c : Cfg) : Cfg :=
  { c with staged := c.staged.filter (fun w => !(w.master == m && w.due.isNone)), stages := c.stages.put m { c.stage m with held := 0 } }

end Sys2Proof.Machine
end

