-- ==== Sys2Proof/Machine/Power.lean ====
section
/-!
DEFINITION. Clock sources and the safe state (R480 to R491, R503 to R506), the trim of the internal oscillator, and the power states QUIET and PARK
(R492 to R495).
-/

namespace Sys2Proof.Machine

/-! ### Selections (R480, R486) -/

/-- The source that a selector names: 0 the core DPLL, 1 + q the uplink lanes of quadrant q, 5 + p Plaxon port p. -/
def selectedSrc (c : Cfg) (k : Nat) : Nat :=
  if k = 0 then c.get Fields.CLK_CORE_SEL_src 0
  else if k < 5 then bitsOf (c.get Fields.CLK_UP_SEL_qref 0) (2 * (k - 1)) 2
  else bitsOf (c.get Fields.CLK_PLX_SEL_pref 0) (2 * (k - 5)) 2

/-- The selectors. -/
def selectors : List Nat := List.range 7

/-- The outputs of a selector are held safe. -/
def heldSafe (d : Dev) (k : Nat) : Bool := d.safeOut.contains k

/-- Whether a source is ready (R484). -/
def srcReady (d : Dev) (code : Nat) : Bool := (d.get Fields.CLK_STATUS_ready 0).testBit code

/-- Show whether outputs are held safe. -/
def showSafe (d : Dev) : Dev := d.set Fields.CLK_STATUS_safe 0 (!(d.safeOut.isEmpty)).toNat

/-- Uplink lanes go electrically idle: their links are lost and no bring-up runs. -/
def lanesIdle (c : Cfg) (lanes : List Nat) (d : Dev) : Dev := lanes.foldl (fun d l => (linkLost c l d).disarm .linkRetry l) d

/-- The lanes of a quadrant (R15). -/
def quadLanes (q : Nat) : List Nat := (List.range 16).map (fun k => 16 * q + k)

/-- The outputs of a selector are driven to their safe levels (R488). The frames being sent are cut off (R504), and so are the courses of BURST_EN. -/
def forceSafe (c : Cfg) (k : Nat) (d : Dev) : Dev :=
  if heldSafe d k then d
  else
    let d := { d with safeOut := k :: d.safeOut }
    let d := if k = 0 then
        let d := burstsOff (plxDown c 1 (plxDown c 0 (lanesIdle c (List.range 64) d)))
        let d := { d with groves := d.groves.mapVals (fun _ x => { x with onAir := none }) }
        d.set Fields.CLK_STATUS_holdover 0 1
      else if k < 5 then lanesIdle c (quadLanes (k - 1)) d
      else plxDown c (k - 5) d
    showSafe (d.count .device .safeEntries 0)

/-- A source is lost (R485, R488): the outputs of the selectors that use it go safe, but for one whose switch has not completed (R503). The window of R484 in which it is
lost is not within the tolerance. -/
def loseSource (c : Cfg) (code : Nat) (d : Dev) : Dev :=
  if d.phase == .held || d.srcLost.contains code then d
  else
    let d := { (d.setRun .srcWin code 0).setRun .srcBad code 1 with srcLost := code :: d.srcLost }
    let d := d.set Fields.CLK_STATUS_ready 0 ((d.get Fields.CLK_STATUS_ready 0) &&& (31 - 2 ^ code))
    let d := (d.raiseBit Fields.CLK_STATUS_lost 0 code).count .device .srcLost code
    (selectors.filter (fun k => selectedSrc c k == code && !(d.muxWait.contains k))).foldl (fun d k => forceSafe c k d) d

/-- The recovered clock's lane is locked (R480). -/
def recLocked (c : Cfg) (d : Dev) : Bool := d.flag Fields.LANE_UP_STATUS_fec_lock (c.get Fields.CLK_CORE_SEL_rec_lane 0)

/-- What takes the lock from lane rec_lane loses the recovered clock with it (R485). -/
def watchRecovered (c : Cfg) (f : Dev → Dev) (d : Dev) : Dev :=
  let e := f d
  if recLocked c d && !(recLocked c e) then loseSource c 3 e else e

/-- SOURCE_LOST. -/
def sourceLost (c : Cfg) (code : Nat) (d : Dev) : Dev := watchRecovered c (loseSource c code) d

/-- SOURCE_LOST. -/
def execSourceLost (code : Fin 5) (s : State) : Outcome := onDev (fun c d => sourceLost c code d) s

/-- A source is fitted on the board (R480). -/
def srcFitted (d : Dev) (code : Nat) : Bool :=
  code == 0 || code == 3 || (match d.board with | some b => b.refs.any (fun k => k.val == code) | none => false)

/-- What a window has measured of a source: nothing of one that is not fitted or shows no clock. One of which the edge says nothing is at nominal. -/
def srcMeasured (c : Cfg) (freq : List (Nat × Int)) (d : Dev) (code : Nat) : Option Int :=
  if !(srcFitted d code) || (code == 3 && !(recLocked c d)) then none
  else
    match freq.find? (fun p => p.1 == code) with
    | some p => some p.2
    | none => if d.srcLost.contains code then none else some 0

/-- A window of a source ends (R484): within ±ready_ppm of nominal it lengthens the run, outside it the source is no longer ready. -/
def windowEnds (c : Cfg) (freq : List (Nat × Int)) (code : Nat) (d : Dev) : Dev :=
  let good := match srcMeasured c freq d code with
    | some v => decide (v.natAbs ≤ 1000 * c.get Fields.CLK_READY_TOL_ready_ppm 0) && d.run .srcBad code == 0
    | none => false
  let d := d.setRun .srcBad code 0
  if good then d.setRun .srcWin code (d.run .srcWin code + 1)
  else (d.setRun .srcWin code 0).set Fields.CLK_STATUS_ready 0 ((d.get Fields.CLK_STATUS_ready 0) &&& (31 - 2 ^ code))

/-- The windows of the sources at an edge: each lasts 64 ticks and ends where 64 divides the superframe number (R484; DESIGN CHOICE, log 70). -/
def windowsEdge (c : Cfg) (freq : List (Nat × Int)) (d : Dev) : Dev :=
  if d.sfc % 64 = 0 then (List.range 5).foldl (fun d code => windowEnds c freq code d) d else d

/-- SOURCE_READY: four consecutive windows within the tolerance (R484). -/
def sourceReady (code : Nat) (d : Dev) : Dev :=
  if d.phase == .held || d.run .srcWin code < 4 then d
  else { d.raiseBit Fields.CLK_STATUS_ready 0 code with srcLost := d.srcLost.filter (fun x => !(x == code)) }

/-- SOURCE_READY. -/
def execSourceReady (code : Fin 5) (s : State) : Outcome := onDev (fun _ d => sourceReady code d) s

/-- LINK_DOWN. -/
def execLinkDown (lane : Fin 64) (s : State) : Outcome := onDev (fun c d => watchRecovered c (linkLost c lane) d) s

/-- A selection takes effect (R486, R487): the multiplexer waits where the outgoing clock can no longer acknowledge. -/
def selectRun (old new : Cfg) (d : Dev) : Dev :=
  selectors.foldl (fun d k =>
    if selectedSrc old k = selectedSrc new k then d
    else if d.srcLost.contains (selectedSrc old k) then { d with muxWait := k :: d.muxWait.filter (fun x => !(x == k)) }
    else d) d

/-- STOPPED_SOURCE_ESCAPE (R487, R503): the switches that wait complete on the incoming clock, each counted; where that one has been lost too, its outputs go safe. -/
def stoppedEscape (c : Cfg) (d : Dev) : Dev :=
  if d.muxWait.isEmpty then d
  else
    let ks := d.muxWait
    let d := ({ d with muxWait := [] }.raise Fields.CLK_STATUS_stopped_source_escape 0).count .device .escape 0 ks.length
    ks.foldl (fun d k => if d.srcLost.contains (selectedSrc c k) then forceSafe c k d else d) d

/-- STOPPED_SOURCE_ESCAPE. -/
def execStoppedSourceEscape (s : State) : Outcome := onDev (fun c d => watchRecovered c (stoppedEscape c) d) s

/-- A write of a selection register is checked (R486, R508): codes within their range, and every newly named source ready. -/
def selectCheck (old new : Cfg) (d : Dev) : Status :=
  if 4 < selectedSrc new 0 ∨ (selectors.drop 1).any (fun k => decide (2 < selectedSrc new k)) then .badValue
  else
    let rec_ := selectedSrc new 0 == 3 && !(old.get Fields.CLK_CORE_SEL_rec_lane 0 == new.get Fields.CLK_CORE_SEL_rec_lane 0)
    if selectors.all (fun k => selectedSrc old k == selectedSrc new k || srcReady d (selectedSrc new k)) && (!rec_ || srcReady d 3)
    then .ok else .notReady

/-- Every selected source is ready (R489). -/
def allReady (c : Cfg) (d : Dev) : Bool := selectors.all (fun k => srcReady d (selectedSrc c k))

/-- Any selected source is lost (R506). -/
def anyLost (c : Cfg) (d : Dev) : Bool := selectors.any (fun k => d.srcLost.contains (selectedSrc c k))

/-- Links of enabled ports begin their bring-up. -/
def armLinks (c : Cfg) (lanes : List Nat) (d : Dev) : Dev :=
  lanes.foldl (fun d l => if portOn c d l && !(linkUp d l) then d.armNow .linkRetry l else d) d

/-! ### The trim of the internal oscillator (R490) -/

/-- One step of the trim per tick: at most one code, clamped; a lost trim source freezes it, and the tick neither counts nor resets. -/
def trimEdge (c : Cfg) (step : Int) (d : Dev) : Dev :=
  let src := if c.flag Fields.CLK_AON_TRIM_trim_src 0 then 4 else 0
  if d.srcLost.contains src then d
  else
    let lo := c.get Fields.CLK_AON_TRIM_trim_min 0
    let hi := c.get Fields.CLK_AON_TRIM_trim_max 0
    let old := d.get Fields.CLK_AON_TRIM_code 0
    let want : Int := (old : Int) + (if 0 < step then 1 else if step < 0 then -1 else 0)
    let new : Int := if want < lo then lo else if (hi : Int) < want then hi else want
    (d.set Fields.CLK_AON_TRIM_code 0 new.toNat).mark .trim 0 (if new = want then 2 else 1)

/-- TRIM_PINNED (R151, R490). -/
def execTrimPinned (s : State) : Outcome :=
  onDev (fun _ d => pinIf .trim 0 Fields.CLK_AON_TRIM_trim_pinned 0 .device .aonPinned 0 d) s

/-! ### QUIET (R493) -/

/-- ENTER_QUIET: a device with role NONE is in the state that its req_state asks for, RUN or QUIET. -/
def enterQuiet (c : Cfg) (d : Dev) : Dev :=
  if d.running && !(d.isPaired) && decide (c.get Fields.CLK_PWR_req_state 0 < 2) then
    d.set Fields.CLK_PWR_STAT_state 0 (c.get Fields.CLK_PWR_req_state 0)
  else d

/-- ENTER_QUIET. -/
def execEnterQuiet (s : State) : Outcome := onDev enterQuiet s

/-! ### PARK (R494, R495) -/

/-- The groves of a quadrant. -/
def quadGroves (q : Nat) : List Nat := (List.range 16).map (fun k => 16 * q + k)

/-- A grove of a quadrant that enters PARK: its transmitter is dark, its stands become ABSENT, its multicast lists go, its lanes lose their power. -/
def parkGrove (c : Cfg) (g : Nat) (d : Dev) : Dev :=
  let d := allAbsent c g (outOfService g d)
  (d.set Fields.LANE_PON_STATUS_tx_ready g 0).set Fields.LANE_PON_STATUS_rx_ready g 0

/-- A committed req_state asks an unpaired device for STANDBY (R493, R496). -/
def standbyAsked (c : Cfg) (d : Dev) : Bool := !(d.isPaired) && c.get Fields.CLK_PWR_req_state 0 == 2

/-- PARK_QUADRANT: the committed bit of park_mask parks the quadrant (R494), but where STANDBY has committed with it (R505). -/
def parkQuadrant (c : Cfg) (q : Nat) (d : Dev) : Dev :=
  if d.running && (c.get Fields.CLK_PWR_park_mask 0).testBit q && !(quadParked d q) && !(standbyAsked c d) then
    let d := (quadGroves q).foldl (fun d g => parkGrove c g d) (lanesIdle c (quadLanes q) d)
    (d.raiseBit Fields.CLK_PWR_STAT_parked 0 q).count .device .parks 0
  else d

/-- PARK_QUADRANT. -/
def execParkQuadrant (q : Fin 4) (s : State) : Outcome := onDev (fun c d => watchRecovered c (parkQuadrant c q) d) s

/-- UNPARK_QUADRANT: the cleared bit brings the quadrant back (R495): its uplink ports train again; its PON lanes are ready when their PLLs lock. -/
def unparkQuadrant (c : Cfg) (q : Nat) (d : Dev) : Dev :=
  if d.running && !((c.get Fields.CLK_PWR_park_mask 0).testBit q) && quadParked d q then
    let d := d.set Fields.CLK_PWR_STAT_parked 0 (d.get Fields.CLK_PWR_STAT_parked 0 - 2 ^ q)
    (armLinks c (quadLanes q) d).count .device .unparks 0
  else d

/-- UNPARK_QUADRANT. -/
def execUnparkQuadrant (q : Fin 4) (s : State) : Outcome := onDev (fun c d => unparkQuadrant c q d) s

/-- A write of CLK_PWR is checked (R494, R496, R508). That a paired device rejects every write of req_state (R493) is judged before it. -/
def pwrCheck (c : Cfg) (d : Dev) (w : Nat) : Status :=
  let st := bitsOf w 0 2
  let mask := bitsOf w 4 4
  if st = 3 ∨ mask = 15 then .badValue
  else if st = 2 ∧ d.get Fields.MATE_STATUS_pair_state 0 = 1 then .wrongState
  else if d.isPaired ∧ (List.range 64).any (fun g => (pairMask c).testBit g && mask.testBit (quadrantOf g)) = true then .wrongState
  else .ok

end Sys2Proof.Machine
end

