-- ==== Sys2Proof/Machine/Mate.lean ====
section
/-!
DEFINITION. The mate (spec file 15): pairing, the mirror and its application, offsets, liveness, takeover and its withdrawal, and the do-si-do.
-/

namespace Sys2Proof.Machine

/-! ### Small reads -/

/-- The role (R427): 0 NONE, 1 ACTIVE, 2 STANDBY. -/
def Dev.role (d : Dev) : Nat := d.get Fields.MATE_STATUS_role 0

/-- Change the mate logic's record. -/
def Dev.updMate (d : Dev) (f : Mate → Mate) : Dev := { d with mate := f d.mate }

/-- The paired groves, in ascending number. -/
def pairedGroves (c : Cfg) (d : Dev) : List Nat := (List.range 64).filter (pairedGrove c d)

/-- The largest loop delay of the paired groves. -/
def pairedLoop (c : Cfg) (d : Dev) : Nat := ((pairedGroves c d).map (tLoop d)).foldl max 0

/-- The mate's identity as software has written it (R428). -/
def peerId (c : Cfg) : Nat := ofBytesBE (wordBytes (c.words .MATE_PEER_ID 8))

/-- A silent Plaxon path (R441). -/
def plaxonGone (d : Dev) : Bool := d.expired .plaxonSilent 0 3

/-- A silent pin path (R441). -/
def pinGone (d : Dev) : Bool := d.expired .pinSilent 0 3

/-- Record a role change (MATE_LAST_SFC, MATE_LAST_CAUSE). -/
def noteRole (role cause : Nat) (d : Dev) : Dev :=
  ((d.set Fields.MATE_STATUS_role 0 role).set48 Fields.MATE_LAST_SFC_LO_sfc_lo Fields.MATE_LAST_SFC_HI_sfc_hi 0 d.sfc).set
    Fields.MATE_LAST_CAUSE_cause 0 cause

/-! ### Pairing (R426 to R429) -/

/-- The slots of the pair keys (R429): wrap key and frame key, and those of a pairing not yet confirmed. -/
def wrapSlot : Nat := 65280

/-- The pairing in progress ends without a pair (R428): the device is UNPAIRED, and shows the status. -/
def pairEnd (code : Nat) (d : Dev) : Dev :=
  let d := (d.set Fields.MATE_STATUS_pair_state 0 0).set Fields.MATE_PAIR_STAT_pair_status 0 code
  let d := (d.eraseSlot (wrapSlot + 2)).eraseSlot (wrapSlot + 3)
  (d.disarm .pairing 0).updMate (fun m => { m with step := 0, asked := false, scalar := 0, peerPub := 0 })

/-- A step fails here: the mate is told, so that both devices are UNPAIRED (R428; DESIGN CHOICE, log 94). -/
def pairFail (c : Cfg) (st : Status) (d : Dev) : Dev :=
  let d := pairEnd st.code d
  if mateUp c d then d.emit (.plaxonPair (.fail st.code)) else d

/-- What a device tells its mate in step 2. -/
def ownIdentity (c : Cfg) (d : Dev) : PairMsg :=
  .identity deviceId (c.get Fields.MATE_GRV_EN_LO_groves_lo 0) (c.get Fields.MATE_GRV_EN_HI_groves_hi 0)
    (((List.range 64).filter (fun g => (pairMask c).testBit g)).map (fun g => (g, c.word .GRV_MODE g % 4, tLoop d g)))

/-- Step 2 begins. The wait for the mate's next message starts afresh (DESIGN CHOICE, log 94). -/
def pairIdentify (c : Cfg) (d : Dev) : Dev :=
  ((d.armNext .pairing 0).updMate (fun m => { m with step := 2, asked := false })).emit (.plaxonPair (ownIdentity c d))

/-- An accepted pair_req (R428). -/
def pairReqRun (c : Cfg) (d : Dev) : Dev :=
  let d := (d.set Fields.MATE_STATUS_pair_state 0 1).armNext .pairing 0
  let d := (d.updMate (fun m => { m with step := 1 })).emit (.plaxonPair .req)
  if d.mate.asked && mateUp c d then pairIdentify c d else d

/-- The lower and the higher identity as bytes (R429). -/
def pairSalt (a b : Nat) : List Byte := toBytesBE 32 (min a b) ++ toBytesBE 32 (max a b)

/-- The pair keys of R429, kept apart until the confirmation. -/
def formPairKeys (c : Cfg) (d : Dev) : Dev :=
  let m := d.mate
  let ikm := toBytesBE 32 (Config.x25519 m.scalar m.peerPub) ++ toBytesBE 32 (Config.x25519 Config.rootScalar (peerId c))
  let key := fun (label : String) => Config.hkdf ikm (pairSalt deviceId (peerId c)) (ascii label)
  (d.writeSlot (wrapSlot + 2) (key "PAIR-WRAP") 0).writeSlot (wrapSlot + 3) (key "PAIR-FRAME") 0

/-- The confirmed keys replace the old ones (R429). -/
def movePairKeys (d : Dev) : Dev :=
  let d := (d.writeSlot wrapSlot (d.slots.getD (wrapSlot + 2) 0) 0).writeSlot (wrapSlot + 1) (d.slots.getD (wrapSlot + 3) 0) 0
  (d.eraseSlot (wrapSlot + 2)).eraseSlot (wrapSlot + 3)

/-- Any grove is in service. -/
def anyInService (d : Dev) : Bool := d.groves.any (fun p => p.2.inService)

/-- The identity of the mate is judged (R428, step 2). -/
def pairJudgeId (c : Cfg) (id lo hi : Nat) (modes : List (Nat × Nat × Nat)) (d : Dev) : Dev :=
  if id ≠ peerId c then pairFail c .integrity d
  else if PairMsg.identity id lo hi modes ≠ PairMsg.identity id (c.get Fields.MATE_GRV_EN_LO_groves_lo 0) (c.get Fields.MATE_GRV_EN_HI_groves_hi 0)
      (((List.range 64).filter (fun g => (pairMask c).testBit g)).map (fun g => (g, c.word .GRV_MODE g % 4, tLoop d g))) then pairFail c .badValue d
  else
    let (v, d) := d.draw (2 ^ 256)
    ((d.armNext .pairing 0).updMate (fun m => { m with step := 3, scalar := v, peerGroves := hi * 2 ^ 32 + lo })).emit (.plaxonPair (.publicValue (publicOf v)))

/-- The pair stands (R428, steps 5 and 6): the roles, and the watchdogs of the paths. -/
def pairDone (active : Bool) (d : Dev) : Dev :=
  let d := (d.set Fields.MATE_STATUS_pair_state 0 2).set Fields.MATE_PAIR_STAT_pair_status 0 0
  let d := (noteRole (if active then 1 else 2) 5 (movePairKeys d)).set Fields.MATE_STATUS_reference 0 active.toNat
  let d := (d.set Fields.MATE_STATUS_sync_done 0 0).set Fields.CLK_PWR_STAT_state 0 (if active then d.get Fields.CLK_PWR_STAT_state 0 else 1)
  let d := (((d.disarm .pairing 0).armNext .plaxonSilent 0).armNext .pinSilent 0)
  d.updMate (fun m => { m with step := 0, asked := false, scalar := 0, peerPub := 0, sent := [], bulkEnd := false, peerActive := !active })

/-- A stand position of a device that becomes the standby holds what the mirror brings and nothing of its own keep store (R157): it starts ABSENT and without keys
(DEDUCED, log 94). -/
def clearPosition (c : Cfg) (i : Nat) (d : Dev) : Dev :=
  if d.st i = .absent ∧ (d.keysOf i).ready = false then d
  else eraseKeys i (moveTo i .absent (clearStand i (stopTimers i (abandonAgreement c i (flushStand c i d)))))

/-- The tag of a confirmation under the new frame key (R428, R429), as the device with an identity forms it. -/
def confirmTag (d : Dev) (id : Nat) (up : Bool) (sfc : Nat) : Nat := Config.confirmTag (d.slots.getD (wrapSlot + 3) 0) id up sfc

/-- The confirmation of the mate is judged (R428, steps 4 to 6). The answer says whether this device becomes the standby. -/
def pairConfirm (c : Cfg) (tag : Nat) (peerUp : Bool) (sfc : Nat) (d : Dev) : Dev × Bool :=
  let own := anyInService d
  if tag ≠ confirmTag d (peerId c) peerUp sfc then (pairFail c .integrity d, false)
  else if own && peerUp then (pairFail c .wrongState d, false)
  else
    let active := own || (!peerUp && decide (deviceId < peerId c))
    if active then (pairDone true d, false)
    else
      let d := pairDone false { (if phaseSrc c = 2 then d else loseAlignment { d with srcEdge := none }) with sfc := sfc }
      (((d.life.map Prod.fst).filter (fun i => pairedGrove c d (groveOf i))).foldl (fun d i => clearPosition c i d) d, true)

/-- An edge numbered afresh: it keeps its distance from the counter. -/
def shiftEdge (old new e : Nat) : Nat := (new + 2 ^ 48 + e - old) % 2 ^ 48

/-- The standby takes the superframe counter of the active, and phase_src is MATE (R428, step 6). What is staged, and what R38 records of it, keeps its distance
from the counter. -/
def followMate (old new : Nat) (c : Cfg) : Cfg :=
  { c.set Fields.TICK_CTRL_phase_src 0 2 with
    staged := c.staged.map (fun w => { w with due := w.due.map (shiftEdge old new) })
    stages := c.stages.mapVals (fun _ x => if x.edge = 2 ^ 48 - 1 then x else { x with edge := shiftEdge old new x.edge }) }

/-- PAIRING_MESSAGE_RX: a message of the mate over a Plaxon west link that is up (R428). -/
def pairingMessage (msg : PairMsg) (s : State) : State :=
  let c := s.cfg
  let d := s.dev
  let busy := d.get Fields.MATE_STATUS_pair_state 0 == 1
  if !(mateUp c d) || d.isPaired || !(d.flag Fields.CLK_STRAP_mate_en 0) then s
  else
    match msg with
    | .req => s.withDev (if busy && d.mate.step == 1 then pairIdentify c d else d.updMate (fun m => { m with asked := true }))
    | .identity id lo hi modes => if busy && d.mate.step == 2 then s.withDev (pairJudgeId c id lo hi modes d) else s
    | .publicValue v =>
      if busy && d.mate.step == 3 then
        let d := formPairKeys c ((d.armNext .pairing 0).updMate (fun m => { m with peerPub := v, step := 4 }))
        s.withDev (d.emit (.plaxonPair (.confirm (confirmTag d deviceId (anyInService d) d.sfc) (anyInService d) d.sfc)))
      else s
    | .confirm tag up sfc =>
      if busy && d.mate.step == 4 then
        let r := pairConfirm c tag up sfc d
        if r.2 then { s with cfg := followMate d.sfc sfc c, dev := r.1 } else s.withDev r.1
      else s
    | .fail code => if busy then s.withDev (pairEnd code d) else s

/-- PAIRING_MESSAGE_RX. -/
def execPairingMessageRx (msg : PairMsg) (s : State) : Outcome := .next (pairingMessage msg s)

/-- PAIR_TIMEOUT: the mate's pair_req has not come within 8,000 ticks (R428, step 1). A later message of the mate is awaited as long (DESIGN CHOICE, log 94). -/
def pairTimeout (c : Cfg) (d : Dev) : Dev :=
  if d.get Fields.MATE_STATUS_pair_state 0 == 1 && d.expired .pairing 0 8000 then pairFail c .notReady d else d

/-- PAIR_TIMEOUT. -/
def execPairTimeout (s : State) : Outcome := onDev pairTimeout s

/-- Unpairing at an edge (R429, R454): the four slots are erased; a device that was STANDBY stays dark, in QUIET. -/
def unpairEdge (s : State) : State :=
  let d := s.dev
  if d.mate.unpairReq = false then s
  else
    let dark := d.isStandby
    let d := [0, 1, 2, 3].foldl (fun d k => d.eraseSlot (wrapSlot + k)) d
    let d := [Fields.MATE_STATUS_pair_state, Fields.MATE_STATUS_role, Fields.MATE_STATUS_reference, Fields.MATE_STATUS_sync_done,
      Fields.MATE_STATUS_plaxon_silent, Fields.MATE_STATUS_pin_silent, Fields.MATE_STATUS_fibre_master].foldl (fun d x => d.set x 0 0) d
    let d := (((d.disarm .pairing 0).disarm .plaxonSilent 0).disarm .pinSilent 0)
    let d := { freeHeld d.mate.held d with mate := { Mate.reset with hbOut := d.mate.hbOut } }
    if dark then { s with cfg := s.cfg.set Fields.CLK_PWR_req_state 0 1, dev := d.set Fields.CLK_PWR_STAT_state 0 1 } else s.withDev d

/-! ### The mirrored state (R430, R434, R435) -/

/-- The digest of a bough's configuration (BGH_DIGEST). -/
def bghDigest (c : Cfg) (b : Nat) : Nat :=
  let ctl := c.word .BGH_CTRL b % 2 ^ 31 + (fixedPos c b).toNat * 2 ^ 31
  crc32c (wordBytes [c.word .BGH_BIND b, ctl, c.word .BGH_FIXED b, c.word .BGH_ASSURED b, c.word .BGH_MAX b, c.word .BGH_POLL b, c.word .BGH_PRED b])

/-- The registers that a digest covers. -/
def digestRegs : List Reg := [.BGH_BIND, .BGH_CTRL, .BGH_FIXED, .BGH_ASSURED, .BGH_MAX, .BGH_POLL, .BGH_PRED]

/-- The boughs whose configuration is not that of reset: their digests are what a bulk transfer holds, and every other one is that of reset (R430, R432). -/
def digestBoughs (c : Cfg) : List Nat := (digestRegs.flatMap (fun r => (c.listed r).map Prod.fst)).eraseDups

/-- The digest of a bough as reset leaves it. -/
def resetDigest : Nat := bghDigest Cfg.reset 65535

/-- The bough of a digest that a mirror frame carried. -/
def digestOf : MirrorItem → Option Nat
  | .digest b _ => some b
  | _ => none

/-- The digests of the mirror (R430): of every bough configured otherwise than at reset, and of those whose digests were sent before. -/
def digestItems (c : Cfg) (sent : List MirrorItem) : List MirrorItem :=
  let now := digestBoughs c
  (now ++ (sent.filterMap digestOf).filter (fun b => !(now.contains b))).map (fun b => .digest b (bghDigest c b))

/-- The flags of STD_STATE that are mirrored: tag_silenced, dying_gasp and lost. -/
def standFlags (d : Dev) (i : Nat) : Nat :=
  d.get Fields.STD_STATE_lost i + 2 * d.get Fields.STD_STATE_dying_gasp i + 4 * d.get Fields.STD_STATE_tag_silenced i

/-- The key under which secrets are mirrored (R429). -/
def wrapKey (d : Dev) : Nat := d.slots.getD wrapSlot 0

/-- A preset as numbers. -/
def presetNums (p : Preset) : List Int := p.ffe ++ [p.dfe, (p.ctle : Int), (p.samp : Int), (p.vga : Int)]

/-- A preset from its numbers. -/
def numsPreset (l : List Int) : Preset :=
  { ffe := l.take 8, dfe := l.getD 8 0, ctle := (l.getD 9 0).toNat, samp := (l.getD 10 0).toNat, vga := (l.getD 11 0).toNat }

/-- The items of one stand. -/
def standItems (c : Cfg) (d : Dev) (i : Nat) : List MirrorItem :=
  let l := d.lifeOf i
  let r := d.rngOf i
  let k := d.keysOf i
  let ep := fun (e : Nat) => if (k.ep e).held then [MirrorItem.epoch i e (some (Config.keyWrap (wrapKey d) (d.slots.getD (slotOf i e) 0)))] else []
  [.stand i l.st.ctorIdx l.serial (standFlags d i) (if l.st = .resting then l.wake else 0),
   .delay i r.eqd r.learned r.precoder (presetNums (presetFor c d i))] ++ ep 0 ++ ep 1 ++ (if k.ready then [.current i k.cur] else [])

/-- The items of a shared key: its epochs that are held, and the current one. -/
def sharedItems (d : Dev) (k : Nat) : List MirrorItem :=
  [0, 1].filterMap (fun e => (d.slots.get? (sharedSlot k e)).map (fun v => MirrorItem.shared k e (some (Config.keyWrap (wrapKey d) v))))
    ++ (if (d.sharedOf k).valid then [.sharedCur k (d.sharedOf k).epoch] else [])

/-- The whole mirrored state (R430): the stands of the paired groves, the digests, the wrapped keys and the ceilings. -/
def mirrorItems (c : Cfg) (d : Dev) : List MirrorItem :=
  ((d.life.map Prod.fst).filter (fun i => pairedGrove c d (groveOf i))).flatMap (standItems c d)
    ++ digestItems c d.mate.sent
    ++ (d.shared.map Prod.fst).flatMap (sharedItems d)
    ++ d.ceil.map (fun p => .ceiling p.1 p.2)

/-- What tells the mate that a key is gone. -/
def goneItem : MirrorItem → Option MirrorItem
  | .epoch i e (some _) => some (.epoch i e none)
  | .shared k e (some _) => some (.shared k e none)
  | _ => none

/-- Two items speak of the same key. -/
def sameKey : MirrorItem → MirrorItem → Bool
  | .epoch i e _, .epoch j f _ => i == j && e == f
  | .shared k e _, .shared j f _ => k == j && e == f
  | _, _ => false

/-- The changes since the last mirror frame. -/
def mirrorChanges (old new : List MirrorItem) : List MirrorItem :=
  new.filter (fun x => !(old.contains x)) ++ (old.filter (fun x => !(new.any (sameKey x)))).filterMap goneItem

/-- An entry as a mirror frame carries it. -/
def mirrorEntry (e : MapEntry) : MirrorEntry :=
  { stand := e.stand, start := e.start, len := e.len, cls := e.cls, rpt := e.rpt, msg := e.msg, runs := e.runs.map (fun r => (r.idx, r.len)) }

/-- The replay mark of a grove at edge n (R435). -/
def replayMark (c : Cfg) (d : Dev) (g n : Nat) : Nat :=
  let qs := (d.queues.map Prod.fst).filter (fun q => c.flag Fields.BUF_Q_CFG_shadow_en q)
  let mine := fun (q : Nat) (p : QPkt) => (shadowGroves c d q p.uid).contains g
  let waiting := qs.flatMap (fun q => let x := d.queue q; ((x.head ++ x.deep ++ x.tail ++ x.held).filter (mine q)).map QPkt.tick)
    ++ (d.replayWait.getD g []).map ShadowEnt.tick
  let sending := ((d.mate.handed.getD g []).filter (fun e => decide (n ≤ e.1))).map Prod.snd
  (waiting ++ sending).foldl min n

/-- The per-grove part of the active's mirror frame of edge n. -/
def mirrorGrove (c : Cfg) (d : Dev) (n g : Nat) : MirrorGrove :=
  { g := g, d := n - 1, mark := replayMark c d g n, ud := n - tLoop d g - 2, frame := n
    map := (((d.grove g).maps.find? (fun m => m.frame == n)).map (fun m => m.entries.map mirrorEntry)).getD [] }

/-- The tag of a mirror frame (R430): AES-256-GCM under the frame key, with the superframe number, the sender's role (1 for the active; DESIGN CHOICE, log 94) and
zero bits as its IV. -/
def mirrorTag (d : Dev) (m : MirrorFrame) : Nat :=
  (Config.gcmSeal (d.slots.getD (wrapSlot + 1) 0) (m.n * 2 ^ 48 + m.active.toNat * 2 ^ 47) [] (Config.mirrorText { m with tag := 0 })).2

/-- A mirror frame of this edge (R430): a heartbeat with what else it carries, sealed. -/
def sealMirror (d : Dev) (ready : Bool) (items : List MirrorItem) (groves : List MirrorGrove) (swap : Option Nat) : MirrorFrame :=
  let m : MirrorFrame :=
    { tag := 0, n := d.sfc, active := d.role == 1, phase := d.get Fields.TICK_PHASE_ERR_phase_err 0, sealedAt := d.clock, items := items, groves := groves
      bulk := d.role == 1, ready := ready, swap := swap }
  { m with tag := mirrorTag d m }

/-- At step 7 of an edge a paired device sends its mirror frame (R430); the standby's carries its readiness and its answer. -/
def mirrorSend (c : Cfg) (d : Dev) : Dev :=
  if d.isPaired && mateUp c d then
    let n := d.sfc
    let d := d.count .device .mirrorTx 0
    if d.role = 1 then
      let all := mirrorItems c d
      let gs := (pairedGroves c d).map (mirrorGrove c d n)
      let d := d.emit (.plaxonMirror (sealMirror d false (mirrorChanges d.mate.sent all) gs d.mate.swapAt))
      let d := d.updMate (fun m => { m with sent := all, bulkEnd := true })
      gs.foldl (fun d x => d.updMate (fun m => { m with dlv := m.dlv.put x.g { d := x.d, mark := x.mark, ud := x.ud } })) d
    else d.emit (.plaxonMirror (sealMirror d (d.mate.swapOk == some true) [] [] (if d.mate.swapOk.isSome then d.mate.swapAt else none)))
  else d

/-! ### Applying a mirror frame (R431, R433, R434, R436) -/

/-- What a mirrored transition tells of the stand's ranging: from ACTIVE it ranges again (R169), a new stand or one that was SILENCED ranges for the first time (R139, R171),
and one that leaves RESTING for ACTIVE gets a ranging twig (R148). -/
def noteMirrored (i : Nat) (old new : StandSt) (d : Dev) : Dev :=
  if new = .ranging then
    d.updRng i (fun r => { r with reacq := if old = .active then some true else if old = .discovered ∨ old = .silenced then some false else none })
  else if old = .resting ∧ new = .active then d.updRng i (fun r => { r with twigDue := true })
  else d

/-- A stand as mirrored: its state, serial, flags and wake edge. A stand that leaves service takes its traffic with it. -/
def applyStand (c : Cfg) (i st serial flags wake : Nat) (d : Dev) : Dev :=
  let new := ([StandSt.absent, .discovered, .ranging, .active, .resting, .silenced][st]?).getD .absent
  let d := if d.st i = new then d
    else if new = .absent ∨ new = .silenced then moveTo i new (clearStand i (stopTimers i (flushStand c i d)))
    else moveTo i new (noteMirrored i (d.st i) new d)
  let d := d.updLife i (fun l => { l with serial := serial, wake := wake
                                          rest := [] })
  ((d.set Fields.STD_STATE_lost i (flags % 2)).set Fields.STD_STATE_dying_gasp i (flags / 2 % 2)).set Fields.STD_STATE_tag_silenced i (flags / 4 % 2)

/-- The stand whose keep-store record a mirrored item has rewritten (R154): at its entry to ACTIVE, and with every change of its epochs. -/
def keptItem (d : Dev) : MirrorItem → Option Nat
  | .stand i st _ _ _ => if st = StandSt.active.ctorIdx ∧ d.st i ≠ .active then some i else none
  | .epoch i _ _ => some i
  | .current i _ => some i
  | _ => none

/-- A shared key as mirrored: an epoch other than the current one waits for its use. -/
def applyShared (k e : Nat) (wrapped : Option Nat) (d : Dev) : Dev :=
  match wrapped with
  | some w =>
    match Config.keyUnwrap (wrapKey d) w with
    | some v =>
      (d.writeSlot (sharedSlot k e) v 0).updShared k (fun s =>
        if s.valid then (if s.epoch = e then s else { s with pending := true }) else { s with pending := true, epoch := e })
    | none => d
  | none => d.eraseSlot (sharedSlot k e)

/-- The current epoch of a shared key as mirrored: the key in use, which may be its first. -/
def applySharedCur (k e : Nat) (d : Dev) : Dev :=
  d.updShared k (fun s => if s.valid && s.epoch == e then s else { s with valid := true, epoch := e, pending := false })

/-- One mirrored item is applied. -/
def applyItem (c : Cfg) (d : Dev) : MirrorItem → Dev
  | .stand i st serial flags wake => applyStand c i st serial flags wake d
  | .delay i eqd learned precoder preset => d.updRng i (fun r => { r with eqd := eqd, learned := learned, precoder := precoder, preset := some (numsPreset preset)
                                                                          loopSum := tLoop d (groveOf i) * tickUnits c (groveOf i) - eqd, learnSamp := (numsPreset preset).samp })
  | .digest b v => d.updMate (fun m => { m with digests := m.digests.put b v })
  | .epoch i e (some w) =>
    match Config.keyUnwrap (wrapKey d) w with
    | some v => installEpoch i e v 0 d
    | none => d
  | .epoch i e none => (eraseEpoch i e d).updKeys i (fun k =>
      { k with ready := k.ready && !(k.cur == e), retiring := k.retiring.filter (fun x => !(x == e)) })
  | .current i e => d.updKeys i (fun k =>
      { k with cur := e, ready := true, curFrom := d.sfc, retiring := if k.ready && !(k.cur == e) then some k.cur else k.retiring })
  | .ceiling slot v => { d with ceil := d.ceil.put slot v }
  | .shared k e w => applyShared k e w d
  | .sharedCur k e => applySharedCur k e d

/-- An entry has the shape of a ranging grant (R140), which a ranging twig without data has too (R148). -/
def rangingShape (e : MirrorEntry) : Bool :=
  e.stand < 256 && !e.rpt && e.msg && e.runs == [(0, 3)] && ((e.cls == 0 && e.len == 10) || (e.cls == 1 && e.len == 22))

/-- The entry of a mirrored map as the burst receiver uses it: a slice twig is known by its stand and its place, a ranging grant by its shape (R140; DEDUCED, log 94). -/
def receiveEntry (c : Cfg) (d : Dev) (g : Nat) (e : MirrorEntry) : MapEntry :=
  match (activeSlices c d g).find? (fun x => x.stand == e.stand && x.start == e.start) with
  | some x => x
  | none =>
    { kind := if 256 ≤ e.stand then .discovery else if rangingShape e then .rangingGrant else .ordinary, stand := e.stand, start := e.start, len := e.len, cls := e.cls, rpt := e.rpt, msg := e.msg
      runs := e.runs.map (fun r => { idx := r.1, len := r.2, bough := (boughAt c (standId g e.stand) r.1).getD 65536, granted := r.2 }) }

/-- The first ordinary twig of each stand that has left RESTING is its ranging twig (R148). -/
def markTwigs (d : Dev) (g : Nat) (es : List MapEntry) : List MapEntry :=
  es.zipIdx.map (fun p =>
    if p.1.kind = .ordinary ∧ p.1.stand < 256 ∧ (d.rngOf (standId g p.1.stand)).twigDue
        ∧ (es.take p.2).any (fun x => x.kind == .ordinary && x.stand == p.1.stand) = false then { p.1 with kind := .rangingTwig }
    else p.1)

/-- A grove's part of a mirror frame is applied: the counters, the map to hear upstream frames by, and the release of what is held (R433, R436). -/
def applyGrove (c : Cfg) (x : MirrorGrove) (d : Dev) : Dev :=
  let done := fun (h : HeldUp) => h.grove == x.g && decide (h.frame ≤ x.ud)
  let d := freeHeld (d.mate.held.filter done) (d.updMate (fun m =>
    { m with dlv := m.dlv.put x.g { d := x.d, mark := x.mark, ud := x.ud }
             held := m.held.filter (fun h => !(done h))
             lastMap := max m.lastMap x.frame }))
  let es := markTwigs d x.g (x.map.map (receiveEntry c d x.g))
  let d := (es.filter (fun e => e.kind == .rangingTwig)).foldl (fun d e => d.updRng (standId x.g e.stand) (fun r => { r with twigDue := false })) d
  d.updGrove x.g (fun y =>
    { y with maps := y.maps.filter (fun m => !(m.frame == x.frame)) ++ [{ frame := x.frame, kind := .mirror, entries := es, got := [], tloop := tLoop d x.g
                                                                          precoder := c.flag Fields.GRV_DS_CTRL_precoder_en x.g }] })

/-- The items of a mirror frame are applied, and the records that they change are written (R154). -/
def applyItems (c : Cfg) (items : List MirrorItem) (d : Dev) : Dev :=
  ((items.filterMap (keptItem d)).eraseDups).foldl (fun d i => keepWrite c i d) (items.foldl (applyItem c) d)

/-- A verified mirror frame is applied at the edge (R431): the standby takes the active's; the active takes the standby's answer (R447). -/
def applyMirror (c : Cfg) (m : MirrorFrame) (d : Dev) : Dev :=
  let d := d.updMate (fun x => { x with peerActive := m.active })
  if d.role = 2 then
    if m.active then
      let d := applyItems c m.items d
      let d := m.groves.foldl (fun d x => if pairedGrove c d x.g then applyGrove c x d else d) d
      d.updMate (fun x =>
        { x with bulkEnd := x.bulkEnd || m.bulk, swapAt := m.swap, swapOk := if m.swap.isSome ∧ m.swap = x.swapAt then x.swapOk else none })
    else d
  else if d.role = 1 ∧ !m.active ∧ m.swap.isSome ∧ m.swap = d.mate.swapAt then
    if m.ready then d.updMate (fun x => { x with swapOk := some true })
    else (d.updMate (fun x => { x with swapAt := none, swapOk := none })).count .device .dsdDeclined 0
  else d

/-- The mirror frames received in the tick that the edge closes (R431). -/
def mirrorEdge (c : Cfg) (d : Dev) : Dev :=
  let ms := d.mate.frames
  ms.foldl (fun d m => applyMirror c m d) (d.updMate (fun x => { x with frames := [] }))

/-- MIRROR_FRAME_RX: a bad tag is discarded and is no heartbeat (R430); a good frame waits for the edge. Under MATE it counts as an edge of the source for src_lost,
whether or not its phase is measured (R52; DESIGN CHOICE, log 28). -/
def mirrorFrameRx (c : Cfg) (m : MirrorFrame) (d : Dev) : Dev :=
  if d.isPaired && mateUp c d then
    if m.tag = mirrorTag d m then
      let d := (d.count .device .mirrorRx 0).arrive .plaxonSilent 0
      let d := if phaseSrc c = 2 then d.arrive .alignSrc 0 else d
      d.updMate (fun x => { x with frames := x.frames ++ [m] })
    else d.count .device .mirrorAuthFail 0
  else d

/-- MIRROR_FRAME_RX. -/
def execMirrorFrameRx (m : MirrorFrame) (s : State) : Outcome := onDev (fun c d => mirrorFrameRx c m d) s

/-- HB_IN_EDGE (R441). -/
def execHbInEdge (s : State) : Outcome := onDev (fun _ d => d.arrive .pinSilent 0) s

/-- SYNC_DONE: the standby has applied the whole transfer (R432). The active, whose state it is, holds it from its own transfer on. -/
def syncDone (d : Dev) : Dev := if d.isPaired && d.mate.bulkEnd then d.set Fields.MATE_STATUS_sync_done 0 1 else d

/-- SYNC_DONE. -/
def execSyncDone (s : State) : Outcome := onDev (fun _ d => syncDone d) s

/-- The boughs whose digests differ from the mirrored ones (R434): a bough of which the transfer brought no digest has that of reset. -/
def digestsDiffer (c : Cfg) (d : Dev) : List Nat :=
  let own := if d.mate.bulkEnd then (digestBoughs c).filter (fun b => (d.mate.digests.get? b).isNone && !(bghDigest c b == resetDigest)) else []
  ((d.mate.digests.filter (fun p => !(p.2 == bghDigest c p.1))).map Prod.fst ++ own).mergeSort (fun a b => decide (a ≤ b))

/-- The digests at an edge (R434): each bough whose digests come to differ is counted. -/
def digestEdge (c : Cfg) (d : Dev) : Dev :=
  if d.isStandby then
    let bad := digestsDiffer c d
    let new := bad.countP (fun b => !(d.mate.differ.contains b))
    let d := (d.set Fields.MATE_DIG_STAT_mismatched 0 bad.length).set Fields.MATE_DIG_FIRST_bough 0 (bad.headD 0)
    (d.updMate (fun m => { m with differ := bad })).count .device .digestMismatch 0 new
  else d

/-! ### Mate offsets (R437 to R439) -/

/-- A number held within a bound on both sides. -/
def clampOfs (c : Cfg) (v : Int) : Int :=
  let b : Int := c.get Fields.MATE_OFS_MAX_ofs_max 0
  if v < -b then -b else if b < v then b else v

/-- Change the offsets of a grove. -/
def updOfs (g : Nat) (f : MateOfs → MateOfs) (d : Dev) : Dev := d.updMate (fun m => { m with ofs := m.ofs.put g (f (d.ofs g)) })

/-- The offsets of a grove at an edge: a standby adjusts u, and w with it until w has been learned; a new active sums the phases that it learns w from. -/
def offsetEdge (c : Cfg) (g : Nat) (d : Dev) : Dev :=
  let o := d.ofs g
  if o.phases.isEmpty then d
  else
    let d := updOfs g (fun o => { o with phases := [] }) d
    if d.isStandby then
      let want := o.u + (o.phases.sum).tdiv o.phases.length
      let u := clampOfs c want
      let d := d.mark .offset g (if u = want then 2 else 1)
      updOfs g (fun o => { o with u := u, w := if o.learned then o.w else u }) d
    else updOfs g (fun o => { o with sum := o.sum + o.phases.sum, num := o.num + o.phases.length }) d

/-- OFFSET_PINNED (R151, R438). -/
def execOffsetPinned (g : Fin 64) (s : State) : Outcome :=
  onDev (fun _ d => pinIf .offset g Fields.MATE_OFS_DS_pinned g .grove .ofsPinned g d) s

/-- Learn w of a grove from the phases summed up. -/
def learnOfs (c : Cfg) (g : Nat) (d : Dev) : Dev :=
  updOfs g (fun o => { o with w := clampOfs c (o.w + o.sum.tdiv o.num), learned := true, sum := 0, num := 0 }) d

/-- OFFSET_LEARN: at the edge that judges frame t + 7 (R439). -/
def offsetLearn (c : Cfg) (d : Dev) : Dev :=
  match d.mate.learnFrom with
  | some t =>
    if d.role = 1 ∧ t + 8 + pairedLoop c d ≤ d.sfc then
      ((pairedGroves c d).foldl (fun d g => learnOfs c g d) d).updMate (fun m => { m with learnFrom := none })
    else d
  | none => d

/-- OFFSET_LEARN. -/
def execOffsetLearn (s : State) : Outcome := onDev offsetLearn s

/-! ### Liveness (R441, R442, R451) -/

/-- PLAXON_SILENT: the watchdog has expired. -/
def plaxonSilent (d : Dev) : Dev :=
  if d.isPaired && plaxonGone d && !(d.flag Fields.MATE_STATUS_plaxon_silent 0) then
    (d.set Fields.MATE_STATUS_plaxon_silent 0 1).count .device .plaxonSilentEvents 0
  else d

/-- PLAXON_SILENT. -/
def execPlaxonSilent (s : State) : Outcome := onDev (fun _ d => plaxonSilent d) s

/-- PIN_SILENT: the watchdog has expired. -/
def pinSilent (d : Dev) : Dev :=
  if d.isPaired && pinGone d && !(d.flag Fields.MATE_STATUS_pin_silent 0) then
    (d.set Fields.MATE_STATUS_pin_silent 0 1).count .device .pinSilentEvents 0
  else d

/-- PIN_SILENT. -/
def execPinSilent (s : State) : Outcome := onDev (fun _ d => pinSilent d) s

/-- The revert window of a do-si-do runs (R449): up to the edge that judges frame s + 7 on the grove with the longest loop. -/
def revertWindow (c : Cfg) (d : Dev) : Bool :=
  match d.mate.revert with
  | some s => decide (d.sfc ≤ s + pairedLoop c d + 8)
  | none => false

/-- The judgement of the paths at an edge (R442, R451), after the timers: alarms of a standby, mate_lost of an active. Paths that have heard something are no
longer silent. -/
def judgePaths (c : Cfg) (d : Dev) : Dev :=
  let d := d.set Fields.MATE_STATUS_fibre_master 0 d.mate.fibreNow.toNat
  let d := d.updMate (fun m => { m with fibreNow := false })
  let p := plaxonGone d
  let q := pinGone d
  let d := if p then d else d.set Fields.MATE_STATUS_plaxon_silent 0 0
  let d := if q then d else d.set Fields.MATE_STATUS_pin_silent 0 0
  if d.role = 2 ∧ d.flag Fields.MATE_STATUS_sync_done 0 ∧ c.flag Fields.MATE_CTRL_auto_takeover 0 then
    if p && q then
      if d.flag Fields.MATE_STATUS_fibre_master 0 then (d.raise Fields.MATE_STATUS_split_alarm 0).count .device .splitAlarms 0 else d
    else if p || q then (d.raise Fields.MATE_STATUS_path_alarm 0).count .device .pathAlarms 0
    else d
  else if d.role = 1 ∧ p ∧ q then
    let d := d.raise Fields.MATE_STATUS_mate_lost 0
    if revertWindow c d then d.raise Fields.MATE_STATUS_dsd_fault 0 else d
  else d

/-! ### Role changes (R443, R444, R448) -/

/-- The grove's built frame leaves at the edge (R443, step 1): its map is the device's own now. A grove without one enters service as R630 says. -/
def takeGrove (c : Cfg) (g : Nat) (d : Dev) : Dev :=
  if txOn c d g then
    let d := d.updGrove g (fun x => { x with inService := true, since := d.sfc, fastEvent := some d.sfc })
    match (d.grove g).frame with
    | some fr =>
      if fr.sfc = d.sfc then
        let kind : MapKind := if (clearingAt d g fr.sfc).isSome then .clearing else .engine
        putOnAir c g fr (sealMap c g fr.sfc kind fr.map d)
      else putOnAir c g { fr with sfc := d.sfc, map := [], mapWords := 0 } d
    | none => sendFrame c g (firstFrame c g d)
  else d

/-- The timer under which a stand ranges after a takeover (R144, R443): that of re-acquisition where the mirror has shown it to range again, or where nothing of it was seen
but it is lost or holds its keys (DEDUCED, log 94). -/
def rangingTimer (d : Dev) (i : Nat) : TimerKind :=
  if ((d.rngOf i).reacq).getD (d.flag Fields.STD_STATE_lost i || (d.keysOf i).ready) then .reacq else .rng

/-- A stand's downstream counters resume at the mirrored ceilings (R417), and what has passed 2^47 while the device was the standby warns (R400). -/
def resumeCounters (c : Cfg) (i : Nat) (d : Dev) : Dev :=
  let d := [0, 1].foldl (fun d e =>
    if ((d.keysOf i).ep e).held then d.updKeys i (fun k => k.updEp e (fun x => { x with dsCtr := max x.dsCtr (d.ceil.getD (slotOf i e) 0) })) else d) d
  let now := (d.keysOf i).ep (d.keysOf i).cur
  if now.held && (decide (2 ^ 47 ≤ now.dsCtr) || decide (2 ^ 47 ≤ now.usHigh)) then ctrWarn c i d else d

/-- A stand's timers start afresh, the rekey interval among them (R409), and its agreement from its offer (R443, steps 2 and 3): an epoch that is held beside the current one has been half installed by
an agreement in progress, unless the mirror has shown it current before (R410). -/
def resumeStand (c : Cfg) (i : Nat) (d : Dev) : Dev :=
  let d : Dev := match d.st i with
    | .discovered => d.armNow .disc i
    | .ranging => (d.armNow (rangingTimer d i) i).updRng i (fun r => { r with grantDue := true, attempts := 0 })
    | .active => d.armNow .lost i
    | .silenced =>
      if d.flag Fields.STD_STATE_tag_silenced i && !(c.get Fields.GRV_STD_SILENCE_T_silence_ticks (groveOf i) == 0) then d.armNow .silence i else d
    | _ => d
  let d := resumeCounters c i (if (d.keysOf i).ready then d.updKeys i (fun k => { k with lastDone := some d.sfc }) else d)
  let k := d.keysOf i
  if d.st i = .ranging ∧ k.ready = false then startAgreement i false (abandonAgreement c i d)
  else if agreeing d i then startAgreement i true (abandonAgreement c i d)
  else if k.retiring.isSome then d.armNow .retire i
  else if k.ready && (k.ep (1 - k.cur)).held then startAgreement i true (keepWrite c i (eraseEpoch i (1 - k.cur) d))
  else d

/-- A shared key resumes at its mirrored ceiling (R417, R443), and warns where that has passed 2^47 (R400). One that waited for its use is delivered afresh to all that need
it, since the mirror does not say whom it has reached; the former epoch of one in use is erased retire_ticks on (R412; DESIGN CHOICE, log 94). -/
def resumeKey (c : Cfg) (d : Dev) (k : Nat) : Dev :=
  let d := d.updShared k (fun s => { s with ctr := max s.ctr (d.ceil.getD (sharedSlot k s.epoch) 0) })
  let s := d.sharedOf k
  let dest := needKey c d k
  let d := if s.pending then
      dest.foldl (fun d i => deliverKey c k i d)
        (d.updShared k (fun s => { s with deliver := dest, switchAt := if dest.isEmpty then some (d.sfc + 16) else none }))
    else if s.valid && (d.slots.get? (sharedSlot k (1 - s.epoch))).isSome then
      d.updShared k (fun s => { s with eraseAt := some (d.sfc + c.get Fields.KEY_TIMERS_retire_ticks 0) })
    else d
  if k < 512 ∧ s.valid ∧ 2 ^ 47 ≤ s.ctr then groupWarn c k d else d

/-- The shared keys resume. -/
def resumeShared (c : Cfg) (d : Dev) : Dev := (d.shared.map Prod.fst).foldl (fun d k => resumeKey c d k) d

/-- The shadow ring of a grove is replayed from tick M − 1 on (R443, step 4): in order of admission, ahead of later arrivals. What finds no near buffer waits (R341). -/
def replayGrove (c : Cfg) (g : Nat) (d : Dev) : Dev :=
  let from_ := (d.mate.dlv.getD g { d := 0, mark := d.sfc, ud := 0 }).mark - 1
  let d := shadowRelease g d
  let all := d.replay.getD g [] ++ d.shadow.getD g []
  let d := match all with
    | e :: _ => if from_ < e.tick then d.count .grove .replayShort g else d
    | [] => d
  replayAll c g (all.filter (fun e => decide (from_ ≤ e.tick))) { d with shadow := d.shadow.erase g, replay := d.replay.erase g }

/-- Put a held packet behind those of its frame and of earlier ones. -/
def insertHeld (h : HeldUp) : List HeldUp → List HeldUp
  | [] => [h]
  | x :: t => if h.frame < x.frame then h :: x :: t else x :: insertHeld h t

/-- The held upstream packets are forwarded in frame order (R443, step 5). -/
def forwardHeld (d : Dev) : Dev :=
  let hs := d.mate.held.foldl (fun l h => insertHeld h l) []
  hs.foldl (fun d h => enterPipe (upPipe h.grove) h.pkt d) (freeHeld hs (d.updMate (fun m => { m with held := [] })))

/-- The standby becomes ACTIVE at the edge in progress (R443, R448). -/
def becomeActive (c : Cfg) (cause : Nat) (d : Dev) : Dev :=
  let known := (mirrorItems c d).filter (fun x => (digestOf x).isNone)
  let d := ((noteRole 1 cause d).set Fields.CLK_PWR_STAT_state 0 0).updMate (fun m => { m with swapAt := none, swapOk := none })
  let gs := pairedGroves c d
  let d := gs.foldl (fun d g => takeGrove c g d) d
  let d := ((d.life.map Prod.fst).filter (fun i => gs.contains (groveOf i))).foldl (fun d i => resumeStand c i d) d
  let d := gs.foldl (fun d g => replayGrove c g d) (resumeShared c d)
  let d := forwardHeld d
  let d := d.updMate (fun m =>
    { m with wideFrom := some d.sfc, learnFrom := if d.flag Fields.MATE_STATUS_reference 0 then none else some d.sfc
             ofs := m.ofs.mapVals (fun _ o => { o with sum := 0, num := 0, phases := [] }) })
  d.updMate (fun m => { m with sent := known })

/-- The active becomes STANDBY: it sends nothing further; its stands keep their states. -/
def becomeStandby (cause : Nat) (d : Dev) : Dev :=
  let d := (noteRole 2 cause d).set Fields.CLK_PWR_STAT_state 0 1
  let d := (d.groves.map Prod.fst).foldl (fun d g => outOfService g d) d
  let d := (d.life.map Prod.fst).foldl (fun d i => stopTimers i d) d
  d.updMate (fun m => { m with swapAt := none, swapOk := none, learnFrom := none, wideFrom := none, witness := false, tookAt := none })

/-- An accepted resume at the first edge behind it (R489, R506): the outputs are released, or the resume is counted as refused. A paired device that the core reference
had darkened becomes the standby, which is in QUIET (R427); the registers of the last role change show no cause (DESIGN CHOICE, log 70). -/
def resumeEdge (c : Cfg) (d : Dev) : Dev :=
  if d.resumeReq = false then d
  else
    let d := { d with resumeReq := false }
    if anyLost c d then d.count .device .resumeRefused 0
    else
      let core := coreSafe d
      let d := armLinks c (List.range 64) (showSafe { d with safeOut := [] })
      if core then
        let d := d.set Fields.CLK_STATUS_holdover 0 0
        if d.isPaired && !(d.isStandby) then becomeStandby 0 d else d
      else d

/-- TAKEOVER: both paths silent and no active master on the fibre (R442, R443, R453). -/
def takeover (c : Cfg) (d : Dev) : Dev :=
  let withdrawn := d.get Fields.MATE_LAST_CAUSE_cause 0 == 2
    && d.get Fields.MATE_LAST_SFC_HI_sfc_hi 0 * 2 ^ 32 + d.get Fields.MATE_LAST_SFC_LO_sfc_lo 0 == d.sfc
  if d.running && d.isStandby && d.flag Fields.MATE_STATUS_sync_done 0 && c.flag Fields.MATE_CTRL_auto_takeover 0 && plaxonGone d && pinGone d
      && !(d.flag Fields.MATE_STATUS_fibre_master 0) && !withdrawn && d.clock == 0 then
    (becomeActive c 1 (d.count .device .takeovers 0)).updMate (fun m => { m with tookAt := some d.sfc, witness := true })
  else d

/-- TAKEOVER. -/
def execTakeover (s : State) : Outcome := onDev takeover s

/-- TAKEOVER_WITHDRAW: a witness frame has shown an active master (R444). -/
def takeoverWithdraw (c : Cfg) (d : Dev) : Dev :=
  match d.mate.tookAt with
  | some t =>
    if d.role = 1 ∧ d.mate.witness ∧ d.flag Fields.MATE_STATUS_fibre_master 0 ∧ t < d.sfc ∧ d.sfc ≤ t + pairedLoop c d then
      let d := ((d.raise Fields.MATE_STATUS_split_alarm 0).count .device .splitAlarms 0).count .device .takeoverWithdrawn 0
      becomeStandby 2 d
    else d
  | none => d

/-- TAKEOVER_WITHDRAW. -/
def execTakeoverWithdraw (s : State) : Outcome := onDev takeoverWithdraw s

/-- The takeover stands once its last witness frame has been judged (R444). -/
def witnessEdge (c : Cfg) (d : Dev) : Dev :=
  match d.mate.tookAt with
  | some t => if t + pairedLoop c d < d.sfc then d.updMate (fun m => { m with tookAt := none, witness := false }) else d
  | none => d

/-! ### The do-si-do (R446 to R449, R451) -/

/-- An hour in ticks. -/
def hourTicks : Nat := 28800000

/-- dsd_hours have passed since the last do-si-do, as seen at an edge. -/
def dsdHours (c : Cfg) (d : Dev) (n : Nat) : Bool :=
  match d.mate.lastDsd with
  | some l => decide (l + c.get Fields.MATE_DSD_INT_dsd_hours 0 * hourTicks ≤ n)
  | none => true

/-- Days since the scheduled second, counted from the first one. -/
def dsdDay (c : Cfg) (t : Nat) : Nat := (timeSec t + 86400 - c.get Fields.MATE_DSD_TIME_dsd_sec 0) / 86400

/-- This edge is the first at which the served time has passed dsd_sec of the day and dsd_hours have passed (R446). -/
def dsdDue (c : Cfg) (d : Dev) : Bool :=
  let passed := decide (c.get Fields.MATE_DSD_TIME_dsd_sec 0 ≤ timeSec d.edgeTime % 86400)
  let newDay := !(d.prevEdge == 0) && decide (dsdDay c d.prevEdge < dsdDay c d.edgeTime)
  (d.dom d.served).set && passed && dsdHours c d d.sfc && (newDay || !(dsdHours c d (d.sfc - 1)))

/-- The active may propose: until software clears dsd_fault it does not (R449). -/
def mayPropose (d : Dev) : Bool := d.isPaired && d.role == 1 && !(d.flag Fields.MATE_STATUS_dsd_fault 0)

/-- The proposal names the swap edge, 64 edges on (R446); it takes the place of one that waits (DESIGN CHOICE, log 94). -/
def propose (d : Dev) : Dev := if mayPropose d then d.updMate (fun m => { m with swapAt := some (d.sfc + 64), swapOk := none }) else d

/-- DSD_PROPOSE: at the scheduled time, unless a proposal waits already. -/
def dsdPropose (c : Cfg) (d : Dev) : Dev := if c.flag Fields.MATE_CTRL_dsd_en 0 && dsdDue c d && d.mate.swapAt.isNone then propose d else d

/-- DSD_PROPOSE. -/
def execDsdPropose (s : State) : Outcome := onDev dsdPropose s

/-- Whether the standby accepts (R447, R449). -/
def dsdReady (c : Cfg) (d : Dev) : Bool :=
  let gs := pairedGroves c d
  let onPaired := fun (q : Nat) =>
    if mcBase ≤ q / 8 then (groupGroves c d (q / 8 - mcBase)).any gs.contains else ((standOfQueue c q).map (fun i => gs.contains (groveOf i))).getD false
  let shadowed := (c.listed .BUF_Q_CFG).any (fun p => c.flag Fields.BUF_Q_CFG_shadow_en p.1 && onPaired p.1)
  d.flag Fields.MATE_STATUS_sync_done 0 && !(d.flag Fields.MATE_STATUS_path_alarm 0) && d.mate.differ.isEmpty
    && gs.all (fun g => d.flag Fields.LANE_PON_STATUS_tx_ready g) && d.rngGood && !(d.flag Fields.MATE_STATUS_dsd_fault 0)
    && (!shadowed || d.deepState == 1) && (c.get Fields.BUF_HOLD_CTRL_replay_mib 0 == 0 || d.holdUp)

/-- DSD_ANSWER: the standby accepts or declines the proposal before it. -/
def dsdAnswer (c : Cfg) (d : Dev) : Dev :=
  if d.isPaired && d.isStandby && d.mate.swapAt.isSome && d.mate.swapOk.isNone then d.updMate (fun m => { m with swapOk := some (dsdReady c d) }) else d

/-- DSD_ANSWER. -/
def execDsdAnswer (s : State) : Outcome := onDev dsdAnswer s

/-- DSD_SWAP: the roles swap (R448). -/
def dsdSwap (c : Cfg) (d : Dev) : Dev :=
  if swapDue d && d.mate.swapAt == some d.sfc then
    let up := d.isStandby
    let d := d.count .device .dsdDone 0
    let d := if up then becomeActive c 3 d else becomeStandby 3 d
    d.updMate (fun m => { m with lastDsd := some d.sfc, revert := some d.sfc, peerActive := !up })
  else d

/-- DSD_SWAP. -/
def execDsdSwap (s : State) : Outcome := onDev dsdSwap s

/-- The edge judges a frame s to s + 7 of a grove (R449). -/
def inRevert (d : Dev) (s g : Nat) : Bool := decide (s + tLoop d g + 1 ≤ d.sfc) && decide (d.sfc ≤ s + tLoop d g + 8)

/-- A fault of R449 that the new active finds on a grove at an edge that judges one of its frames s to s + 7. -/
def revertCause (c : Cfg) (d : Dev) (s g : Nat) : Bool :=
  let t := (d.grove g).lastTally
  inRevert d s g &&
    ((decide (16 ≤ t.1) && decide (c.get Fields.MATE_REVERT_rev_pct 0 * t.1 ≤ 100 * t.2)) || !(d.flag Fields.LANE_PON_STATUS_tx_ready g)
      || (List.range 16).any (fun l => d.flag Fields.GNT_LANE_ECC_ecc_fatal l))

/-- DSD_REVERT: the new active gives the role back where it finds a fault (R449), and keeps it where its mate is dead (R451). The old one takes it again at the same edge,
so that no frame is missing: the event itself tells it of the edge, since the fault is the mate's to find. Otherwise it does so when a mirror frame of the mate shows
the role given back (DESIGN CHOICE, log 94). -/
def dsdRevert (c : Cfg) (d : Dev) : Dev :=
  match d.mate.revert with
  | none => d
  | some s =>
    let gs := pairedGroves c d
    let back := d.updMate (fun m => { m with revert := none })
    if d.role = 1 ∧ !(mateDead d) ∧ gs.any (revertCause c d s) then
      (becomeStandby 4 back).count .device .dsdRevert 0 |>.raise Fields.MATE_STATUS_dsd_fault 0
    else if d.role = 2 ∧ (d.mate.peerActive = false ∨ (d.edgeOpen ∧ gs.any (inRevert d s))) then becomeActive c 4 back
    else d

/-- DSD_REVERT. -/
def execDsdRevert (s : State) : Outcome := onDev dsdRevert s

/-- A proposal lapses when its edge has passed or the mate has died, and the revert window ends (R449, R451). -/
def dsdEdge (c : Cfg) (d : Dev) : Dev :=
  let d := match d.mate.swapAt with
    | some e => if e < d.sfc ∨ mateDead d then d.updMate (fun m => { m with swapAt := none, swapOk := none }) else d
    | none => d
  match d.mate.revert with
  | some s => if s + pairedLoop c d + 9 < d.sfc then d.updMate (fun m => { m with revert := none }) else d
  | none => d

/-! ### Writes of MATE_CTRL (R426, R428, R446, R454) -/

/-- A write of MATE_CTRL is checked. -/
def mateCtrlCheck (d : Dev) (w : Nat) : Status :=
  if bitsOf w 31 1 = 1 ∧ d.get Fields.MATE_STATUS_pair_state 0 ≠ 0 then .wrongState
  else if bitsOf w 29 1 = 1 ∧ d.role ≠ 1 then .wrongState
  else .ok

/-- What an accepted write of MATE_CTRL commands. -/
def mateCtrlRun (c : Cfg) (w : Nat) (d : Dev) : Dev :=
  let d := if bitsOf w 31 1 = 1 then pairReqRun c d else d
  let d := if bitsOf w 30 1 = 1 then d.updMate (fun m => { m with unpairReq := true }) else d
  if bitsOf w 29 1 = 1 then propose d else d

end Sys2Proof.Machine
end

