-- ==== Sys2Proof/Machine/Interrupts.lean ====
section
/-!
DEFINITION. The interrupt controller (R568 to R581): pending sources, MSI-X messages, claims and completions.
-/

namespace Sys2Proof.Machine

/-- The priority of a source: 0 turns it off (R568). -/
def srcPriority (c : Cfg) (s : Nat) : Nat := c.get Fields.INT_SRC_priority s

/-- The vector that a source targets: function times 64 plus vector (R568). -/
def srcVector (c : Cfg) (s : Nat) : Nat := c.get Fields.INT_SRC_function s * 64 + c.get Fields.INT_SRC_vector s

/-- Whether a source is in service. -/
def inService (d : Dev) (s : Nat) : Bool := (d.inServ.get? s).isSome

/-- Whether a source is pending (R568); one saved pending on entry to STANDBY is pending until it is claimed (R497). -/
def srcPending (c : Cfg) (d : Dev) (s : Nat) : Bool :=
  sourceListed s && (asserted d s || (d.phase == .run && d.savedPend.contains s)) && decide (srcPriority c s ≠ 0) && !(inService d s)

/-- The pending sources that target a vector. -/
def pendingOn (c : Cfg) (d : Dev) (vec : Nat) : List Nat :=
  ((c.listed .INT_SRC).map Prod.fst).filter (fun s => srcVector c s == vec && srcPending c d s)

/-- The better of two sources to claim: the higher priority, and among equals the lower number (R572). -/
def betterSource (c : Cfg) (best : Option Nat) (s : Nat) : Option Nat :=
  match best with
  | none => some s
  | some b => if srcPriority c b < srcPriority c s ∨ (srcPriority c b = srcPriority c s ∧ s < b) then some s else some b

/-- The source that a claim of a vector returns (R572). -/
def claimable (c : Cfg) (d : Dev) (vec : Nat) : Option Nat := (pendingOn c d vec).foldl (betterSource c) none

/-- A vector's state; a vector comes out of reset masked, with nothing outstanding (PRESUMED, log 12). -/
def Dev.vec (d : Dev) (v : Nat) : VecSt := d.vecs.getD v { out := false, claimed := false, masked := true, pba := false }

/-- Change a vector's state. -/
def Dev.updVec (d : Dev) (v : Nat) (f : VecSt → VecSt) : Dev := { d with vecs := d.vecs.put v (f (d.vec v)) }

/-- A claim of vector `v` of function `f` (R572, R575): the word that INT_CLAIM returns. -/
def claim (c : Cfg) (f v : Nat) (d : Dev) : Nat × Dev :=
  let vec := f * 64 + v
  match claimable c d vec with
  | some s =>
    let d := { d with inServ := d.inServ.put s { vec := vec, last := asserted d s, released := false }, savedPend := d.savedPend.filter (fun x => x ≠ s) }
    (2 ^ 31 + srcPriority c s * 2 ^ 24 + s, (d.updVec vec (fun x => { x with claimed := true })).count .vector .claims vec)
  | none =>
    let d := if (d.vec vec).claimed then d else d.count .device .claimEmpty f
    (0, d.updVec vec (fun x => { x with out := false }))

/-- COMPLETE of source `s` written to vector `v` of function `f` (R573, R575). -/
def complete (f v s : Nat) (d : Dev) : Status × Dev :=
  let vec := f * 64 + v
  match d.inServ.get? s with
  | some x =>
    if x.vec = vec then
      let gone := x.released || (x.last && !(asserted d s))
      let d := if gone then d.count .device .spurious f else d
      (.ok, { d with inServ := d.inServ.erase s }.updVec vec (fun x => { x with out := false }))
    else (.wrongState, d.count .device .completeStray f)
  | none => (.wrongState, d.count .device .completeStray f)

/-- A function is there: PF0, or a VF while VF Enable is set (R557, R570). -/
def functionUp (d : Dev) (f : Nat) : Bool := f == 0 || d.vfEn

/-- Vector `v` of function `f` sends its message where R571 holds; under a mask its bit of the PBA is set instead (R574). -/
def msixMessage (c : Cfg) (f v : Nat) (d : Dev) : Dev :=
  let vec := f * 64 + v
  let x := d.vec vec
  if !(d.phase == .standby) && functionUp d f && d.msixEn.contains f && !x.out && !(pendingOn c d vec).isEmpty then
    if x.masked || d.funcMask.contains f then
      if x.pba then d else (d.updVec vec (fun x => { x with pba := true })).count .vector .msixMasked vec
    else ((d.updVec vec (fun x => { x with out := true, claimed := false, pba := false })).count .vector .msixSent vec).emit (.msix f v)
  else d

/-- MSIX_MESSAGE. -/
def execMsixMessage (f : Fin 16) (v : Fin 64) (s : State) : Outcome := onDev (fun c d => msixMessage c f v d) s

/-- A vector forgets its message and its sources leave service (R567). -/
def clearVectors (f : Nat) (d : Dev) : Dev :=
  { d with
    inServ := d.inServ.filter (fun p => decide (p.2.vec / 64 ≠ f))
    vecs := d.vecs.mapVals (fun k x => if k / 64 = f then { x with out := false } else x) }

/-- The registers of INT_SRC that an access sees beside its settings (R584). -/
def srcBits (c : Cfg) (d : Dev) (s : Nat) : List (Fld × Nat) :=
  [(Fields.INT_SRC_asserted, (asserted d s).toNat), (Fields.INT_SRC_pending, (srcPending c d s).toNat),
   (Fields.INT_SRC_in_service, (inService d s).toNat)]

/-- INT_VEC_STAT of a vector (R584). -/
def vecBits (c : Cfg) (d : Dev) (vec : Nat) : List (Fld × Nat) :=
  [(Fields.INT_VEC_STAT_outstanding, (d.vec vec).out.toNat),
   (Fields.INT_VEC_STAT_in_service, (d.inServ.filter (fun p => p.2.vec == vec)).length),
   (Fields.INT_VEC_STAT_pending, (pendingOn c d vec).length)]

end Sys2Proof.Machine
end

