-- ==== Sys2Proof/Machine/Views.lean ====
section
/-!
DEFINITION. What a read of a register shows where the device keeps the value in typed state (R10, R606): per block, the fields of a register and
their values, laid over the register's stored word.
-/

namespace Sys2Proof.Machine

/-- A flag as a number. -/
def bit (b : Bool) : Nat := b.toNat

/-- A signed number in two's complement of a width. -/
def twos (width : Nat) (v : Int) : Nat := (v % (2 ^ width : Int)).toNat

/-- The low 32 bits of a number. -/
def lo32 (v : Nat) : Nat := v % 2 ^ 32

/-- The bits of a number above the low 32, as a 32-bit word. -/
def hi32 (v : Nat) : Nat := v / 2 ^ 32 % 2 ^ 32

/-- Four bytes of a list as a register word, the first in its most significant byte; zero past the end. -/
def wordAt (bs : List Byte) (k : Nat) : Nat := ofBytesBE (padTo 4 ((bs.drop (4 * k)).take 4))

/-! ### TOP, TICK, INT, TIME -/

/-- Entries of the staging area that a master's held writes take (R37). -/
def heldBy (c : Cfg) (m : Nat) : Nat := (c.staged.filter (fun w => w.master == m && w.due.isNone)).length

/-- The edge that R38 shows for a master: all ones while it holds. -/
def stageEdge (c : Cfg) (m : Nat) : Nat := if holding c m then 2 ^ 48 - 1 else (c.stage m).edge

/-- The master's last staged write has not committed (R38). -/
def stagePending (c : Cfg) (m : Nat) : Bool :=
  decide (0 < heldBy c m) || c.staged.any (fun w => w.master == m && w.due == some (c.stage m).edge)

/-- Fields of TOP and TICK (R59, R582). -/
def viewTick (c : Cfg) (d : Dev) (m : Nat) (r : Reg) (i : Nat) : List (Fld × Nat) :=
  match r with
  | .TOP_MASTER => [(Fields.TOP_MASTER_master, m)]
  | .TICK_PHASE => [(Fields.TICK_PHASE_region, regionOf d.clock), (Fields.TICK_PHASE_clock, d.clock)]
  | .TICK_SFC_LO => [(Fields.TICK_SFC_LO_sfc_lo, lo32 d.sfc)]
  | .TICK_SFC_HI => [(Fields.TICK_SFC_HI_sfc_hi, hi32 d.sfc)]
  | .TICK_SFC_CKPT_LO => [(Fields.TICK_SFC_CKPT_LO_ckpt_lo, lo32 (d.keepSfc.getD 0))]
  | .TICK_SFC_CKPT_HI => [(Fields.TICK_SFC_CKPT_HI_ckpt_hi, hi32 (d.keepSfc.getD 0))]
  | .TICK_STAGE_FILL => [(Fields.TICK_STAGE_FILL_pending, c.fill)]
  | .TICK_STAGE_STAT => [(Fields.TICK_STAGE_STAT_pending, bit (stagePending c i)), (Fields.TICK_STAGE_STAT_held, heldBy c i)]
  | .TICK_STAGE_SFC_LO => [(Fields.TICK_STAGE_SFC_LO_commit_lo, lo32 (stageEdge c i))]
  | .TICK_STAGE_SFC_HI => [(Fields.TICK_STAGE_SFC_HI_commit_hi, hi32 (stageEdge c i))]
  | .INT_SRC => srcBits c d i
  | .INT_VEC_STAT => vecBits c d i
  | _ => []

/-- The head capture record as its eight words (R465, R478). -/
def capWord (r : CapRec) (k : Nat) : Nat :=
  match k with
  | 0 => lo32 (timeSec r.time)
  | 1 => hi32 (timeSec r.time)
  | 2 => timeNs r.time
  | 3 => timeFrac r.time * 65536 + r.port % 64 * 256 + bit r.egress
  | 4 => r.ty % 16 * 2 ^ 28 + r.dom % 256 * 65536 + r.seq % 65536
  | _ => wordAt r.src (k - 5)

/-- Fields of TIME (R478). -/
def viewTime (d : Dev) (r : Reg) (i : Nat) : List (Fld × Nat) :=
  let cap := fun k => match d.caps.head? with | some x => capWord x k | none => 0
  match r with
  | .TIME_SIGMA_LO => [(Fields.TIME_SIGMA_LO_sigma_lo, lo32 (twos 64 (d.sigma * 65536 / (nsUnits : Int))))]
  | .TIME_SIGMA_HI => [(Fields.TIME_SIGMA_HI_sigma_hi, hi32 (twos 64 (d.sigma * 65536 / (nsUnits : Int))))]
  | .TIME_X_SEC_LO => [(Fields.TIME_X_SEC_LO_sec_lo, lo32 (timeSec (d.dom i).t))]
  | .TIME_X_SEC_HI => [(Fields.TIME_X_SEC_HI_sec_hi, hi32 (timeSec (d.dom i).t))]
  | .TIME_X_NS => [(Fields.TIME_X_NS_ns, timeNs (d.dom i).t)]
  | .TIME_X_FRAC => [(Fields.TIME_X_FRAC_frac, timeFrac (d.dom i).t)]
  | .TIME_X_ADJ_LEFT => [(Fields.TIME_X_ADJ_LEFT_left, twos 32 ((d.dom i).left.tdiv (nsUnits : Int)))]
  | .TIME_CAP_STAT => [(Fields.TIME_CAP_STAT_count, d.caps.length)]
  | .TIME_CAP0 => [(Fields.TIME_CAP0_sec_lo, cap 0)]
  | .TIME_CAP1 => [(Fields.TIME_CAP1_sec_hi, cap 1)]
  | .TIME_CAP2 => [(Fields.TIME_CAP2_ns, cap 2)]
  | .TIME_CAP3 => [(Fields.TIME_CAP3_frac, cap 3 / 65536), (Fields.TIME_CAP3_port, cap 3 / 256), (Fields.TIME_CAP3_egress, cap 3)]
  | .TIME_CAP4 => [(Fields.TIME_CAP4_msg_type, cap 4 / 2 ^ 28), (Fields.TIME_CAP4_ptp_dom, cap 4 / 65536), (Fields.TIME_CAP4_seq_id, cap 4)]
  | .TIME_CAP5 => [(Fields.TIME_CAP5_src_id, cap (5 + i))]
  | .TIME_TX_STAT => [(Fields.TIME_TX_STAT_busy, bit d.txMsg.isSome)]
  | _ => []

/-! ### KEY, MATE, CNT, LANE -/

/-- Fields of KEY and MATE (R424, R454). -/
def viewKey (c : Cfg) (d : Dev) (r : Reg) (i : Nat) : List (Fld × Nat) :=
  let k := d.keysOf i
  let e := sendEpoch k d.sfc
  let ds := (k.ep e).dsCtr
  let us := (k.ep k.cur).usHigh
  let o := d.ofs i
  let dlv := (d.mate.dlv.getD i { d := 0, mark := 0, ud := 0 }).d
  match r with
  | .KEY_QUEUE => [(Fields.KEY_QUEUE_pending, d.keng.queue.length + (match d.keyCmd with | some k => if k.op = 2 then 1 else 0 | none => 0))]
  | .KEY_GRP_CTRL => [(Fields.KEY_GRP_CTRL_epoch, (d.sharedOf i).epoch)]
  | .KEY_STD_STATE =>
    [(Fields.KEY_STD_STATE_agree, k.agree.ctorIdx), (Fields.KEY_STD_STATE_stopped_us, bit (k.ep k.cur).usStopped),
     (Fields.KEY_STD_STATE_stopped_ds, bit (k.ep e).dsStopped), (Fields.KEY_STD_STATE_held, bit k.epA.held + 2 * bit k.epB.held),
     (Fields.KEY_STD_STATE_epoch, e)]
  | .KEY_STD_CTR_DS_LO => [(Fields.KEY_STD_CTR_DS_LO_ds_lo, lo32 ds)]
  | .KEY_STD_CTR_DS_HI => [(Fields.KEY_STD_CTR_DS_HI_ds_hi, hi32 ds)]
  | .KEY_STD_CTR_US_LO => [(Fields.KEY_STD_CTR_US_LO_us_lo, lo32 us)]
  | .KEY_STD_CTR_US_HI => [(Fields.KEY_STD_CTR_US_HI_us_hi, hi32 us)]
  | .KEY_STD_TF => [(Fields.KEY_STD_TF_tf_count, min 255 (tagFails c d i))]
  | .MATE_OFS_DS => [(Fields.MATE_OFS_DS_learned, bit o.learned), (Fields.MATE_OFS_DS_w, twos 23 o.w)]
  | .MATE_OFS_US => [(Fields.MATE_OFS_US_u, twos 23 o.u)]
  | .MATE_DLV_LO => [(Fields.MATE_DLV_LO_dlv_lo, lo32 dlv)]
  | .MATE_DLV_HI => [(Fields.MATE_DLV_HI_dlv_hi, hi32 dlv)]
  | _ => []

/-- Items that a counter family has per instance (R587). -/
def famItems (f : Nat) : Nat := ([4096, 128, 64, 16, 4, 16, 8, 2, 4].drop f).headD 0

/-- The number of a family's instances (R587). -/
def famCount (f : Nat) : Nat := ([1, 64, 16384, 65536, 131072, 2048, 256, 1024, 1024].drop f).headD 0

/-- The events of a counter that no command delivers, up to now: those of the ticks before and of this one. -/
def ambientAt (d : Dev) (k : Nat) : Nat :=
  if ambientKeys.contains k then d.amb.getD k 0 + (if d.running then Config.ambient (k / 2 ^ 20 % 2 ^ 10) (k % 2 ^ 20) d.now else 0) else 0

/-- The value of the counter that a family, an item and an index name (R588): an unassigned item reads zero. -/
def counterAt (d : Dev) (fam item inst : Nat) : Nat :=
  match Config.itemCounter fam item with
  | some (num, x) =>
    let k := (fam * 2 ^ 10 + num % 2 ^ 10) * 2 ^ 20 + (if fam = 0 then x else inst) % 2 ^ 20
    (d.cnt.getD k 0 + ambientAt d k) % 2 ^ 64
  | none => 0

/-- Item `w` of the selection of master `m`'s window (R589). -/
def windowAt (c : Cfg) (d : Dev) (m w : Nat) : Nat :=
  let f := c.get Fields.CNT_WIN_SEL_family m
  if w < famItems f then counterAt d f w (c.get Fields.CNT_WIN_SEL_instance m) else 0

/-- Fields of CNT (R602). -/
def viewCnt (c : Cfg) (d : Dev) (r : Reg) (i : Nat) : List (Fld × Nat) :=
  match r with
  | .CNT_DEV_LO => [(Fields.CNT_DEV_LO_lo, lo32 (counterAt d 0 i 0))]
  | .CNT_DEV_HI => [(Fields.CNT_DEV_HI_hi, hi32 (counterAt d 0 i 0))]
  | .CNT_DIR_DEV => [(Fields.CNT_DIR_DEV_entry, Config.dirEntry 0 (i / 8) (i % 8))]
  | .CNT_DIR_SET => [(Fields.CNT_DIR_SET_entry, Config.dirEntry (i / 1024 + 1) (i / 8 % 128) (i % 8))]
  | .CNT_WIN_LO => [(Fields.CNT_WIN_LO_lo, lo32 (windowAt c d (i / 128) (i % 128)))]
  | .CNT_WIN_HI => [(Fields.CNT_WIN_HI_hi, hi32 (windowAt c d (i / 128) (i % 128)))]
  | .CNT_SMP_STAT => [(Fields.CNT_SMP_STAT_count, (d.sampler i).recs.length)]
  | .CNT_SMP_REC => [(Fields.CNT_SMP_REC_word, (((d.sampler (i / 24)).recs.headD []).drop (i % 24)).headD 0)]
  | _ => []

/-- The equalizer of an uplink lane, inside its bounds (R538): the continuous-time code and the feedback tap. -/
def rxEq (c : Cfg) (d : Dev) (l : Nat) : Nat × Int :=
  let v := Config.laneEq l d.sfc
  let dfe : Int := (c.get Fields.LANE_RX_BOUND_dfe_max l : Int)
  (max (c.get Fields.LANE_RX_BOUND_ctle_min l) (min (c.get Fields.LANE_RX_BOUND_ctle_max l) (v % 16)),
   max (-dfe) (min dfe (signed 8 (v / 16 % 256))))

/-- Fields of LANE (R556). -/
def viewLane (c : Cfg) (d : Dev) (r : Reg) (i : Nat) : List (Fld × Nat) :=
  match r with
  | .LANE_RX_EQ => [(Fields.LANE_RX_EQ_ctle, (rxEq c d i).1), (Fields.LANE_RX_EQ_dfe1, twos 8 (rxEq c d i).2)]
  | .LANE_PRBS_ERR => [(Fields.LANE_PRBS_ERR_errors, laneErrors c d Fields.LANE_TEST_chk_en 0 i)]
  | .LANE_PON_STATUS => [(Fields.LANE_PON_STATUS_in_service, bit (txOn c d i))]
  | .LANE_PON_PRBS_ERR => [(Fields.LANE_PON_PRBS_ERR_errors, laneErrors c d Fields.LANE_PON_CTRL_chk_en 1 i)]
  | .LANE_GRP_STAT => [(Fields.LANE_GRP_STAT_active, (groupMembers c d i).length)]
  | .LANE_PCIE_STATUS => [(Fields.LANE_PCIE_STATUS_width, Config.pcieLink / 16), (Fields.LANE_PCIE_STATUS_speed, Config.pcieLink)]
  | _ => []

/-! ### GRV, STD, BGH, GNT -/

/-- The first upstream frame of a grove's next clearing (R131, R132, R164), a frame after the present one: of one whose maps are being built, of one that clear_now
has placed, or the next that R131 places on a grove in service. -/
def clrNext (c : Cfg) (d : Dev) (g : Nat) : Nat :=
  let x := d.grove g
  let soon := (x.clearings.filter (fun cl => decide (d.sfc < cl.frame))).map Clearing.frame
  let cand := soon ++ x.clearAt.filter (fun k => decide (d.sfc < k)) ++ (if clrEn c g && x.inService then [clrNextFrom c d g (d.sfc + 1)] else [])
  match cand with
  | [] => 0
  | k :: ks => ks.foldl min k

/-- Fields of a grove's downstream, clearing, message and compatibility registers (R85, R122, R164, R190, R242). -/
def viewGrv (c : Cfg) (d : Dev) (r : Reg) (i : Nat) : List (Fld × Nat) :=
  let x := d.grove i
  let done := x.done.headD (0, 0, 0)
  let om := x.omciRx.headD { stand := 0, bytes := [] }
  match r with
  | .GRV_DS_STATUS => [(Fields.GRV_DS_STATUS_msg_queued, x.msgQ.length), (Fields.GRV_DS_STATUS_precoder_on, bit (x.onAir.any DsFrame.precoder))]
  | .GRV_US_STATUS => [(Fields.GRV_US_STATUS_sig_detect, Config.sigDetect i (d.sfc * tickClocks + d.clock))]
  | .GRV_CLR_STATUS =>
    [(Fields.GRV_CLR_STATUS_in_clearing, bit ((d.grove i).clearings.any (fun x => decide (x.tloop ≤ d.sfc) && x.covers (d.sfc - x.tloop)))),
     (Fields.GRV_CLR_STATUS_fast, bit (clrFast c d i)), (Fields.GRV_CLR_STATUS_answers_last, min 65535 x.ansLast)]
  | .GRV_CLR_NEXT_LO => [(Fields.GRV_CLR_NEXT_LO_next_lo, lo32 (clrNext c d i))]
  | .GRV_CLR_NEXT_HI => [(Fields.GRV_CLR_NEXT_HI_next_hi, hi32 (clrNext c d i))]
  | .GRV_MSG_TX_DONE0 => [(Fields.GRV_MSG_TX_DONE0_nonce_lo, lo32 done.1)]
  | .GRV_MSG_TX_DONE1 => [(Fields.GRV_MSG_TX_DONE1_valid, bit (!x.done.isEmpty)), (Fields.GRV_MSG_TX_DONE1_nonce_hi, hi32 done.1 % 65536 * 256 + done.2.1 % 256)]
  | .GRV_MSG_TX_DONE2 => [(Fields.GRV_MSG_TX_DONE2_ticket, done.2.2)]
  | .GRV_MSG_RX_STAT => [(Fields.GRV_MSG_RX_STAT_count, x.rxFifo.length)]
  | .GRV_CPT_OMCI_RXSTAT =>
    [(Fields.GRV_CPT_OMCI_RXSTAT_length, om.bytes.length), (Fields.GRV_CPT_OMCI_RXSTAT_stand, om.stand),
     (Fields.GRV_CPT_OMCI_RXSTAT_count, x.omciRx.length)]
  | _ => []

/-- A word of a stand's preset as its registers show it: the stored preset, the grove's default for a stand that has none yet, and the reset word where there is
no stand (R149, R163). -/
def shownPreset (c : Cfg) (d : Dev) (i k : Nat) : Nat :=
  if (d.rngOf i).preset.isNone && d.st i == .absent then 0 else (presetFor c d i).word k

/-- Fields of a stand's ranging registers (R164). -/
def viewRng (c : Cfg) (d : Dev) (r : Reg) (i : Nat) : List (Fld × Nat) :=
  let x := d.rngOf i
  match r with
  | .GRV_RNG_EQD => [(Fields.GRV_RNG_EQD_eqd, x.eqd)]
  | .GRV_RNG_LOOP => [(Fields.GRV_RNG_LOOP_loop, x.loopSum)]
  | .GRV_RNG_PHASE => [(Fields.GRV_RNG_PHASE_last_corr, twos 13 x.lastCorr), (Fields.GRV_RNG_PHASE_last_phase, twos 13 x.lastPhase)]
  | .GRV_RNG_FLAGS =>
    [(Fields.GRV_RNG_FLAGS_learn_count, x.learnCount), (Fields.GRV_RNG_FLAGS_attempts, x.attempts), (Fields.GRV_RNG_FLAGS_precoder_cap, bit x.precoder),
     (Fields.GRV_RNG_FLAGS_keep_valid, bit (d.keep.get? i).isSome), (Fields.GRV_RNG_FLAGS_preset_learned, bit x.learned)]
  | .GRV_RNG_DRIFT => [(Fields.GRV_RNG_DRIFT_drift, twos 24 x.drift)]
  | .GRV_RNG_PRESET0 => [(Fields.GRV_RNG_PRESET0_ffe0_3, shownPreset c d i 0)]
  | .GRV_RNG_PRESET1 => [(Fields.GRV_RNG_PRESET1_ffe4_7, shownPreset c d i 1)]
  | .GRV_RNG_PRESET2 =>
    let w := shownPreset c d i 2
    [(Fields.GRV_RNG_PRESET2_dfe1, w / 2 ^ 24), (Fields.GRV_RNG_PRESET2_ctle, w / 65536), (Fields.GRV_RNG_PRESET2_samp_phase, w / 256),
     (Fields.GRV_RNG_PRESET2_vga, w)]
  | .GRV_MSG_RX => [(Fields.GRV_MSG_RX_word, wordAt ((d.grove (i / 16)).rxFifo.headD []) (i % 16))]
  | .GRV_CPT_OMCI_RXBUF =>
    [(Fields.GRV_CPT_OMCI_RXBUF_word, wordAt ((d.grove (i / 512)).omciRx.headD { stand := 0, bytes := [] }).bytes (i % 512))]
  | _ => []

/-- Fields of STD (R190). -/
def viewStd (c : Cfg) (d : Dev) (r : Reg) (i : Nat) : List (Fld × Nat) :=
  let l := d.lifeOf i
  match r with
  | .STD_STATE => [(Fields.STD_STATE_keys_ready, bit (keysInPlace c d i)), (Fields.STD_STATE_state, l.st.ctorIdx)]
  | .STD_SERIAL_LO => [(Fields.STD_SERIAL_LO_serial_lo, lo32 l.serial)]
  | .STD_SERIAL_HI => [(Fields.STD_SERIAL_HI_serial_hi, hi32 l.serial)]
  | .STD_WAKE_LO => [(Fields.STD_WAKE_LO_wake_lo, lo32 l.wake)]
  | .STD_WAKE_HI => [(Fields.STD_WAKE_HI_wake_hi, hi32 l.wake)]
  | _ => []

/-- Fields of BGH and GNT (R224). -/
def viewBgh (c : Cfg) (d : Dev) (r : Reg) (i : Nat) : List (Fld × Nat) :=
  let b := d.bough i
  match r with
  | .BGH_CTRL => [(Fields.BGH_CTRL_fixed_pos, bit (fixedPos c i))]
  | .BGH_STATUS =>
    [(Fields.BGH_STATUS_poll_due, bit b.pollDue), (Fields.BGH_STATUS_last_report, match b.report with | some p => p.occ | none => 0)]
  | .BGH_REQUEST => [(Fields.BGH_REQUEST_request, b.request)]
  | .BGH_GRANT => [(Fields.BGH_GRANT_pred_leaves, b.predLv), (Fields.BGH_GRANT_leaves, b.leaves)]
  | .BGH_RATE => [(Fields.BGH_RATE_rate_est, b.rateE)]
  | .BGH_DIGEST => [(Fields.BGH_DIGEST_digest, if d.flag Fields.TICK_STATUS_running 0 then bghDigest c i else 0)]
  | .GNT_LANE_BOUGHS =>
    [(Fields.GNT_LANE_BOUGHS_bound, ((boundBoughs c).filter (fun b => c.get Fields.BGH_BIND_stand b / 1024 == i)).length)]
  | .GNT_GRV_ASSURE => [(Fields.GNT_GRV_ASSURE_assure_used, assureUsed c i)]
  | .GNT_GRV_CAP => [(Fields.GNT_GRV_CAP_assure_cap, assureCap c i)]
  | .GNT_GRV_PTR => [(Fields.GNT_GRV_PTR_fair_ptr, (d.grove i).fairPtr), (Fields.GNT_GRV_PTR_rot_ptr, (d.grove i).rotPtr)]
  | _ => []

/-! ### PIPE, TBL, BUF, SCH, SLC -/

/-- Whether a swap of the rule-set bank is staged (R295). -/
def rsSwapStaged (c : Cfg) : Bool := !(c.final.get Fields.PIPE_RS_CTRL_active 0 == activeBank c)

/-- Whether the standby bank is locked: it drains, a copy runs, or a swap is staged (R295). -/
def standbyLocked (c : Cfg) (d : Dev) : Bool :=
  (if activeBank c = 0 then d.flag Fields.PIPE_RS_STATUS_b_locked 0 else d.flag Fields.PIPE_RS_STATUS_a_locked 0)
    || d.flag Fields.PIPE_RS_STATUS_copy_busy 0 || rsSwapStaged c

/-- Fields of PIPE and TBL (R304, R337). -/
def viewPipe (c : Cfg) (d : Dev) (r : Reg) (i : Nat) : List (Fld × Nat) :=
  let a := activeBank c
  match r with
  | .PIPE_RS_STATUS =>
    [(Fields.PIPE_RS_STATUS_active_now, a), (Fields.PIPE_RS_STATUS_a_locked, bit (a == 1 && standbyLocked c d)),
     (Fields.PIPE_RS_STATUS_b_locked, bit (a == 0 && standbyLocked c d))]
  | .PIPE_FRAG_STATUS => [(Fields.PIPE_FRAG_STATUS_used, d.frag.length)]
  | .PIPE_P_FILL => [(Fields.PIPE_P_FILL_recirc, (d.pipe i).recirc.length), (Fields.PIPE_P_FILL_ingress, (d.pipe i).ingress.length)]
  | .TBL_BR_STATUS => [(Fields.TBL_BR_STATUS_used, d.bridge.length)]
  | .TBL_BR_STASH => [(Fields.TBL_BR_STASH_stash_used, (d.bridge.filter (fun p => decide (stashBase ≤ p.1))).length)]
  | .TBL_BR_DEFER => [(Fields.TBL_BR_DEFER_deferred, d.deferred.length)]
  | .TBL_LOCK => [(Fields.TBL_LOCK_held, bit (d.lockOf i).isSome), (Fields.TBL_LOCK_owner, (d.lockOf i).getD 0),
                 (Fields.TBL_LOCK_lock, bit (d.lockOf i).isSome)]
  | _ => []

/-- A size in KiB, rounded up. -/
def kib (n : Nat) : Nat := (n + 1023) / 1024

/-- Bytes of a list of shadow entries. -/
def shadowSize (es : List ShadowEnt) : Nat := (es.map (fun e => e.bytes.length)).sum

/-- Fields of BUF (R367). -/
def viewBuf (c : Cfg) (d : Dev) (r : Reg) (i : Nat) : List (Fld × Nat) :=
  match r with
  | .BUF_POOL_NFREE => [(Fields.BUF_POOL_NFREE_near_free, poolCount c 0 i - (d.allocated 0 i).length)]
  | .BUF_POOL_DFREE => [(Fields.BUF_POOL_DFREE_deep_free, poolCount c 1 i - (d.allocated 1 i).length)]
  | .BUF_SHADOW_FILL => [(Fields.BUF_SHADOW_FILL_ring_bytes, shadowSize (d.shadow.getD i []))]
  | .BUF_SHADOW_OVF => [(Fields.BUF_SHADOW_OVF_replay_bytes, shadowSize (d.replay.getD i []))]
  | .BUF_Q_NEAR => [(Fields.BUF_Q_NEAR_near_bytes, (d.queue i).nearBytes)]
  | .BUF_Q_DEEP => [(Fields.BUF_Q_DEEP_held, bit (hasHeld c d i)), (Fields.BUF_Q_DEEP_deep_kib, kib (bytesOf (d.queue i).deep))]
  | .BUF_HOLD_USED => [(Fields.BUF_HOLD_USED_used_kib, kib (holdUsage c d i))]
  | _ => []

/-- A stand with a NET lies in its pipeline's overflow list (R376). -/
def inOverflow (d : Dev) (i : Nat) : Bool := match d.wheels.get? i with | some w => w.inList | none => false

/-- Stands on a downstream pipeline's wheel, in the list or not (R373, R376). -/
def wheelSize (c : Cfg) (d : Dev) (p : Nat) (inList : Bool) : Nat :=
  (((List.range 4).flatMap (fun k => d.standsOf (4 * p + k))).filter (fun i => (netOf c d i).isSome && inOverflow d i == inList)).length

/-- The sum U_ds of a grove (R383). -/
def dsAssured (c : Cfg) (g : Nat) : Nat :=
  (((boughsOfGrove c g).filter (fun b => decide (b < mcBase))).map (fun b =>
    ceilRate (c.get Fields.SCH_BGH_ASSURED_assured b))).sum

/-- Fields of SCH (R394). -/
def viewSch (c : Cfg) (d : Dev) (r : Reg) (i : Nat) : List (Fld × Nat) :=
  let net := netOf c d i
  let inList := (d.wheels.getD i { net := none, inList := false }).inList
  match r with
  | .SCH_GRV_ASSURE =>
    [(Fields.SCH_GRV_ASSURE_assure_used, dsAssured c i)]
  | .SCH_WHEEL => [(Fields.SCH_WHEEL_overflow, wheelSize c d i true), (Fields.SCH_WHEEL_entries, wheelSize c d i false)]
  | .SCH_STD_BKT => [(Fields.SCH_STD_BKT_bucket, twos 32 (d.bkt (bktStand i)).b)]
  | .SCH_STD_NET =>
    [(Fields.SCH_STD_NET_in_wheel, bit (net.isSome && !inList)), (Fields.SCH_STD_NET_in_overflow, bit (net.isSome && inList)),
     (Fields.SCH_STD_NET_offset, net.getD 0 % tickSlots)]
  | .SCH_STD_NEXT_LO => [(Fields.SCH_STD_NEXT_LO_frame_lo, lo32 (net.getD 0 / tickSlots))]
  | .SCH_STD_NEXT_HI => [(Fields.SCH_STD_NEXT_HI_frame_hi, hi32 (net.getD 0 / tickSlots))]
  | .SCH_BGH_MAX_BKT => [(Fields.SCH_BGH_MAX_BKT_max_bkt, twos 32 (d.bkt (bktMax i)).b)]
  | .SCH_BGH_ASR_BKT => [(Fields.SCH_BGH_ASR_BKT_asr_bkt, twos 32 (d.bkt (bktAsr i)).b)]
  | .SCH_POL_TC => [(Fields.SCH_POL_TC_tc, (d.meters.getD i { tc := 0, tp := 0, accC := 0, accP := 0 }).tc)]
  | .SCH_POL_TP => [(Fields.SCH_POL_TP_tp, (d.meters.getD i { tc := 0, tp := 0, accC := 0, accP := 0 }).tp)]
  | .SCH_Q_DEPTH => [(Fields.SCH_Q_DEPTH_depth, kib (d.queue i).depth)]
  | _ => []

/-- The claims that a connection page and the ingress flows make on a downstream slice (R256): one per connection, the two slices of a protection group as
one, and one per flow. -/
def claimsOn (c : Cfg) (page : List Conn) (s : Nat) : Nat :=
  let own := fun (x : Conn) =>
    match (enabledPgs c).find? (fun p => pgWorking c p == x.src || pgProtect c p == x.src) with
    | some p => 4096 + p
    | none => 2 * x.src + x.leg
  ((page.filter (fun x => x.dst == s)).map own).eraseDups.length + (flowsInto c s).length

/-- The conflict count (R256): the downstream slot positions that the standby page or a flow claims more than once. -/
def conflicts (c : Cfg) (d : Dev) : Nat :=
  let page := d.conns.getD (1 - d.get Fields.SLC_PAGE_CTRL_active 0) []
  (((enabledSlices c).filter (fun s => !(sliceUp c s) && decide (1 < claimsOn c page s))).map (sliceN c)).sum

/-- A word of a connection page's entry (R274): the destination that a leg of an upstream slot position names. -/
def connWord (c : Cfg) (d : Dev) (page q leg : Nat) : Nat :=
  let hit := (d.conns.getD page []).find? (fun x =>
    x.leg == leg && sliceGrove c x.src == q / 12800 && decide (sliceFirst c x.src ≤ q % 12800) && decide (q % 12800 < sliceFirst c x.src + sliceN c x.src))
  match hit with
  | some x => 2 ^ 31 + sliceGrove c x.dst * 12800 + sliceFirst c x.dst + (q % 12800 - sliceFirst c x.src)
  | none => 0

/-- Fields of SLC (R274). -/
def viewSlc (c : Cfg) (d : Dev) (r : Reg) (i : Nat) : List (Fld × Nat) :=
  match r with
  | .SLC_PAGE_STAT => [(Fields.SLC_PAGE_STAT_conflicts, conflicts c d)]
  | .SLC_SL_STATUS => [(Fields.SLC_SL_STATUS_defects, (d.slice i).shown)]
  | .SLC_SL_LEN => [(Fields.SLC_SL_LEN_twig_len, if sliceUp c i then sliceTwigLen c i else 0)]
  | .SLC_PG_STATUS =>
    [(Fields.SLC_PG_STATUS_selected, bit (d.pg i).selected), (Fields.SLC_PG_STATUS_far_req, (d.pg i).farReq), (Fields.SLC_PG_STATUS_req, (d.pg i).req)]
  | .SLC_FL_STATUS => [(Fields.SLC_FL_STATUS_depth, bit (d.flow i).locked * 256 + min 255 (d.flow i).buf.length)]
  | .SLC_CONN_PAGE => [(Fields.SLC_CONN_PAGE_word, connWord c d (i / 1638400) (i / 2 % 819200) (i % 2))]
  | _ => []

/-! ### Reading a register -/

/-- The typed fields that a read of a register by master `m` shows. -/
def viewFlds (c : Cfg) (d : Dev) (m : Nat) (r : Reg) (i : Nat) : List (Fld × Nat) :=
  match r.region with
  | 0 => viewTick c d m r i
  | 1 => viewTick c d m r i
  | 3 => viewTick c d m r i
  | 6 => viewTime d r i
  | 7 => viewKey c d r i
  | 8 => viewKey c d r i
  | 9 => viewCnt c d r i
  | 10 => viewLane c d r i
  | 11 => viewGrv c d r i ++ viewRng c d r i
  | 12 => viewStd c d r i
  | 13 => viewBgh c d r i
  | 14 => viewBgh c d r i
  | 15 => viewPipe c d r i
  | 16 => viewPipe c d r i
  | 18 => viewBuf c d r i
  | 19 => viewSch c d r i
  | 20 => viewSlc c d r i
  | _ => []

/-- Fields laid over a word. -/
def layFields (w : Nat) (fs : List (Fld × Nat)) : Nat := fs.foldl (fun w p => setBits w p.1.lo p.1.width p.2) w

/-- A register holds a staged field (R10, R36). -/
def Reg.staged (r : Reg) : Bool := r.desc.fields.any (fun f => f.ty == .rws)

/-- The mask of a register's fields of some types. -/
def Reg.maskOf (r : Reg) (p : FieldTy → Bool) : Nat := maskOfTy r.desc.fields p

/-- The configuration word that a read shows: RW fields as they are, RWS fields at their staged values (R11). -/
def cfgShown (c : Cfg) (r : Reg) (i : Nat) : Nat := if r.staged && !c.staged.isEmpty then c.final.word r i else c.word r i

/-- What a read of a register by master `m` returns (R10, R11): WO fields and reserved bits read as zero. -/
def readReg (c : Cfg) (d : Dev) (m : Nat) (r : Reg) (i : Nat) : Nat :=
  layFields ((cfgShown c r i &&& r.maskOf FieldTy.isCfg) + (d.sts.word stsReset r i &&& r.maskOf FieldTy.isSts)) (viewFlds c d m r i)

end Sys2Proof.Machine
end

