-- ==== Sys2Proof/Machine/HostAccess.lean ====
section
/-!
DEFINITION. How an access of a master is judged before its register is looked at (R558, R563 to R566, R607, R609), what is recorded of it (R561, R562), and the
latch of multi-word values (R9).
-/

namespace Sys2Proof.Machine

/-! ### Access tables and scopes (R563 to R565) -/

/-- The entry of a master in a region: 0 NONE, 1 READ, 2 READ_WRITE (R563). -/
def accEntry (c : Cfg) (m rg : Nat) : Nat :=
  if m < 16 then bitsOf (c.get Fields.ACC_RGN_LO_m0_15 rg) (2 * m) 2 else bitsOf (c.get Fields.ACC_RGN_HI_m16_19 rg) (2 * (m - 16)) 2

/-- A grove lies in the mask of VF `v` (R565). -/
def vfGrove (c : Cfg) (v g : Nat) : Bool :=
  if g < 32 then (c.get Fields.ACC_VF_GROVE_LO_mask_lo (v - 1)).testBit g else (c.get Fields.ACC_VF_GROVE_HI_mask_hi (v - 1)).testBit (g - 32)

/-- A master that a scope confines: a VF. -/
def isVf (m : Nat) : Bool := decide (0 < m) && decide (m < 16)

/-- A stand lies in the scope of a master. -/
def standInScope (c : Cfg) (m i : Nat) : Bool := !(isVf m) || vfGrove c m (i / 256)

/-- The index of an offset in an array of entries that begins at `base` and ends before `top`; none outside it. -/
def entryAt (off base top stride : Nat) : Option Nat := if base ≤ off ∧ off < top then some ((off - base) / stride) else none

/-- An entry of an array, where the offset lies in it, meets a condition. -/
def entryOk (e : Option Nat) (ok : Nat → Bool) : Bool := match e with | some k => ok k | none => true

/-- An address of a block lies in the scope of VF `v` (R565). For a slice's control word the written stand, if there is one, is judged beside the present one. -/
def vfScope (c : Cfg) (v rg off : Nat) (w : Option Nat) : Bool :=
  let grove := vfGrove c v
  let stand := fun i => grove (i / 256)
  let bough := boughInScope c v
  match rg with
  | 0 => entryOk (entryAt off 0x100 0x240 0x10) (fun m => m == v)
  | 3 => entryAt off 0x10000 0x20000 0x1000 == some v
  | 6 => entryOk (entryAt off 0x600 0x700 4) grove
  | 7 => entryOk (entryAt off 0x40000 0xC0000 0x20) stand
  | 10 => entryOk (entryAt off 0x1000 0x1800 0x20) grove
  | 11 => grove (off / 0x40000)
  | 12 => stand (off / 0x100)
  | 13 => bough (off / 0x40)
  | 14 => entryOk (entryAt off 0x1000 0x2000 0x40) grove
  | 16 => entryOk (entryAt off 0x1000 0x1200 0x20) (fun r => r == v)
  | 18 => entryOk (entryAt off 0x200000 0x400000 4) (fun q => bough (q / 8)) && entryOk (entryAt off 0x400000 0x800000 8) (fun q => bough (q / 8))
      && entryOk (entryAt off 0x800000 0x840000 0x10) stand
  | 19 => entryOk (entryAt off 0 0x400 0x10) grove && entryOk (entryAt off 0x80000 0x100000 0x20) stand
      && entryOk (entryAt off 0x100000 0x300000 0x20) bough && entryOk (entryAt off 0x800000 0x1000000 0x10) (fun q => bough (q / 8))
  | 20 => entryOk (entryAt off 0x10000 0x20000 0x20) (fun s => stand (sliceStand c s))
      && (match w with | some x => !(entryAt off 0x10000 0x20000 0x20).isSome || !(off % 0x20 == 0) || stand (bitsOf x 0 14) | none => true)
  | _ => true

/-- The access table and the scope allow an access (R563, R565). -/
def allowed (c : Cfg) (m rg off : Nat) (w : Option Nat) : Bool :=
  (if w.isSome then accEntry c m rg == 2 else decide (accEntry c m rg ≠ 0)) && (!(isVf m) || vfScope c m rg off w)

/-- A block that answers during start-up and in STANDBY: TOP, CLK, INT and ACC (R501, R609). -/
def alwaysUp (rg : Nat) : Bool := [0, 2, 3, 4].contains rg

/-- The first two checks of R607, by block and offset, `w` being the value of a write: none where the access passes. -/
def judgePlace (c : Cfg) (d : Dev) (m rg off : Nat) (w : Option Nat) : Option Status :=
  if !(d.phase == .run) && !(alwaysUp rg) then some .notReady
  else if allowed c m rg off w then none else some .denied

/-- The block and offset of a register at an index. -/
def placeOf (r : Reg) (i : Nat) : Nat × Nat := (r.region, r.desc.off + offsetOfIndex r.desc.dims i)

/-- The first two checks of R607 for a register. -/
def judgeReg (c : Cfg) (d : Dev) (m : Nat) (r : Reg) (i : Nat) (w : Option Nat) : Option Status :=
  judgePlace c d m (placeOf r i).1 (placeOf r i).2 w

/-! ### What is recorded (R561, R562, R566, R607) -/

/-- Record a status in a master's entry. -/
def record (m addr : Nat) (st : Status) (d : Dev) : Dev :=
  let d := ((d.set Fields.TOP_LAST_STAT_status m st.code).set Fields.TOP_LAST_ADDR_addr m addr).set Fields.TOP_LAST_SFC_sfc m (lo32 d.sfc)
  if st = .ok ∨ d.flag Fields.TOP_LAST_STAT_err_seen m then d
  else ((d.set Fields.TOP_LAST_STAT_first_status m st.code).set Fields.TOP_FIRST_ADDR_addr m addr).raise Fields.TOP_LAST_STAT_err_seen m

/-- A violation of a master (R566). -/
def violate (m : Nat) (d : Dev) : Dev := (d.raiseBit Fields.ACC_VIOL_viol 0 m).count .device .accDenied m

/-- An access that R607 stops is recorded. -/
def stopAccess (m addr : Nat) (st : Status) (d : Dev) : Dev := record m addr st (if st = .denied then violate m d else d)

/-- The master makes register accesses (R563). -/
def makesAccess (m : Nat) : Bool := !(m == 16) && !(m == 17)

/-- A register of a master's own last-status entry: its writes record nothing (R561). -/
def ownEntry (m : Nat) (r : Reg) (i : Nat) : Bool :=
  (r == .TOP_LAST_STAT || r == .TOP_LAST_ADDR || r == .TOP_FIRST_ADDR || r == .TOP_LAST_SFC) && i == m

/-! ### The latch (R9) -/

/-- The pairs of registers of the blocks TOP to CNT whose names end in _LO and _HI, but for those of a larger group. -/
def wordPairsLow : List (Reg × Reg) :=
  [ (.TICK_SFC_LO, .TICK_SFC_HI), (.TICK_SFC_CKPT_LO, .TICK_SFC_CKPT_HI), (.TICK_STAGE_SFC_LO, .TICK_STAGE_SFC_HI), (.ACC_RGN_LO, .ACC_RGN_HI),
    (.ACC_VF_GROVE_LO, .ACC_VF_GROVE_HI), (.TIME_SIGMA_LO, .TIME_SIGMA_HI), (.TIME_X_SET_SEC_LO, .TIME_X_SET_SEC_HI),
    (.KEY_STD_CTR_DS_LO, .KEY_STD_CTR_DS_HI), (.KEY_STD_CTR_US_LO, .KEY_STD_CTR_US_HI), (.MATE_GRV_EN_LO, .MATE_GRV_EN_HI),
    (.MATE_LAST_SFC_LO, .MATE_LAST_SFC_HI), (.MATE_DLV_LO, .MATE_DLV_HI), (.CNT_DEV_LO, .CNT_DEV_HI), (.CNT_WIN_LO, .CNT_WIN_HI) ]

/-- The same of the blocks CNT to SLC. -/
def wordPairsHigh : List (Reg × Reg) :=
  [ (.CNT_SNAP_SFC_LO, .CNT_SNAP_SFC_HI), (.CNT_SNAP_BUF_LO, .CNT_SNAP_BUF_HI), (.LANE_GRP_LO, .LANE_GRP_HI), (.GRV_DS_SFC_LO, .GRV_DS_SFC_HI),
    (.GRV_US_CAP_SFC_LO, .GRV_US_CAP_SFC_HI), (.GRV_CLR_NEXT_LO, .GRV_CLR_NEXT_HI), (.STD_SERIAL_LO, .STD_SERIAL_HI),
    (.STD_ADMIT_SERIAL_LO, .STD_ADMIT_SERIAL_HI), (.STD_WAKE_LO, .STD_WAKE_HI), (.PIPE_FLOOD_PORTS_LO, .PIPE_FLOOD_PORTS_HI),
    (.TBL_RING_BASE_LO, .TBL_RING_BASE_HI), (.SCH_STD_NEXT_LO, .SCH_STD_NEXT_HI), (.SLC_FL_DMAC_LO, .SLC_FL_DMAC_HI),
    (.SLC_FL_SMAC_LO, .SLC_FL_SMAC_HI) ]

/-- The groups that the TIME table names, as the low word and the others, each with its number of places (R478). -/
def wordGroupsTime : List (Reg × List (Reg × Nat)) :=
  [ (.TIME_EDGE_SFC_LO, [(.TIME_EDGE_SFC_HI, 1), (.TIME_EDGE_SEC_LO, 1), (.TIME_EDGE_SEC_HI, 1), (.TIME_EDGE_NS, 1), (.TIME_EDGE_FRAC, 1)]),
    (.TIME_X_SEC_LO, [(.TIME_X_SEC_HI, 1), (.TIME_X_NS, 1), (.TIME_X_FRAC, 1)]),
    (.TIME_CAP0, [(.TIME_CAP1, 1), (.TIME_CAP2, 1), (.TIME_CAP3, 1), (.TIME_CAP4, 1), (.TIME_CAP5, 3)]),
    (.TIME_FL_TX_FRAME, [(.TIME_FL_TX_SEC, 1), (.TIME_FL_TX_NS, 1)]),
    (.TIME_FL_RX_FRAME, [(.TIME_FL_RX_SEC, 1), (.TIME_FL_RX_NS, 1)]) ]

/-- The groups of words that are latched together. -/
def wordGroups : List (Reg × List (Reg × Nat)) := wordGroupsTime ++ (wordPairsLow ++ wordPairsHigh).map (fun p => (p.1, [(p.2, 1)]))

/-- The other words of the group whose low word a register is. -/
def otherWords (r : Reg) : List (Reg × Nat) :=
  match wordGroups.find? (fun g => g.1 == r) with
  | some g => g.2
  | none => []

/-- The low word of the group to which a register belongs as another word, and its index there. -/
def lowWord (r : Reg) (i : Nat) : Option (Reg × Nat) :=
  match wordGroups.find? (fun g => g.2.any (fun x => x.1 == r)) with
  | some g => some (g.1, if r == .TIME_CAP5 then 0 else i)
  | none => none

/-- The key of a latch: entry 0 of a master names the group, the others hold words. -/
def latchKey (m k : Nat) : Nat := m * 2 ^ 32 + k

/-- A read of a low word latches the other words of its group for the master. -/
def takeLatch (c : Cfg) (m : Nat) (r : Reg) (i : Nat) (d : Dev) : Dev :=
  let ws := otherWords r
  if ws.isEmpty then d
  else
    let none_ : SMap Nat := d.latches.filter (fun p => decide (p.1 / 2 ^ 32 ≠ m))
    let kept := none_.put (latchKey m 0) (regKey r i + 1)
    { d with latches := ws.foldl (fun l x =>
        (List.range x.2).foldl (fun l k => l.put (latchKey m (regKey x.1 (if x.2 = 1 then i else k) + 1)) (readReg c d m x.1 (if x.2 = 1 then i else k))) l) kept }

/-- What a master's read of another word of a group returns: the latched word, or zero where the latch names another group. -/
def latchedWord (d : Dev) (m : Nat) (low : Reg) (j : Nat) (r : Reg) (i : Nat) : Nat :=
  if d.latches.getD (latchKey m 0) 0 = regKey low j + 1 then d.latches.getD (latchKey m (regKey r i + 1)) 0 else 0

/-- A write of CNT_WIN_SEL discards the latched words of the window (R599). -/
def dropWindow (m : Nat) (d : Dev) : Dev :=
  if (d.latches.getD (latchKey m 0) 0 - 1) / 2 ^ 22 = Reg.CNT_WIN_LO.id then
    { d with latches := d.latches.filter (fun p => decide (p.1 / 2 ^ 32 ≠ m)) }
  else d

end Sys2Proof.Machine
end

