-- ==== Sys2Proof/Machine/HostChecks.lean ====
section
/-!
DEFINITION. The checks of a register write in the blocks TOP to LANE (R13, R560): `old` is the configuration in force, `new` the configuration as it would hold once
the write and every staged write the master can see have taken effect.
-/

namespace Sys2Proof.Machine

/-- The first status that is not ST_OK. -/
def Status.orElse (a b : Status) : Status := if a = .ok then b else a

/-- A condition that a write must meet, with the status that says it is not met. -/
def need (ok : Bool) (st : Status) : Status := if ok then .ok else st

/-! ### A write as it is judged -/

/-- The bits that a write sets at once in the configuration: RW fields and the words of KEY_BLOB. The lock bit of TBL_LOCK is the lock itself (R316). -/
def Reg.rwMask (r : Reg) : Nat :=
  if r = .KEY_BLOB then 2 ^ 32 - 1 else if r = .TBL_LOCK then 0 else r.maskOf (fun t => t == .rw)

/-- The bits of a register that are staged. -/
def Reg.rwsMask (r : Reg) : Nat := r.maskOf (fun t => t == .rws)

/-- The bits that a write of one clears. -/
def Reg.w1cMask (r : Reg) : Nat := r.maskOf (fun t => t == .w1c)

/-- A register whose fields are all RO (R608). -/
def Reg.readOnly (r : Reg) : Bool := r.desc.fields.all (fun f => f.ty == .ro)

/-- The RW fields of a write take effect (R10). -/
def Cfg.writeNow (r : Reg) (i w : Nat) (c : Cfg) : Cfg :=
  let k := if r = .GRV_PRESET_DEF ∧ i % 3 = 2 then 0xFF0F3F3F else r.rwMask
  if k = 0 then c else c.setWord r i (c.word r i - (c.word r i &&& k) + (w &&& k))

/-- The configuration as an accepted write leaves it: RW fields at once, RWS fields staged (R10, R34). -/
def Cfg.accept (d : Dev) (m : Nat) (r : Reg) (i w : Nat) (c : Cfg) : Cfg :=
  let c := c.writeNow r i w
  if r.staged then c.stageWrite d m r i r.rwsMask w else c

/-- The configuration that a master's writes are judged against: every staged write has taken effect but for those that other masters hold, with what slices bring
about as they are enabled and disabled (R247, R248). -/
def Cfg.judged (m : Nat) (c : Cfg) : Cfg := sliceBinds c ({ c with staged := c.staged.filter (fun w => w.due.isSome || w.master == m) } : Cfg).final

/-- Every RW and RWS field of a write lies in its range. -/
def inRange (r : Reg) (w : Nat) : Bool :=
  r.desc.fields.all (fun f => !(f.ty.isCfg) || (decide (f.min ≤ bitsOf w f.lo f.width) && decide (bitsOf w f.lo f.width ≤ f.max)))

/-! ### TICK and CLK (R44, R51, R59, R508) -/

/-- Any grove transmits. -/
def anyTx (c : Cfg) (d : Dev) : Bool := (List.range 64).any (fun g => txOn c d g)

/-- TICK registers. -/
def checkTick (old new : Cfg) (d : Dev) (r : Reg) (i w : Nat) : Status :=
  match r with
  | .TICK_CTRL =>
    if bitsOf w 2 1 = 0 then .ok
    else if phaseSrc new = 0 then .mode
    else need (!(anyTx old d)) .wrongState
  -- a shorter loop delay is not held against the reach set in GRV_CLEARING_CTRL (R129; DESIGN CHOICE, log 92)
  | .TICK_LOOP_DELAY => need (!((d.grove i).inService) && !(txOn old d i)) .wrongState
  | _ => .ok

/-- CLK registers. -/
def checkClk (old new : Cfg) (d : Dev) (r : Reg) (w : Nat) : Status :=
  match r with
  | .CLK_CORE_SEL => selectCheck old new d
  | .CLK_UP_SEL => selectCheck old new d
  | .CLK_PLX_SEL => selectCheck old new d
  | .CLK_CTRL =>
    (need (bitsOf w 31 1 == 0 || allReady old d) .notReady).orElse (need (bitsOf w 30 1 == 0 || d.running || d.phase == .standby) .notReady)
  | .CLK_AON_TRIM => need (decide (bitsOf w 8 8 ≤ bitsOf w 16 8)) .badValue
  | .CLK_PWR => pwrCheck old d w
  | _ => .ok

/-! ### INT and ACC (R564, R569, R570, R573, R583) -/

/-- INT registers. -/
def checkInt (old new : Cfg) (d : Dev) (r : Reg) (i w : Nat) : Status :=
  match r with
  | .INT_SRC =>
    if !(sourceListed i) then .badIndex
    else need (srcVector new i == srcVector old i || (srcPriority old i == 0 && !(inService d i))) .wrongState
  | .INT_COMPLETE => (complete (i / 64) (i % 64) (bitsOf w 0 12) d).1
  | _ => .ok

/-- The two-bit entries of a word that are `code`. -/
def entriesAre (w n code : Nat) (ks : List Nat) : Bool := ks.any (fun k => decide (k < n) && bitsOf w (2 * k) 2 == code)

/-- ACC registers. -/
def checkAcc (new : Cfg) (r : Reg) (i w : Nat) : Status :=
  match r with
  | .ACC_RGN_LO =>
    if entriesAre w 16 3 (List.range 16) || !(bitsOf w 0 2 == 2) then .badValue
    else need (!(i == 4) || !(entriesAre w 16 2 ((List.range 16).drop 1))) .badValue
  | .ACC_RGN_HI =>
    if entriesAre w 4 3 (List.range 4) then .badValue
    else need (!(i == 4) || !(entriesAre w 4 2 [0, 1, 3])) .badValue
  | .ACC_VF_BOUGH => need (decide (new.get Fields.ACC_VF_BOUGH_first i ≤ new.get Fields.ACC_VF_BOUGH_last i)) .badValue
  | _ => .ok

/-! ### CFG (R522, R523, R525, R528) -/

/-- A flash command or check runs. -/
def flashBusy (d : Dev) : Bool := d.flashOp.isSome

/-- CFG_FLASH_CMD with go set. -/
def flashCmdCheck (new : Cfg) (d : Dev) (w : Nat) : Status :=
  let op := bitsOf w 28 2
  let len := bitsOf w 0 9
  let a := new.get Fields.CFG_FLASH_ADDR_addr 0
  if flashBusy d then .locked
  else if op = 0 then .badValue
  else if 0x8000000 ≤ a then .badIndex
  else if op = 3 then need (a % 65536 == 0) .badValue
  else if len = 0 ∨ 256 < len then .badValue
  else need (!(op == 2) || decide (a % 256 + len ≤ 256)) .badValue

/-- CFG registers. -/
def checkCfg (new : Cfg) (d : Dev) (m : Nat) (r : Reg) (w : Nat) : Status :=
  match r with
  | .CFG_POLICY => need (m == 0) .denied
  | .CFG_FLASH_CMD => if m ≠ 0 then .denied else if bitsOf w 31 1 = 0 then .ok else flashCmdCheck new d w
  | .CFG_CHECK => need (bitsOf w 31 1 == 0 || !(flashBusy d)) .locked
  | _ => .ok

/-! ### TIME and KEY (R424, R478) -/

/-- TIME registers. -/
def checkTime (new : Cfg) (d : Dev) (r : Reg) (i w : Nat) : Status :=
  match r with
  | .TIME_X_FREQ => need (decide ((signed 32 w).natAbs ≤ 500000000)) .badValue
  | .TIME_X_CMD => timeCmdCheck i w d
  | .TIME_TX_CTRL => txInjectCheck new w d
  | _ => .ok

/-- KEY_CMD with go set (R424): who may command, then the engine's state, then the operation and its argument. -/
def keyCmdCheck (c : Cfg) (d : Dev) (m w : Nat) : Status :=
  let op := bitsOf w 24 4
  let arg := bitsOf w 0 16
  let onStand := op == 1 || op == 7
  if isVf m ∧ (onStand && (decide (16384 ≤ arg) || standInScope c m arg)) = false then .denied
  else if op = 8 ∧ m ≠ 0 then .denied
  else if op = 0 ∨ 8 < op then .badValue
  else if d.flag Fields.KEY_CMD_STAT_busy 0 then .locked
  else if onStand then
    (if 16384 ≤ arg then .badIndex else need (!(op == 1) || d.st arg == .active) .wrongState)
  else if op = 8 then need (decide (arg < 512)) .badIndex
  else need (op == 2 || isHostSlot arg) .badIndex

/-- KEY registers. -/
def checkKey (old new : Cfg) (d : Dev) (m : Nat) (r : Reg) (w : Nat) : Status :=
  match r with
  | .KEY_REKEY_INT => need (w % 2 ^ 32 == 0 || decide (8000 ≤ w % 2 ^ 32)) .badValue
  | .KEY_CMD_LEN => need (decide (new.get Fields.KEY_CMD_LEN_aad_len 0 + new.get Fields.KEY_CMD_LEN_len 0 ≤ 4096)) .badValue
  | .KEY_CMD => if bitsOf w 31 1 = 0 then .ok else keyCmdCheck old d m w
  | _ => .ok

/-! ### MATE and CNT (R454, R590, R592, R602) -/

/-- MATE registers. -/
def checkMate (d : Dev) (r : Reg) (w : Nat) : Status :=
  let unpaired := d.get Fields.MATE_STATUS_pair_state 0 == 0
  match r with
  | .MATE_GRV_EN_LO => need unpaired .wrongState
  | .MATE_GRV_EN_HI => need unpaired .wrongState
  | .MATE_PEER_ID => need unpaired .wrongState
  | .MATE_HOLD => need (!(d.role == 2)) .wrongState
  | .MATE_CTRL => mateCtrlCheck d w
  | _ => .ok

/-- The instance of a counter family lies in the scope of a master (R590). -/
def familyInScope (c : Cfg) (m fam k : Nat) : Bool :=
  !(isVf m) ||
    (match fam with
     | 1 => vfGrove c m k
     | 2 => vfGrove c m (k / 256)
     | 3 => boughInScope c m k
     | 5 => vfGrove c m (sliceGrove c k)
     | 8 => k / 64 == m
     | _ => true)

/-- CNT registers. -/
def checkCnt (old new : Cfg) (m : Nat) (r : Reg) (i w : Nat) : Status :=
  match r with
  | .CNT_WIN_SEL =>
    let fam := bitsOf w 24 4
    let k := bitsOf w 0 17
    if !(familyInScope old m fam k) then .denied else need (decide (k < famCount fam)) .badIndex
  | .CNT_SNAP_LIST0 => need (decide (bitsOf w 0 12 < famItems (bitsOf w 24 4)) && decide (new.get Fields.CNT_SNAP_LIST1_instance i < famCount (bitsOf w 24 4))) .badIndex
  | .CNT_SNAP_LIST1 => need (decide (bitsOf w 0 17 < famCount (new.get Fields.CNT_SNAP_LIST0_family i))) .badIndex
  | _ => .ok

/-! ### LANE (R533, R538, R539, R542, R545, R547, R555) -/

/-- LANE registers. -/
def checkLane (old : Cfg) (d : Dev) (r : Reg) (i w : Nat) : Status :=
  match r with
  | .LANE_UP_CFG => upCfgCheck old d i w
  | .LANE_TX_EQ => txEqCheck old i w
  | .LANE_RX_BOUND => rxBoundCheck w
  | .LANE_PLX_RX_BOUND => rxBoundCheck w
  | .LANE_TEST => laneTestCheck old i w
  | .LANE_PLX_TEST => plxTestCheck old i w
  | .LANE_PON_CTRL => ponTestCheck old i w
  | .LANE_PON_TX_EQ => need (!((d.grove i).inService)) .wrongState
  | .LANE_PLX_CTRL => plxCtrlCheck old i w
  | _ => .ok

end Sys2Proof.Machine
end

