-- ==== Sys2Proof/Machine/HostChecksB.lean ====
section
/-!
DEFINITION. The checks of a register write in the blocks GRV to SLC, the mode rules, and the whole judgement of a register write (R13, R36, R560, R607, R608).
`old` is the configuration in force, `prev` the one that the master's writes were judged against before this write, and `new` the same with this write.
-/

namespace Sys2Proof.Machine

/-! ### Mode rules (R163, R235, R242, R345, R454) -/

/-- The leading index of an array register. -/
def Reg.lead (r : Reg) (i : Nat) : Nat := i / (r.desc.dims.drop 1).foldl (fun a p => a * p.1) 1

/-- Registers of a grove that only native mode has. -/
def nativeOnly (r : Reg) : Bool :=
  [Reg.GRV_DS_CTRL, .GRV_US_RSSI_CTRL, .GRV_US_CAP_CTRL, .GRV_CLEARING_CTRL, .GRV_PRESET_MSE, .GRV_PRESET_BOUND, .GRV_PRESET_DEF, .GNT_GRV_CTRL].contains r

/-- Registers of a grove that only compatibility mode has. -/
def compatOnly (r : Reg) : Bool :=
  [Reg.GRV_CPT_CTRL, .GRV_CPT_QUIET, .GRV_CPT_PROFILE, .GRV_CPT_OMCI_TXCTL, .GRV_CPT_OMCI_RXSTAT, .GRV_CPT_OMCI_TXBUF, .GRV_CPT_OMCI_RXBUF].contains r

/-- A write that the present mode does not allow. -/
def modeCheck (old : Cfg) (d : Dev) (r : Reg) (i w : Nat) : Status :=
  if r.region = 8 then need (d.flag Fields.CLK_STRAP_mate_en 0) .mode
  else if nativeOnly r then need (!(compat old (r.lead i))) .mode
  else if compatOnly r then need (compat old (r.lead i)) .mode
  else match r with
    | .GRV_RNG_CMD => need (!(bitsOf w 31 1 == 1 && bitsOf w 16 2 == 3 && compat old i)) .mode
    | .STD_MCAST => need (!(i % 16 == 15 && bitsOf w 31 1 == 1 && compat old (groveOf (i / 16)))) .mode
    | .BUF_Q_CFG => need (!(decide (mcBase * 8 ≤ i) && bitsOf w 31 1 == 1)) .mode
    | _ => .ok

/-! ### GRV (R79, R129, R132, R163, R179, R239, R242) -/

/-- A clearing covers any of the frames from `a` on, `n` of them: one begun, one placed by clear_now, or one that R131 has scheduled (R132). -/
def clearingNear (c : Cfg) (d : Dev) (g a n : Nat) : Bool :=
  let len := clrLen c g
  let meets := fun (k l : Nat) => decide (k < a + n) && decide (a < k + l)
  (d.grove g).clearings.any (fun x => meets x.frame x.len)
    || (d.grove g).clearAt.any (fun k => meets k len)
    || (List.range (len + n)).any (fun j =>
         let k := a + 1 + j - len
         decide (d.sfc + 1 ≤ k) && !((d.grove g).clrSeen == some k) && clrScheduled c d g k && meets k len)

/-- A grove's clearing or quiet-window fields satisfy R129 and R233, with no slice counted. -/
def clearingFits (new : Cfg) (d : Dev) (g : Nat) : Bool :=
  windowFits new g 0 (clrLen new g) (clrDiff new g) && decide (clrReach new g + clrDiff new g ≤ fibreReach (tLoop d g))

/-- GRV_CLEARING_CTRL. -/
def checkClearing (old new : Cfg) (d : Dev) (g w : Nat) : Status :=
  if !(clearingFits new d g) then .badValue
  else need (bitsOf w 1 1 == 0 || (clrEn old g && !(clearingNear old d g (d.sfc + 2) (clrLen old g)))) .wrongState

/-- GRV_RNG_CMD. -/
def checkRngCmd (d : Dev) (g w : Nat) : Status :=
  let op := bitsOf w 16 2
  let s := bitsOf w 0 9
  let st := d.st (standId g s)
  if bitsOf w 31 1 = 0 then .ok
  else if op = 0 then .badValue
  else if 0x100 ≤ s then .badIndex
  else need (if op = 1 then st == .active else if op = 2 then st == .absent else st == .ranging || st == .active) .wrongState

/-- GRV_MSG_TX_CMD. -/
def checkMsgTx (old : Cfg) (d : Dev) (g w : Nat) : Status :=
  let i := standId g (bitsOf w 0 9)
  if bitsOf w 31 1 = 0 then .ok
  else if 0x100 ≤ bitsOf w 0 9 then .badIndex
  else if !(d.st i == .active && keysInPlace old d i) then .wrongState
  else need (decide ((d.grove g).msgQ.length < msgRoom)) .noRoom

/-- GRV_CPT_OMCI_TXCTL. -/
def checkOmciTx (d : Dev) (g w : Nat) : Status :=
  if bitsOf w 31 1 = 0 then .ok
  else if 0x100 ≤ bitsOf w 0 9 then .badIndex
  else if !(d.st (standId g (bitsOf w 0 9)) == .active) then .wrongState
  else need (d.grove g).omciTx.isNone .noRoom

/-- GRV_MODE (R239). -/
def checkMode (old : Cfg) (d : Dev) (g : Nat) : Status :=
  need (!(txOn old d g) && allAbsentAt d g && !((boundBoughs old.final ++ boundBoughs old).any (fun b =>
    (standOfBough old b).map groveOf == some g || (standOfBough old.final b).map groveOf == some g))) .wrongState
where
  /-- Every stand of the grove is ABSENT. -/
  allAbsentAt (d : Dev) (g : Nat) : Bool := (d.standsOf g).all (fun i => d.st i == .absent)

/-- GRV registers. -/
def checkGrv (old new : Cfg) (d : Dev) (r : Reg) (i w : Nat) : Status :=
  match r with
  | .GRV_DS_CTRL =>
    need (bitsOf w 0 1 == 0 || (d.standsOf i).all (fun k => d.st k == .absent || (d.rngOf k).precoder)) .wrongState
  | .GRV_CLEARING_CTRL => checkClearing old new d i w
  | .GRV_CLR_SLOW => need (decide (new.get Fields.GRV_CLR_FAST_fast_ticks i ≤ new.get Fields.GRV_CLR_SLOW_slow_ticks i)) .badValue
  | .GRV_RNG_CMD => checkRngCmd d i w
  | .GRV_STD_CTRL => need (decide (2 * bitsOf w 8 6 ≤ bitsOf w 16 16)) .badValue
  | .GRV_MSG_TX_CMD => checkMsgTx old d i w
  | .GRV_MODE => checkMode old d i
  | .GRV_CPT_QUIET => need (clearingFits new d i) .badValue
  | .GRV_CPT_OMCI_TXCTL => checkOmciTx d i w
  | _ => .ok

/-! ### STD (R184, R186, R190) -/

/-- A stand outside a VF's grove mask holds a local-switch group, in force or staged. -/
def lsgTaken (old : Cfg) (m lsg : Nat) : Bool :=
  let in_ := fun (c : Cfg) => (c.listed .STD_CTRL).any (fun p => !(vfGrove old m (groveOf p.1)) && c.get Fields.STD_CTRL_lsg p.1 == lsg)
  in_ old || old.staged.any (fun x => x.reg == .STD_CTRL && !(vfGrove old m (groveOf x.idx)) && bitsOf (x.mask &&& x.value) 16 12 == lsg)

/-- The code of a stand command: none for an unlisted op. -/
def stdCmdOf (op : Nat) : Option StdCmd :=
  if op = 1 then some .admitCmd else if op = 2 then some .silence else if op = 3 then some .unsilence else if op = 4 then some .deregister else none

/-- A stand command meets the state of its stand. -/
def stdCmdOk (st : StandSt) : StdCmd → Bool
  | .admitCmd => st == .discovered
  | .silence => !(st == .absent)
  | .unsilence => st == .silenced
  | .deregister => !(st == .absent)

/-- STD registers. -/
def checkStd (old : Cfg) (d : Dev) (m : Nat) (r : Reg) (i w : Nat) : Status :=
  match r with
  | .STD_CTRL => need (!(isVf m && decide (bitsOf w 16 12 ≠ 0) && lsgTaken old m (bitsOf w 16 12))) .denied
  | .STD_CMD =>
    if bitsOf w 31 1 = 0 then .ok
    else match stdCmdOf (bitsOf w 0 4) with
      | none => .badValue
      | some k => need (stdCmdOk (d.st i) k) .wrongState
  | _ => .ok

/-! ### BGH and GNT (R193, R196, R210, R224, R383) -/

/-- The committed upstream sum of a grove keeps within its capacity (R196). -/
def assureOk (new : Cfg) (g : Nat) : Bool := decide (assureUsed new g ≤ assureCap new g)

/-- The committed downstream sum of a grove keeps within its capacity (R383). -/
def dsAssureOk (new : Cfg) (g : Nat) : Bool := decide (dsAssured new g + new.get Fields.SCH_GRV_MC_mc_cap g ≤ 1998848)

/-- A bound bough keeps both sums of its grove within bounds. -/
def sumsOk (new : Cfg) (b : Nat) : Bool :=
  match standOfBough new b with
  | some i => assureOk new (groveOf i) && dsAssureOk new (groveOf i)
  | none => true

/-- BGH_BIND: the checks of R193 in order. -/
def checkBind (old prev new : Cfg) (m b : Nat) : Status :=
  let i := new.get Fields.BGH_BIND_stand b
  let bound := new.flag Fields.BGH_BIND_bound b
  let was := prev.flag Fields.BGH_BIND_bound b
  let mine := (boundBoughs new).filter (fun x => x != b)
  if mcBase ≤ b then .badIndex
  else if fixedPos prev b then .wrongState
  else if isVf m && !(vfGrove old m (groveOf i)) then .denied
  else if bound && compat old (groveOf i) && decide (b < 1024) then .mode
  else if was && !(prev.get Fields.BGH_BIND_stand b == i && boughIdx prev b == boughIdx new b) then .wrongState
  else if bound && mine.any (fun x => standOfBough new x == some i && boughIdx new x == boughIdx new b) then .badValue
  else if bound && decide (4096 ≤ (mine.filter (fun x => new.get Fields.BGH_BIND_stand x / 1024 == i / 1024)).length) then .noRoom
  else need (sumsOk new b) .noRoom

/-- BGH registers. -/
def checkBgh (old prev new : Cfg) (m : Nat) (r : Reg) (b : Nat) : Status :=
  let settings := [Reg.BGH_CTRL, .BGH_FIXED, .BGH_ASSURED, .BGH_MAX, .BGH_POLL, .BGH_PRED].contains r
  if r = .BGH_BIND then checkBind old prev new m b
  else if !settings then .ok
  else if mcBase ≤ b then .badIndex
  else if [Reg.BGH_CTRL, .BGH_FIXED, .BGH_ASSURED].contains r && fixedPos prev b then .wrongState
  else if [Reg.BGH_ASSURED, .BGH_MAX].contains r && decide (new.get Fields.BGH_MAX_max b < new.get Fields.BGH_ASSURED_assured b) then .badValue
  else need (sumsOk new b) .noRoom

/-- GNT registers. -/
def checkGnt (new : Cfg) (r : Reg) (g : Nat) : Status :=
  match r with
  | .GNT_GRV_CTRL => need (decide (256 + 2 * (slicesOf new g true).length ≤ new.get Fields.GNT_GRV_CTRL_twig_max g)) .badValue
  | _ => .ok

/-! ### PIPE (R291, R295, R297, R303) -/

/-- A register of the rule-set banks. -/
def bankReg (r : Reg) : Bool :=
  [Reg.PIPE_SEL_W0, .PIPE_SEL_W1, .PIPE_PRF_EXT, .PIPE_PRF_LKP0, .PIPE_PRF_LKP1, .PIPE_PRF_L3, .PIPE_ACT_W0, .PIPE_ACT_W1, .PIPE_ACT_W2, .PIPE_ACT_W3].contains r

/-- Key bytes that a lookup reads (R288). -/
def lookupBytes (table width : Nat) : Nat :=
  if table = 0 then 0 else if table = 1 then 8 * 2 ^ width else if table = 2 then 8 else if width = 0 then 4 else 8

/-- Two extractions of a list write the same key byte. -/
def overlapAny : List (Bool × Nat × Nat × Nat) → Bool
  | [] => false
  | e :: t => t.any (fun x => decide (e.2.2.2 < x.2.2.2 + x.2.2.1) && decide (x.2.2.2 < e.2.2.2 + e.2.2.1)) || overlapAny t

/-- The checks of a bank entry (R291, R297). -/
def bankEntryOk (new : Cfg) (r : Reg) (i w : Nat) : Bool :=
  match r with
  | .PIPE_SEL_W0 => !(bitsOf w 28 2 == 3)
  | .PIPE_PRF_EXT =>
    let len := bitsOf w 8 4 + 1
    decide (bitsOf w 16 8 + len ≤ (if bitsOf w 30 1 = 0 then 256 else 16)) && decide (bitsOf w 0 6 + len ≤ 64)
      && !(overlapAny (extractions new (i / 1024) (i % 1024 / 16)))
  | .PIPE_PRF_LKP0 => !(bitsOf w 30 2 == 3 && decide (1 < bitsOf w 28 2)) && bitsOf w 16 6 % 8 == 0 && decide (bitsOf w 16 6 + lookupBytes (bitsOf w 30 2) (bitsOf w 28 2) ≤ 64)
  | .PIPE_ACT_W2 => !(bitsOf w 29 3 == 7)
  | .PIPE_ACT_W3 => decide (bitsOf w 0 8 + bitsOf w 8 8 ≤ 256)
  | _ => true

/-- A rule-set swap may be asked for, or a copy (R295). -/
def checkRs (old : Cfg) (d : Dev) (w : Nat) : Status :=
  (need (bitsOf w 31 1 == 0 || !(standbyLocked old d)) .locked).orElse
    (need (bitsOf w 0 1 == activeBank old || !(standbyLocked old d || bitsOf w 31 1 == 1)) .locked)

/-- PIPE registers. -/
def checkPipe (old new : Cfg) (d : Dev) (r : Reg) (i w : Nat) : Status :=
  if r = .PIPE_RS_CTRL then checkRs old d w
  else if !(bankReg r) then .ok
  else if r.lead i = activeBank old then .wrongState
  else if standbyLocked old d then .locked
  else need (bankEntryOk new r i w) .badValue

/-! ### TBL and ASC (R316, R320, R328, R335, R336) -/

/-- TBL_LOCK: a forced release, then the lock bit (R316). -/
def lockWrite (m t w : Nat) (d : Dev) : Status × Dev :=
  if bitsOf w 1 1 = 1 ∧ m ≠ 0 then (.denied, d)
  else
    let d := if bitsOf w 1 1 = 1 then releaseLock t d else d
    if bitsOf w 0 1 = 1 then acquireLock m t d else dropLock m t d

/-- TBL registers. A ring takes descriptors from its own master alone (R313). -/
def checkTbl (old : Cfg) (d : Dev) (m : Nat) (r : Reg) (i w : Nat) : Status :=
  match r with
  | .TBL_BR_SEED => need d.bridge.isEmpty .wrongState
  | .TBL_RING_SIZE => need (!(old.flag Fields.TBL_RING_CTRL_en i)) .wrongState
  | .TBL_LOCK => (lockWrite m i w d).1
  | .TBL_RING_TAIL => need (m == i) .denied
  | _ => .ok

/-- Any valid entry lies in a bank from `b` on, `n` of them. -/
def banksUsed (d : Dev) (b n : Nat) : Bool :=
  d.asc.any (fun p => p.2.valid && decide (b < p.1 / 4096 + ascGroup p.2.width) && decide (p.1 / 4096 < b + n))

/-- ASC_WIN_CMD with go set (R316, R336). -/
def checkWin (old : Cfg) (d : Dev) (m w : Nat) : Status :=
  if bitsOf w 31 1 = 0 then .ok
  else if d.winCmd.isSome then .locked
  else if bitsOf w 28 2 = 0 then .badValue
  else if (ascPos old (bitsOf w 0 20)).isNone then .badIndex
  else need (bitsOf w 28 2 == 2 || !(lockedFor d m 3)) .locked

/-- ASC registers. -/
def checkAsc (old : Cfg) (d : Dev) (m : Nat) (r : Reg) (i w : Nat) : Status :=
  match r with
  | .ASC_BANK_CFG =>
    if i % ascGroup (bitsOf w 0 2) ≠ 0 then .badValue else need (!(banksUsed d i (ascGroup (bitsOf w 0 2)))) .wrongState
  | .ASC_WIN_CMD => checkWin old d m w
  | .ASC_CAS_CTRL => need (casDown d) .wrongState
  | _ => .ok

/-! ### BUF (R339, R351, R359, R367) -/

/-- The sum of a tier's partition. -/
def poolSum (c : Cfg) (near : Bool) : Nat :=
  ((List.range 4).map (fun p => if near then c.get Fields.BUF_POOL_NEAR_near_mib p else c.get Fields.BUF_POOL_DEEP_deep_256m p)).sum

/-- No buffer of a tier is allocated. -/
def tierEmpty (d : Dev) (tier : Nat) : Bool := (List.range 4).all (fun p => (d.allocated tier p).isEmpty)

/-- BUF registers. -/
def checkBuf (new : Cfg) (d : Dev) (r : Reg) (i w : Nat) : Status :=
  match r with
  | .BUF_POOL_NEAR => if 64 < poolSum new true then .badValue else need (tierEmpty d 0) .wrongState
  | .BUF_POOL_DEEP => if 55 < poolSum new false then .badValue else need (tierEmpty d 1) .wrongState
  | .BUF_DEEP_CTRL => need (bitsOf w 31 1 == 0 || d.deepState == 0 || d.deepState == 3) .wrongState
  | .BUF_HOLD_CTRL => need (d.flag Fields.BUF_HOLD_STATUS_hold_down 0) .wrongState
  | .BUF_PRF_SPILL => need (decide (new.get Fields.BUF_PRF_KEEP_keep i ≤ new.get Fields.BUF_PRF_SPILL_spill_on i)) .badValue
  | .BUF_PRF_KEEP => need (decide (new.get Fields.BUF_PRF_KEEP_keep i ≤ new.get Fields.BUF_PRF_SPILL_spill_on i)) .badValue
  | _ => .ok

/-! ### SCH (R371, R383, R384, R387) -/

/-- A rate with 8 fractional bits in whole bytes, rounded up. -/
def ceilBytes (r : Nat) : Nat := (r + 255) / 256

/-- A burst is large enough for its rate (R371). -/
def burstOk (rate burst : Nat) : Bool := decide (max (ceilBytes rate) 16384 ≤ burst)

/-- A meter's burst is large enough for its rate (R387). -/
def meterBurstOk (rate burst : Nat) : Bool := decide (ceilBytes rate ≤ burst) && (rate == 0 || decide (16384 ≤ burst))

/-- A meter's rates and bursts (R387). -/
def meterOk (c : Cfg) (k : Nat) : Bool :=
  let cir := c.get Fields.SCH_POL_CIR_cir k
  let pir := c.get Fields.SCH_POL_PIR_pir k
  let cbs := c.get Fields.SCH_POL_CBS_cbs k
  let pbs := c.get Fields.SCH_POL_PBS_pbs k
  (!(c.get Fields.SCH_POL_CTRL_variant k == 0) || (decide (cir ≤ pir) && decide (cbs ≤ pbs))) && meterBurstOk cir cbs && meterBurstOk pir pbs

/-- The downstream rates of a bough (R371). -/
def bghRatesOk (c : Cfg) (b : Nat) : Bool :=
  burstOk (c.get Fields.SCH_BGH_MAX_max b) (c.get Fields.SCH_BGH_BURST_burst b)
    && (decide (mcBase ≤ b) || decide (c.get Fields.SCH_BGH_ASSURED_assured b ≤ c.get Fields.SCH_BGH_MAX_max b))

/-- The admission limits of a queue, or of an uplink port's class (R384). -/
def limitsOk (c : Cfg) (red yellow green : Fld) (q : Nat) : Bool := decide (c.get red q ≤ c.get yellow q) && decide (c.get yellow q ≤ c.get green q)

/-- SCH registers. -/
def checkSch (new : Cfg) (r : Reg) (i : Nat) : Status :=
  if [Reg.SCH_STD_MAX, .SCH_STD_BURST].contains r then need (burstOk (new.get Fields.SCH_STD_MAX_max i) (new.get Fields.SCH_STD_BURST_burst i)) .badValue
  else if [Reg.SCH_BGH_MAX, .SCH_BGH_BURST].contains r then need (bghRatesOk new i) .badValue
  else if [Reg.SCH_UP_GLIM, .SCH_UP_YLIM, .SCH_UP_RLIM].contains r then
    need (limitsOk new Fields.SCH_UP_RLIM_r_limit Fields.SCH_UP_YLIM_y_limit Fields.SCH_UP_GLIM_g_limit i) .badValue
  else if [Reg.SCH_Q_GLIM, .SCH_Q_YLIM, .SCH_Q_RLIM].contains r then
    need (limitsOk new Fields.SCH_Q_RLIM_r_limit Fields.SCH_Q_YLIM_y_limit Fields.SCH_Q_GLIM_g_limit i) .badValue
  else if [Reg.SCH_POL_CTRL, .SCH_POL_CIR, .SCH_POL_PIR, .SCH_POL_CBS, .SCH_POL_PBS].contains r then need (meterOk new i) .badValue
  else match r with
    | .SCH_GRV_MC => need (dsAssureOk new i) .noRoom
    | .SCH_BGH_ASSURED =>
      if !(bghRatesOk new i) then .badValue
      else (match standOfBough new i with
            | some k => need (dsAssureOk new (groveOf k)) .noRoom
            | none => .ok)
    | _ => .ok

/-! ### SLC (R248, R249, R255, R256, R262, R265, R274) -/

/-- Another enabled slice of the same grove and direction. -/
def slicePeers (c : Cfg) (s : Nat) : List Nat := (slicesOf c (sliceGrove c s) (sliceUp c s)).filter (fun x => x != s)

/-- The conditions under which an upstream slice is enabled, from its bough on (R248). -/
def enableUp (new : Cfg) (s : Nat) : Status :=
  let g := sliceGrove new s
  let peers := slicePeers new s
  let start := new.get Fields.SLC_SL_UP_start_leaf s
  let len := sliceTwigLen new s
  if !(decide (sliceBough new s < mcBase) && standOfBough new (sliceBough new s) == some (sliceStand new s)) then .wrongState
  else if !(decide (5 ≤ start) && decide (start + len ≤ 50000)
      && peers.all (fun x => let a := new.get Fields.SLC_SL_UP_start_leaf x; decide (a + sliceTwigLen new x ≤ start) || decide (start + len ≤ a))) then .badValue
  else if 2 ≤ (peers.filter (fun x => sliceStand new x == sliceStand new s)).length then .noRoom
  else need (decide (sliceCost new g + assureUsed new g ≤ 39755)
      && decide (256 + 2 * (slicesOf new g true).length ≤ new.get Fields.GNT_GRV_CTRL_twig_max g)) .noRoom

/-- Enabling a slice: the first condition of R248 that fails. -/
def enableSlice (old new : Cfg) (s : Nat) : Status :=
  let g := sliceGrove new s
  let f := sliceFirst new s
  let n := sliceN new s
  let top := if sliceUp new s then 12800 else new.get Fields.SLC_GRV_REGION_slots g
  if compat old g then .mode
  else if top < f + n then .badValue
  else if (slicePeers new s).any (fun x => decide (f < sliceFirst new x + sliceN new x) && decide (sliceFirst new x < f + n)) then .badValue
  else if 512 * n < new.get Fields.SLC_SL_FILL_fill s + 319 then .badValue
  else if sliceUp new s then enableUp new s else .ok

/-- A slice is named in either page or by an enabled flow (R256). -/
def sliceNamed (c : Cfg) (d : Dev) (s : Nat) : Bool :=
  (List.range 2).any (fun p => (d.conns.getD p []).any (fun x => x.src == s || x.dst == s))
    || (enabledFlows c).any (fun f =>
         (!(c.flag Fields.SLC_FL_CTRL_src_kind f) && c.get Fields.SLC_FL_CTRL_src f == s)
           || (c.flag Fields.SLC_FL_DST_dst_en f && c.get Fields.SLC_FL_DST_dst f == s)
           || (c.flag Fields.SLC_FL_DST_brg_en f && c.get Fields.SLC_FL_DST_brg f == s))

/-- A slice's own registers. -/
def checkSlice (old prev new : Cfg) (d : Dev) (r : Reg) (s : Nat) : Status :=
  let same := prev.word r s &&& r.rwsMask == new.word r s &&& r.rwsMask
  let otherSame := prev.word r s % 2 ^ 31 == new.word r s % 2 ^ 31
  if prev.flag Fields.SLC_SL_CTRL_en s then
    (if same then .ok
     else if r = .SLC_SL_CTRL ∧ new.flag Fields.SLC_SL_CTRL_en s = false ∧ otherSame = true then need (!(sliceNamed old d s || sliceNamed prev d s)) .wrongState
     else .wrongState)
  else if new.flag Fields.SLC_SL_CTRL_en s then enableSlice old new s
  else .ok

/-- SLC_CONN_CMD with go set (R255, R256), judged with the enables and disables that are staged (R269). -/
def checkConn (old new : Cfg) (d : Dev) (w : Nat) : Status :=
  let src := bitsOf w 0 11
  let dst := bitsOf w 16 11
  let on := fun s => new.flag Fields.SLC_SL_CTRL_en s
  if bitsOf w 31 1 = 0 then .ok
  else if bitsOf w 28 2 = 0 ∨ bitsOf w 28 2 = 3 then .badValue
  else if !(on src && on dst && sliceUp new src && !(sliceUp new dst) && sliceN new src == sliceN new dst) then .badValue
  else need (!(old.final.flag Fields.SLC_PAGE_CTRL_swap_req 0 || old.flag Fields.SLC_PAGE_CTRL_swap_req 0 || d.slcSwap == some d.sfc)) .locked

/-- The request code of a protection command (R262): CLEAR has none. -/
def pgCode (cmd : Nat) : Option Nat := if cmd = 1 then some 0xF else if cmd = 2 then some 0xD else if cmd = 3 then some 7 else none

/-- SLC_PG_CMD (R265). -/
def checkPg (old : Cfg) (d : Dev) (p w : Nat) : Status :=
  if bitsOf w 31 1 = 0 then .ok
  else if bitsOf w 0 3 = 4 then .ok
  else match pgCode (bitsOf w 0 3) with
    | none => .badValue
    | some k => need (decide (pgRequest old d p ≤ k)) .wrongState

/-- SLC registers. -/
def checkSlc (old prev new : Cfg) (d : Dev) (r : Reg) (i w : Nat) : Status :=
  match r with
  | .SLC_PAGE_CTRL => need (bitsOf w 31 1 == 0 || conflicts new d == 0) .badValue
  | .SLC_CONN_CMD => checkConn old new d w
  | .SLC_GRV_REGION =>
    need ((slicesOf new i false).all (fun s => decide (sliceFirst new s + sliceN new s ≤ new.get Fields.SLC_GRV_REGION_slots i))) .wrongState
  | .SLC_SL_CTRL => checkSlice old prev new d r i
  | .SLC_SL_SLOTS => checkSlice old prev new d r i
  | .SLC_SL_UP => checkSlice old prev new d r i
  | .SLC_SL_FILL => checkSlice old prev new d r i
  | .SLC_PG_CMD => checkPg old d i w
  | _ => .ok

/-! ### The judgement of a register write (R13, R36, R560, R607, R608) -/

/-- The check of the block that owns a register. -/
def checkBlock (old prev new : Cfg) (d : Dev) (m : Nat) (r : Reg) (i w : Nat) : Status :=
  match r.region with
  | 1 => checkTick old new d r i w
  | 2 => checkClk old new d r w
  | 3 => checkInt old new d r i w
  | 4 => checkAcc new r i w
  | 5 => checkCfg new d m r w
  | 6 => checkTime new d r i w
  | 7 => checkKey old new d m r w
  | 8 => checkMate d r w
  | 9 => checkCnt old new m r i w
  | 10 => checkLane old d r i w
  | 11 => checkGrv old new d r i w
  | 12 => checkStd old d m r i w
  | 13 => checkBgh old prev new m r i
  | 14 => checkGnt new r i
  | 15 => checkPipe old new d r i w
  | 16 => checkTbl old d m r i w
  | 17 => checkAsc old d m r i w
  | 18 => checkBuf new d r i w
  | 19 => checkSch new r i
  | 20 => checkSlc old prev new d r i w
  | _ => .ok

/-- The counter registers, whose writes are denied to every master (R602). -/
def counterReg (r : Reg) : Bool := [Reg.CNT_DEV_LO, .CNT_DEV_HI, .CNT_WIN_LO, .CNT_WIN_HI].contains r

/-- Registers whose every index lies in a range of its own: a base bank above 240 is an index (R297). -/
def rangeStatus (r : Reg) : Status := if r = .PIPE_PRF_LKP0 then .badIndex else .badValue

/-- A staged write finds the staging area full (R36). The loader is not held to it. -/
def stageFull (old : Cfg) (m : Nat) (r : Reg) : Bool := r.staged && decide (m ≠ 18) && decide (stageRoom ≤ old.fill)

/-- The status of a register write that the access rules have passed. -/
def checkReg (old : Cfg) (d : Dev) (m : Nat) (r : Reg) (i w : Nat) : Status :=
  if counterReg r then .denied
  else if !(modeCheck old d r i w == .ok) then modeCheck old d r i w
  else if r.readOnly then .ok
  else if !(inRange r w) then rangeStatus r
  else
    let prev := old.judged m
    let new := (old.accept d m r i w).judged m
    (checkBlock old prev new d m r i w).orElse (need (!(stageFull old m r)) .noRoom)

end Sys2Proof.Machine
end

