-- ==== Sys2Proof/Machine/Reset.lean ====
section
/-!
DEFINITION. Resets: PORST_N and restart (R499, R502, R524), STANDBY and wake (R496 to R498), PERST_N (R499) and function-level resets (R567).
-/

namespace Sys2Proof.Machine

/-! ### The flash cut short (R524) -/

/-- Write a byte of the configuration flash; a byte that nothing has written reads 0xFF, as erased. -/
def flashPut (a : Nat) (b : Byte) (d : Dev) : Dev := { d with flash := d.flash.setD a b 0xFF#8 }

/-- A byte of the configuration flash. -/
def flashAt (d : Dev) (a : Nat) : Byte := d.flash.getD a 0xFF#8

/-- Bytes of the flash that hold what nothing determines. -/
def flashFree (a n : Nat) (d : Dev) : Dev :=
  (List.range n).foldl (fun d k => flashPut (a + k) (BitVec.ofNat 8 (d.draw 256).1) (d.draw 256).2) d

/-- A reset during a program or an erase leaves its page or sector undefined. -/
def cutFlash (d : Dev) : Dev :=
  match d.flashOp with
  | some (.program a _) => flashFree (a / 256 * 256) 256 d
  | some (.erase a) => flashFree a 65536 d
  | _ => d

/-! ### PORST_N and restart (R41, R499, R502) -/

/-- The straps as CLK_STRAP shows them. -/
def showStraps (st : Straps) (d : Dev) : Dev :=
  (((d.set Fields.CLK_STRAP_mate_en 0 st.mateEn.toNat).set Fields.CLK_STRAP_cfg_src 0 st.cfgSrc).set Fields.CLK_STRAP_xo_wait 0 st.xoWait).set
    Fields.CLK_STRAP_devnum 0 st.devnum

/-- Everything but the keep store is reset; what has been sent stays sent, and the seal counter goes on above its ceiling (R401, R414). -/
def resetDev (d : Dev) : Dev :=
  let f := cutFlash d
  { Dev.reset with
    keep := d.keep, keepSfc := d.keepSfc, keepHmac := d.keepHmac, slots := d.slots, slotMeta := d.slotMeta, ceil := d.ceil
    keng := { queue := [], sealCtr := d.keng.sealCeil, sealCeil := d.keng.sealCeil }
    flash := f.flash, free := f.free, outbox := d.outbox }

/-- PORST_N_ASSERT: the device is held; the straps are sampled when it rises. -/
def porst (s : State) : State := { s with cfg := Cfg.reset, dev := resetDev s.dev }

/-- PORST_N_ASSERT. -/
def execPorstNAssert (s : State) : Outcome := .next (porst s)

/-- The device starts again with the straps it has, its cause recorded. -/
def startAgain (cause : Nat) (d : Dev) : Dev :=
  let d := { d with phase := .held }
  let d := match d.board with | some st => showStraps st d | none => d
  (d.set Fields.CLK_BOOT_boot_cause 0 cause).set Fields.CLK_BOOT_step 0 3

/-- A restart, as PORST_N would, from step 3. -/
def restartAll (s : State) : State :=
  { s with cfg := Cfg.reset, dev := (startAgain 1 { resetDev s.dev with board := s.dev.board }).count .device .restarts 0 }

/-! ### STANDBY (R496, R497, R498) -/

/-- The numbers of the registers that STANDBY retains: TOP, CLK, INT and ACC. -/
def retainedIds : List Nat := ((List.range 5).filter alwaysUp).flatMap (fun rg => (regsOfRegion rg).map (fun x => x.reg.id))

/-- The retained words of a register file. -/
def retainFile (f : RegFile) : RegFile := ⟨f.cells.filter (fun p => retainedIds.contains (p.1 / 2 ^ 22))⟩

/-- The configuration that STANDBY retains, with its staged writes, which commit at the first edge `n` after the wake (R39); a hold is lost with the TICK block. -/
def retainCfg (n : Nat) (c : Cfg) : Cfg :=
  { alone := false
    regs := retainFile c.regs
    staged := (c.staged.filter (fun w => alwaysUp w.reg.region && w.due.isSome)).map (fun w => { w with due := some n })
    stages := [] }

/-- The pending sources of the interrupt controller. -/
def pendingSources (c : Cfg) (d : Dev) : List Nat := ((c.listed .INT_SRC).map Prod.fst).filter (srcPending c d)

/-- The device as STANDBY retains it: the keep store, the four blocks that stay powered, the interrupt state and the endpoint's. -/
def standbyDev (pend : List Nat) (d : Dev) : Dev :=
  { resetDev d with
    phase := .standby, cyc := d.cyc, sts := retainFile d.sts, keepSfc := some d.sfc, flashOp := none
    inServ := d.inServ, savedPend := pend, vecs := d.vecs, msixEn := d.msixEn, funcMask := d.funcMask, vfEn := d.vfEn
    srcLost := d.srcLost, safeOut := d.safeOut, muxWait := d.muxWait, board := d.board }

/-- ENTER_STANDBY: the committed req_state asks for it (R496). -/
def enterStandby (s : State) : State :=
  let c := s.cfg
  if s.dev.running && standbyAsked c s.dev then
    let d := (List.range 64).foldl (fun d g => parkGrove c g d) s.dev
    let e := standbyDev (pendingSources c d) d
    { s with cfg := retainCfg (startSfc e) c, dev := e.set Fields.CLK_PWR_STAT_state 0 2 }
  else s

/-- ENTER_STANDBY. -/
def execEnterStandby (s : State) : Outcome := .next (enterStandby s)

/-- WAKE: req_state = RUN has been written in STANDBY (R498). -/
def wake (s : State) : State :=
  if s.dev.phase == .standby && s.cfg.final.get Fields.CLK_PWR_req_state 0 == 0 then
    s.withDev ((startAgain 2 s.dev).count .device .wakes 0)
  else s

/-- WAKE. -/
def execWake (s : State) : Outcome := .next (wake s)

/-! ### The endpoint (R499, R557, R567) -/

/-- PERST_N resets the PCIe endpoint only. -/
def perst (d : Dev) : Dev :=
  { d with msixEn := [], funcMask := [], vfEn := false, vecs := d.vecs.mapVals (fun _ x => { x with masked := true, pba := false }) }

/-- PERST_N. -/
def execPerstN (s : State) : Outcome := onDev (fun _ d => perst d) s

/-- The last-status entry of a master is cleared. -/
def clearEntry (m : Nat) (d : Dev) : Dev :=
  let clear := fun (f : RegFile) (r : Reg) => f.setWord stsReset r m 0
  { d with sts := [Reg.TOP_LAST_STAT, .TOP_LAST_ADDR, .TOP_FIRST_ADDR, .TOP_LAST_SFC].foldl clear d.sts }

/-- What a reset of function `f` clears in the configuration: the hold with its held writes, and the ring. -/
def resetFnCfg (f : Nat) (c : Cfg) : Cfg :=
  ((c.discardHeld f).set Fields.TICK_STAGE_CTL_hold f 0).set Fields.TBL_RING_CTRL_en f 0 |>.set Fields.TBL_RING_TAIL_tail f 0

/-- What it clears in the device (R567). -/
def resetFnDev (f held : Nat) (d : Dev) : Dev :=
  let d := (clearEntry f d).count .device .flrDiscard f held
  let d := (List.range 4).foldl (fun d t => if d.lockOf t == some f then releaseLock t d else d) d
  clearVectors f (d.set Fields.TBL_RING_HEAD_head f 0)

/-- One function is reset. -/
def resetFn (f : Nat) (s : State) : State :=
  { s with cfg := resetFnCfg f s.cfg, dev := resetFnDev f (s.cfg.stage f).held s.dev }

/-- FUNCTION_LEVEL_RESET (R567): a reset of PF0 clears VF Enable and resets every VF. -/
def functionReset (f : Nat) (s : State) : State :=
  if !(functionUp s.dev f) then s
  else if f = 0 then
    let s := (List.range 16).foldl (fun s k => resetFn k s) s
    s.withDev { s.dev with vfEn := false }
  else resetFn f s

/-- FUNCTION_LEVEL_RESET. -/
def execFunctionLevelReset (f : Fin 16) (s : State) : Outcome := .next (functionReset f s)

end Sys2Proof.Machine
end

