-- ==== Sys2Proof/Machine/HostRun.lean ====
section
/-!
DEFINITION. What an accepted register write does beside setting its fields: the commands of WO fields, the flags that a one clears, and the settings that act at
once, block by block. `old` is the configuration before the write and `new` the one after it.
-/

namespace Sys2Proof.Machine

/-! ### Flags cleared by a one (R10, R151) -/

/-- The run of consecutive ticks that the clearing of a pinned flag ends (R151). -/
def pinnedRun (r : Reg) (i : Nat) : Option (Nat × RunKind × Nat) :=
  match r with
  | .GRV_RNG_FLAGS => some (1, .preset, i)
  | .BGH_STATUS => some (31, .pred, i)
  | .BUF_Q_DEEP => some (31, .queue, i)
  | .MATE_OFS_DS => some (30, .offset, i)
  | .CLK_AON_TRIM => some (31, .trim, 0)
  | .LANE_UP_STATUS => some (28, .rx, i)
  | .LANE_PLX_STATUS => some (30, .rx, 64 + i)
  | .GRV_US_STATUS => some (0, .light, i)
  | _ => none

/-- The W1C fields of a write. A run that a cleared flag restarts counts from the next tick on: all its ticks follow the clear (R115, R151). -/
def clearFlags (r : Reg) (i w : Nat) (d : Dev) : Dev :=
  let k := r.w1cMask &&& w
  if k = 0 then d
  else
    let v := d.sts.word stsReset r i
    let d := { d with sts := d.sts.setWord stsReset r i (v - (v &&& k)) }
    match pinnedRun r i with
    | some (b, run, j) => if w.testBit b then { d.setRun run j 0 with hits := d.hits.put (runKey run j) 3 } else d
    | none => d

/-! ### TICK, CLK, CFG -/

/-- The tick's phase moves to where the source puts it: the clock is counted from the source's place for the commit edge. The spec says of no place where the
source has shown no edge: the clock is then a free value (R51). -/
def movePhase (c : Cfg) (d : Dev) : Dev :=
  match d.srcEdge with
  | some e =>
    let back := tickClocks - sourcePlace c e
    { d with clock := (d.clock + back) % tickClocks, srcEdge := some ((e + back) % tickClocks) }
  | none => { (d.draw tickClocks).2 with clock := (d.draw tickClocks).1 }

/-- An alignment (R51): the phase moves once, to where the source puts it, and the source is watched from then on. A change of phase_src ends the former
alignment; edges of the mate are none of TICK_IN. Before the first commit edge an accepted align_req sets aligned and moves no phase, and the run of R52 and its mark
go on over a new alignment and a change of phase_src (DESIGN CHOICE, log 28). -/
def tickCtrlRun (old new : Cfg) (w : Nat) (d : Dev) : Dev :=
  let d := if phaseSrc old = phaseSrc new then d else { loseAlignment d with srcEdge := if phaseSrc old = 2 ∨ phaseSrc new = 2 then none else d.srcEdge }
  if bitsOf w 2 1 = 1 then
    let d := (d.raise Fields.TICK_STATUS_aligned 0).armNext .alignSrc 0
    if d.running then movePhase new d else d
  else d

/-- A flash command begins (R522). -/
def flashRun (new : Cfg) (w : Nat) (d : Dev) : Dev :=
  let a := new.get Fields.CFG_FLASH_ADDR_addr 0
  let len := bitsOf w 0 9
  let op := if bitsOf w 28 2 = 1 then FlashOp.read a len
    else if bitsOf w 28 2 = 2 then FlashOp.program a ((wordBytes (new.words .CFG_FLASH_BUF 64)).take len)
    else FlashOp.erase a
  ({ d with flashOp := some op }.raise Fields.CFG_FLASH_STAT_busy 0).count .device .flashCmds 0

/-- An image check begins (R522). -/
def checkRun (w : Nat) (d : Dev) : Dev :=
  ({ d with flashOp := some (.check (bitsOf w 8 1)) }.raise Fields.CFG_FLASH_STAT_busy 0).raise Fields.CFG_CHECK_busy 0

/-- Whether the command bit of a word is set. -/
def goBit (w : Nat) : Bool := bitsOf w 31 1 == 1

/-- A TICK, CLK or CFG register. -/
def runSystem (old new : Cfg) (r : Reg) (i w : Nat) (d : Dev) : Dev :=
  match r with
  | .TICK_CTRL => tickCtrlRun old new w d
  | .TICK_LOOP_DELAY => d.updGrove i (fun x => { x with loopDelay := w % 16 })
  | .CLK_CORE_SEL => selectRun old new d
  | .CLK_UP_SEL => selectRun old new d
  | .CLK_PLX_SEL => selectRun old new d
  | .CLK_CTRL => if goBit w then { d with resumeReq := true } else d
  | .CFG_POLICY => { d with keepHmac := w % 2 }
  | .CFG_FLASH_CMD => if goBit w then flashRun new w d else d
  | .CFG_CHECK => if goBit w then checkRun w d else d
  | _ => d

/-! ### INT, TIME, KEY, MATE, CNT, LANE -/

/-- A key-engine command begins: REKEY starts its agreement at once, the others run until KEY_COMMAND_DONE (R397, R424). -/
def keyCmdRun (new : Cfg) (m w : Nat) (d : Dev) : Dev :=
  let op := bitsOf w 24 4
  if op = 1 then (askKeys new (bitsOf w 0 16) true d).set Fields.KEY_CMD_STAT_status 0 Status.ok.code
  else
    { d.raise Fields.KEY_CMD_STAT_busy 0 with
      keyCmd := some { op := op, target := bitsOf w 0 16, len := new.get Fields.KEY_CMD_LEN_len 0, aad := new.get Fields.KEY_CMD_LEN_aad_len 0, master := m } }

/-- Remove the head record of a sampler (R596). -/
def smpPopRun (p : Nat) (d : Dev) : Dev := { d with samplers := d.samplers.put p { d.sampler p with recs := (d.sampler p).recs.drop 1 } }

/-- An INT to LANE register. -/
def runShared (old new : Cfg) (m : Nat) (r : Reg) (i w : Nat) (d : Dev) : Dev :=
  match r with
  | .INT_COMPLETE => (complete (i / 64) (i % 64) (bitsOf w 0 12) d).2
  | .TIME_X_CMD => timeCmdRun new i w d
  | .TIME_X_FREQ => noteTime new d
  | .TIME_X_ADJ_RATE => noteTime new d
  | .TIME_TX_CTRL => txInjectRun new w d
  | .TIME_CAP_STAT => capPopRun w d
  | .KEY_CMD => if goBit w then keyCmdRun new m w d else d
  | .MATE_CTRL => mateCtrlRun new w d
  | .CNT_WIN_SEL => dropWindow m d
  | .CNT_SMP_POP => if goBit w then smpPopRun i d else d
  | .LANE_UP_CFG => watchRecovered new (upCfgRun old new i) d
  | .LANE_TEST => checkerRun old new Fields.LANE_TEST_chk_en 0 i d
  | .LANE_PON_CTRL => checkerRun old new Fields.LANE_PON_CTRL_chk_en 1 i d
  | .LANE_PLX_CTRL => plxCtrlRun old new i d
  | _ => d

/-! ### GRV, STD, GNT -/

/-- A HOST_MSG joins its grove's queue (R179). -/
def hostMsgRun (new : Cfg) (g w : Nat) (d : Dev) : Dev :=
  let body := (wordBytes ((List.range 12).map (fun k => new.word .GRV_MSG_TX_BODY (12 * g + k)))).take 46
  d.updGrove g (fun x => { x with msgQ := x.msgQ ++ [{ ty := 0x12, stand := bitsOf w 0 9, body := body, host := true }] })

/-- GRV_RNG_CMD (R148, R152, R154, R163): re-range, forget, relearn. -/
def rngCmdRun (i op : Nat) (d : Dev) : Dev :=
  if op = 1 then d.updRng i (fun x => { x with twigDue := true })
  else if op = 2 then { d with keep := d.keep.erase i }
  else unlearn i d

/-- An OMCI message waits for its frame (R237): a length of 0 stands for 2,048 bytes. -/
def omciTxRun (new : Cfg) (g w : Nat) (d : Dev) : Dev :=
  let len := if bitsOf w 16 11 = 0 then 2048 else bitsOf w 16 11
  let bytes := (wordBytes ((List.range 512).map (fun k => new.word .GRV_CPT_OMCI_TXBUF (512 * g + k)))).take len
  d.updGrove g (fun x => { x with omciTx := some (standId g (bitsOf w 0 9), bytes, d.sfc) })

/-- force_ovr (R223): in the COMMIT region it abandons the computation of this tick, after it that of the next. -/
def forceRun (g : Nat) (d : Dev) : Dev :=
  d.updGrove g (fun x => if regionOf d.clock = 0 then { x with forceNow := true } else { x with forceNext := true })

/-- A GRV, STD or GNT register. -/
def runLine (new : Cfg) (r : Reg) (i w : Nat) (d : Dev) : Dev :=
  match r with
  | .GRV_US_RSSI_CTRL =>
    if goBit w then (d.updGrove i (fun x => { x with rssiArm := some (bitsOf w 0 9) })).set Fields.GRV_US_RSSI_CTRL_rssi_done i 0 else d
  | .GRV_US_CAP_CTRL => if goBit w then (d.updGrove i (fun x => { x with capArm := true })).set Fields.GRV_US_CAP_CTRL_cap_done i 0 else d
  | .GRV_CLEARING_CTRL => if bitsOf w 1 1 = 1 then d.updGrove i (fun x => { x with clearAt := x.clearAt ++ [d.sfc + 2] }) else d
  | .GRV_RNG_CMD => if goBit w then rngCmdRun (standId i (bitsOf w 0 9)) (bitsOf w 16 2) d else d
  | .GRV_MSG_TX_CMD => if goBit w then hostMsgRun new i w d else d
  | .GRV_MSG_RX_STAT => if goBit w then d.updGrove i (fun x => { x with rxFifo := x.rxFifo.drop 1 }) else d
  | .GRV_CPT_OMCI_TXCTL => if goBit w then omciTxRun new i w d else d
  | .GRV_CPT_OMCI_RXSTAT => if goBit w then d.updGrove i (fun x => { x with omciRx := x.omciRx.drop 1 }) else d
  | .STD_CMD =>
    if goBit w then
      (match stdCmdOf (bitsOf w 0 4) with
       | some k => d.updLife i (fun l => { l with cmds := l.cmds ++ [k] })
       | none => d)
    else d
  | .GNT_GRV_CTRL => if goBit w then forceRun i d else d
  | _ => d

/-! ### PIPE, TBL, ASC, BUF, SLC -/

/-- A window command begins (R336). -/
def winRun (m w : Nat) (d : Dev) : Dev :=
  { d.raise Fields.ASC_WIN_STAT_busy 0 with winCmd := some { op := bitsOf w 28 2, addr := bitsOf w 0 20, master := m } }

/-- A new partition of a tier: the caches of its free buffers are empty (R339, R340). -/
def poolRun (tier : Nat) (d : Dev) : Dev := { d with caches := d.caches.filter (fun p => decide (p.1 / 256 ≠ tier)) }

/-- SLC_CONN_CMD (R255): a connection of the standby page is set, or a leg cleared. -/
def connRun (w : Nat) (d : Dev) : Dev :=
  let src := bitsOf w 0 11
  let leg := bitsOf w 27 1
  let page := 1 - d.get Fields.SLC_PAGE_CTRL_active 0
  let rest := (d.conns.getD page []).filter (fun x => !(x.src == src && x.leg == leg))
  { d with conns := d.conns.put page (if bitsOf w 28 2 = 1 then rest ++ [{ src := src, leg := leg, dst := bitsOf w 16 11 }] else rest) }

/-- SLC_PG_CMD (R265): the command takes effect at the next edge; CLEAR is 0. -/
def pgRun (p w : Nat) (d : Dev) : Dev := d.updPg p (fun x => { x with cmd := some ((pgCode (bitsOf w 0 3)).getD 0) })

/-- A PIPE to SLC register. -/
def runTraffic (m : Nat) (r : Reg) (i w : Nat) (d : Dev) : Dev :=
  match r with
  | .PIPE_RS_CTRL => if goBit w then d.raise Fields.PIPE_RS_STATUS_copy_busy 0 else d
  | .TBL_LOCK => (lockWrite m i w d).2
  | .ASC_WIN_CMD => if goBit w then winRun m w d else d
  | .BUF_POOL_NEAR => poolRun 0 d
  | .BUF_POOL_DEEP => poolRun 1 d
  | .BUF_DEEP_CTRL => if goBit w then { d with training := true } else d
  | .SLC_CONN_CMD => if goBit w then connRun w d else d
  | .SLC_PG_CMD => if goBit w then pgRun i w d else d
  | _ => d

/-! ### The whole effect -/

/-- The device's part of an accepted write: the flags cleared, then the command. -/
def runDev (old new : Cfg) (m : Nat) (r : Reg) (i w : Nat) (d : Dev) : Dev :=
  let d := clearFlags r i w d
  if r.region ≤ 2 ∨ r.region = 5 then runSystem old new r i w d
  else if r.region ≤ 10 then runShared old new m r i w d
  else if r.region ≤ 14 then runLine new r i w d
  else runTraffic m r i w d

/-- A bound on a lane's transmit taps clamps them at once (R552). -/
def clampTx (lane : Nat) (c : Cfg) : Cfg :=
  let pre := c.get Fields.LANE_TX_BOUND_pre_max lane
  let tap := fun (lo bound : Nat) => clampTap (bitsOf (c.word .LANE_TX_EQ lane) lo 6) bound
  let w := c.word .LANE_TX_EQ lane
  c.setWord .LANE_TX_EQ lane (setBits (setBits (setBits (setBits w 24 6 (tap 24 pre)) 18 6 (tap 18 pre)) 12 6 (tap 12 pre)) 0 6
    (tap 0 (c.get Fields.LANE_TX_BOUND_post_max lane)))
where
  /-- A tap of 6 bits held within a bound. -/
  clampTap (v bound : Nat) : Nat := twos 6 (max (-(bound : Int)) (min (bound : Int) (signed 6 v)))

/-- The configuration's part: the release of a hold (R37), and the clamp of R552. -/
def runCfg (old new : Cfg) (d : Dev) (r : Reg) (i w : Nat) : Cfg :=
  match r with
  | .TICK_STAGE_CTL => if holding old i && bitsOf w 0 1 == 0 then new.release d i else new
  | .LANE_TX_BOUND => clampTx i new
  | _ => new

/-- The effects of an accepted write. -/
def runWrite (old : Cfg) (m : Nat) (r : Reg) (i w : Nat) (s : State) : State :=
  if r = .CLK_CTRL ∧ bitsOf w 30 1 = 1 then restartAll s
  else { s with cfg := runCfg old s.cfg s.dev r i w, dev := runDev old s.cfg m r i w s.dev }

/-- What a refused write still does: a stray completion, a refused message and a full staging area are counted (R36, R179, R573). -/
def refuseWrite (c : Cfg) (m : Nat) (r : Reg) (i w : Nat) (st : Status) (d : Dev) : Dev :=
  match r with
  | .INT_COMPLETE => (complete (i / 64) (i % 64) (bitsOf w 0 12) d).2
  | .GRV_MSG_TX_CMD => if st = .noRoom then d.count .grove .msgRefused i else d
  | _ => if st = .noRoom ∧ stageFull c m r = true then (d.raise Fields.TICK_STATUS_staging_full 0).count .device .stagingFull m else d

end Sys2Proof.Machine
end

