-- ==== Sys2Proof/Machine/Host.lean ====
section
/-!
DEFINITION. Register accesses of the masters (R9 to R13, R558, R561, R607, R608) and the commands that are register writes or reads of their own.
-/

namespace Sys2Proof.Machine

/-! ### Writes -/

/-- The highest fill of the staging area since reset (R59). -/
def noteFill (c : Cfg) (d : Dev) : Dev := d.set Fields.TICK_STAGE_FILL_high_water 0 (max (d.get Fields.TICK_STAGE_FILL_high_water 0) c.fill)

/-- A status is recorded for a write of a register, but not one of the master's own last-status entry (R561). -/
def recordWrite (m : Nat) (r : Reg) (i : Nat) (st : Status) (d : Dev) : Dev := if ownEntry m r i then d else record m (addrOf r i) st d

/-- An accepted write: recorded, its fields set or staged, its command executed. -/
def acceptWrite (m : Nat) (r : Reg) (i w : Nat) (s : State) : State :=
  let c := s.cfg.accept s.dev m r i w
  runWrite s.cfg m r i w { s with cfg := c, dev := noteFill c (recordWrite m r i .ok s.dev) }

/-- A refused write: recorded, with the state unchanged but for what R36, R179 and R573 count. -/
def rejectWrite (m : Nat) (r : Reg) (i w : Nat) (st : Status) (s : State) : State :=
  s.withDev (recordWrite m r i st (refuseWrite s.cfg m r i w st s.dev))

/-- The status of a write of a register, judged as R607 says; `extra` is a check of the command that the write issues. -/
def writeStatus (extra : Status) (m : Nat) (r : Reg) (i w : Nat) (s : State) : Status :=
  extra.orElse (checkReg s.cfg s.dev m r i w)

/-- A write of a register whose place the access rules let pass. -/
def passedWrite (extra : Status) (m : Nat) (r : Reg) (i w : Nat) (s : State) : State :=
  let st := writeStatus extra m r i w s
  if st = .ok then acceptWrite m r i w s else rejectWrite m r i w st s

/-- A whole DWORD written by a master to a register: the sources in service are looked at before and after it (R575). -/
def writeWith (extra : Status) (m : Nat) (r : Reg) (i w : Nat) (s : State) : State :=
  if !(makesAccess m) then s
  else
    let s := s.withDev (watchSources (fun _ => false) s.dev)
    let s := match judgeReg s.cfg s.dev m r i (some w) with
      | some st => s.withDev (stopAccess m (addrOf r i) st s.dev)
      | none => passedWrite extra m r i w s
    s.withDev (watchSources (fun f => f == m) s.dev)

/-- A write of a register. -/
def hostWrite (m : Nat) (r : Reg) (i w : Nat) (s : State) : State := writeWith .ok m r i w s

/-- The BAR0 offset of a DWORD. -/
def dwordOf (addr : Nat) : Nat := addr / 4 * 4

/-- The first two checks of R607 for an address; an address in no block has no entry. -/
def judgeAddr (c : Cfg) (d : Dev) (m addr : Nat) (w : Option Nat) : Option Status :=
  match blockOf addr with
  | some (rg, off) => judgePlace c d m rg off w
  | none => none

/-- A write that changes nothing and records a status behind the checks of R607: partial byte enables, or an unassigned offset. -/
def strayWrite (m addr w : Nat) (st : Status) (assigned : Bool) (s : State) : State :=
  match judgeAddr s.cfg s.dev m addr (some w) with
  | some e => s.withDev (stopAccess m addr e s.dev)
  | none =>
    if assigned then s.withDev (record m addr st s.dev)
    else s.withDev (record m addr .badIndex (s.dev.count .device .unassignedAccess m))

/-- A write of the whole of CLK_PWR is a write of req_state, which a paired device rejects whatever the value (R493). -/
def wordCheck (d : Dev) (r : Reg) : Status := if r = .CLK_PWR then need (!d.isPaired) .mode else .ok

/-- A write of a DWORD through BAR0 or another register path, with its byte enables (R558). -/
def writeAt (m addr w be : Nat) (s : State) : State :=
  if be = 0 ∨ makesAccess m = false then s
  else
    match decodeAddr addr with
    | some (r, i) =>
      if be = 15 then writeWith (wordCheck s.dev r.reg) m r.reg i w s
      else if ownEntry m r.reg i then s
      else strayWrite m addr w .badValue true s
    | none => strayWrite m addr w .badIndex false s

/-- A write that lands in the endpoint itself (R557, R574): bit 0 is the new state of the mask or enable. VF Enable is PF0's. -/
def writeEndpoint (m : Nat) (target : WriteTarget) (v : Bool) (d : Dev) : Dev :=
  let put := fun (xs : List Nat) => if v then (if xs.contains m then xs else m :: xs) else xs.filter (fun x => x != m)
  match target with
  | .bar0 => d
  | .vecMask k => if m < 16 then d.updVec (m * 64 + k) (fun x => { x with masked := v }) else d
  | .funcMask => if m < 16 then { d with funcMask := put d.funcMask } else d
  | .msixEnable => if m < 16 then { d with msixEn := put d.msixEn } else d
  | .vfEnable => if m = 0 then { d with vfEn := v } else d

/-- REGISTER_WRITE. -/
def execRegisterWrite (m : Fin 20) (target : WriteTarget) (addr : Fin 536870912) (value : Word) (be : Fin 16) (s : State) : Outcome :=
  match target with
  | .bar0 => .next (writeAt m (dwordOf addr) value.toNat be s)
  | t => .next (s.withDev (writeEndpoint m t (value.toNat % 2 == 1) s.dev))

/-! ### Reads -/

/-- What a read of a register returns, and what it does: a claim, a pop, or a latch (R9, R179, R572). -/
def readValue (c : Cfg) (m : Nat) (r : Reg) (i : Nat) (d : Dev) : Nat × Dev :=
  match lowWord r i with
  | some (low, j) => (latchedWord d m low j r i, d)
  | none =>
    if r = .INT_CLAIM then claim c (i / 64) (i % 64) d
    else if r = .GRV_MSG_TX_DONE2 then (readReg c d m r i, d.updGrove i (fun x => { x with done := x.done.drop 1 }))
    else (readReg c d m r i, takeLatch c m r i d)

/-- A read of a DWORD that is refused. -/
def refuseRead (m addr : Nat) (st : Status) (d : Dev) : Dev := (stopAccess m addr st d).emit (.readData m addr 0xFFFFFFFF)

/-- A read of a register by a master. -/
def hostRead (m : Nat) (r : Reg) (i : Nat) (s : State) : State :=
  if !(makesAccess m) then s
  else
    match judgeReg s.cfg s.dev m r i none with
    | some st => s.withDev (refuseRead m (addrOf r i) st s.dev)
    | none =>
      let v := readValue s.cfg m r i s.dev
      s.withDev (v.2.emit (.readData m (addrOf r i) v.1))

/-- A read of a DWORD: partial byte enables return the whole of it, none at all is no access (R558); an unassigned offset reads zero (R607). -/
def readAt (m addr be : Nat) (s : State) : State :=
  if makesAccess m = false then s
  else if be = 0 then s.withDev (s.dev.emit (.readData m addr 0))
  else
    match decodeAddr addr with
    | some (r, i) => hostRead m r.reg i s
    | none =>
      match judgeAddr s.cfg s.dev m addr none with
      | some st => s.withDev (refuseRead m addr st s.dev)
      | none => s.withDev ((s.dev.count .device .unassignedAccess m).emit (.readData m addr 0))

/-- LATCHED_READ. -/
def execLatchedRead (m : Fin 20) (addr : Fin 536870912) (be : Fin 16) (s : State) : Outcome := .next (readAt m (dwordOf addr) be s)

/-- INT_CLAIM. -/
def execIntClaim (m : Fin 20) (f : Fin 16) (v : Fin 64) (s : State) : Outcome := .next (hostRead m .INT_CLAIM (f * 64 + v) s)

/-- MSG_TX_DONE_POP. -/
def execMsgTxDonePop (m : Fin 20) (g : Fin 64) (s : State) : Outcome := .next (hostRead m .GRV_MSG_TX_DONE2 g s)

/-! ### Commands of TICK, CLK, INT, ACC and CFG -/

/-- The command bit. -/
def go : Nat := 2 ^ 31

/-- ALIGN_REQ (R51). -/
def execAlignReq (m : Fin 20) (src : Fin 4) (s : State) : Outcome := .next (hostWrite m .TICK_CTRL 0 (4 + src) s)

/-- STAGE_HOLD (R37). -/
def execStageHold (m : Fin 20) (s : State) : Outcome := .next (hostWrite m .TICK_STAGE_CTL m 1 s)

/-- STAGE_RELEASE (R37). -/
def execStageRelease (m : Fin 20) (s : State) : Outcome := .next (hostWrite m .TICK_STAGE_CTL m 0 s)

/-- LOOP_DELAY_WRITE (R44). -/
def execLoopDelayWrite (m : Fin 20) (g : Fin 64) (t : Fin 16) (s : State) : Outcome := .next (hostWrite m .TICK_LOOP_DELAY g t s)

/-- The selection register of a CLOCK_SELECT. -/
def selectReg (which : Nat) : Reg := if which = 0 then .CLK_CORE_SEL else if which = 1 then .CLK_UP_SEL else .CLK_PLX_SEL

/-- CLOCK_SELECT (R486). -/
def execClockSelect (m : Fin 20) (which : Fin 3) (value : Word) (s : State) : Outcome := .next (hostWrite m (selectReg which) 0 value.toNat s)

/-- RESUME (R489). -/
def execResume (m : Fin 20) (s : State) : Outcome := .next (hostWrite m .CLK_CTRL 0 go s)

/-- RESTART (R502). -/
def execRestart (m : Fin 20) (s : State) : Outcome := .next (hostWrite m .CLK_CTRL 0 (2 ^ 30) s)

/-- REQ_STATE_WRITE (R493, R496, R498): a paired device rejects it. The other field keeps its value. -/
def execReqStateWrite (m : Fin 20) (st : Fin 4) (s : State) : Outcome :=
  .next (writeWith (need (!s.dev.isPaired) .mode) m .CLK_PWR 0 (setBits (cfgShown s.cfg .CLK_PWR 0) 0 2 st) s)

/-- PARK_MASK_WRITE (R494). The other field keeps its value. -/
def execParkMaskWrite (m : Fin 20) (mask : Fin 16) (s : State) : Outcome :=
  .next (hostWrite m .CLK_PWR 0 (setBits (cfgShown s.cfg .CLK_PWR 0) 4 4 mask) s)

/-- INT_COMPLETE (R573). -/
def execIntComplete (m : Fin 20) (f : Fin 16) (v : Fin 64) (src : Fin 4096) (s : State) : Outcome :=
  .next (hostWrite m .INT_COMPLETE (f * 64 + v) src s)

/-- INT_SRC_WRITE (R568, R570). -/
def execIntSrcWrite (m : Fin 20) (src : Fin 4096) (value : Word) (s : State) : Outcome := .next (hostWrite m .INT_SRC src value.toNat s)

/-- The BAR0 offset of an offset of the ACC block. -/
def accAddr (off : Nat) : Nat := addrOf .ACC_RGN_LO 0 - Reg.ACC_RGN_LO.desc.off + dwordOf off

/-- ACC_WRITE (R563, R564). -/
def execAccWrite (m : Fin 20) (off : Fin 2048) (value : Word) (s : State) : Outcome := .next (writeAt m (accAddr off) value.toNat 15 s)

/-- FLASH_READ (R522). -/
def execFlashRead (m : Fin 20) (len : Fin 512) (s : State) : Outcome := .next (hostWrite m .CFG_FLASH_CMD 0 (go + 2 ^ 28 + len) s)

/-- FLASH_PROGRAM (R522). -/
def execFlashProgram (m : Fin 20) (len : Fin 512) (s : State) : Outcome := .next (hostWrite m .CFG_FLASH_CMD 0 (go + 2 * 2 ^ 28 + len) s)

/-- FLASH_ERASE (R522). -/
def execFlashErase (m : Fin 20) (s : State) : Outcome := .next (hostWrite m .CFG_FLASH_CMD 0 (go + 3 * 2 ^ 28) s)

/-- CFG_CHECK (R522). -/
def execCfgCheck (m : Fin 20) (which : Fin 2) (s : State) : Outcome := .next (hostWrite m .CFG_CHECK 0 (go + 256 * which) s)

/-! ### Commands of TIME, KEY, MATE and CNT -/

/-- TIME_SET (R458). -/
def execTimeSet (m : Fin 20) (x : Fin 2) (s : State) : Outcome := .next (hostWrite m .TIME_X_CMD x (go + 1) s)

/-- TIME_ADJ (R458). -/
def execTimeAdj (m : Fin 20) (x : Fin 2) (s : State) : Outcome := .next (hostWrite m .TIME_X_CMD x (go + 2) s)

/-- FREQ_WRITE (R457). -/
def execFreqWrite (m : Fin 20) (x : Fin 2) (value : Word) (s : State) : Outcome := .next (hostWrite m .TIME_X_FREQ x value.toNat s)

/-- TIME_TX_INJECT (R466). -/
def execTimeTxInject (m : Fin 20) (value : Word) (s : State) : Outcome := .next (hostWrite m .TIME_TX_CTRL 0 (value.toNat ||| go) s)

/-- CAP_POP (R465). -/
def execCapPop (m : Fin 20) (s : State) : Outcome := .next (hostWrite m .TIME_CAP_STAT 0 go s)

/-- The word of a key-engine command. -/
def keyWord (op arg : Nat) : Nat := go + op * 2 ^ 24 + arg % 65536

/-- REKEY (R409, R424). -/
def execRekey (m : Fin 20) (i : Fin 16384) (s : State) : Outcome := .next (hostWrite m .KEY_CMD 0 (keyWord 1 i) s)

/-- UNWRAP (R414). -/
def execUnwrap (m : Fin 20) (value : Word) (s : State) : Outcome := .next (hostWrite m .KEY_CMD 0 (keyWord 2 value.toNat) s)

/-- ERASE (R424). -/
def execErase (m : Fin 20) (value : Word) (s : State) : Outcome := .next (hostWrite m .KEY_CMD 0 (keyWord 3 value.toNat) s)

/-- SEAL (R415). -/
def execSeal (m : Fin 20) (value : Word) (s : State) : Outcome := .next (hostWrite m .KEY_CMD 0 (keyWord 4 value.toNat) s)

/-- OPEN (R415). -/
def execOpenCmd (m : Fin 20) (value : Word) (s : State) : Outcome := .next (hostWrite m .KEY_CMD 0 (keyWord 5 value.toNat) s)

/-- HMAC (R415). -/
def execHmac (m : Fin 20) (value : Word) (s : State) : Outcome := .next (hostWrite m .KEY_CMD 0 (keyWord 6 value.toNat) s)

/-- PUB (R424). -/
def execPub (m : Fin 20) (value : Word) (s : State) : Outcome := .next (hostWrite m .KEY_CMD 0 (keyWord 7 value.toNat) s)

/-- GROUP_REKEY (R412, R424). -/
def execGroupRekey (m : Fin 20) (value : Word) (s : State) : Outcome := .next (hostWrite m .KEY_CMD 0 (keyWord 8 value.toNat) s)

/-- A register's present word with a command bit set: its other fields keep their values. -/
def withBit (c : Cfg) (r : Reg) (i bit : Nat) : Nat := cfgShown c r i ||| 2 ^ bit

/-- PAIR_REQ (R427). -/
def execPairReq (m : Fin 20) (s : State) : Outcome := .next (hostWrite m .MATE_CTRL 0 (withBit s.cfg .MATE_CTRL 0 31) s)

/-- UNPAIR (R428). -/
def execUnpair (m : Fin 20) (s : State) : Outcome := .next (hostWrite m .MATE_CTRL 0 (withBit s.cfg .MATE_CTRL 0 30) s)

/-- DSD_NOW (R447). -/
def execDsdNow (m : Fin 20) (s : State) : Outcome := .next (hostWrite m .MATE_CTRL 0 (withBit s.cfg .MATE_CTRL 0 29) s)

/-- CNT_WIN_SEL (R590, R599). -/
def execCntWinSel (m : Fin 20) (value : Word) (s : State) : Outcome := .next (hostWrite m .CNT_WIN_SEL m value.toNat s)

/-- SMP_POP (R596). -/
def execSmpPop (m : Fin 20) (p : Fin 32) (s : State) : Outcome := .next (hostWrite m .CNT_SMP_POP p go s)

/-! ### Commands of LANE, GRV and STD -/

/-- PORT_ENABLE (R533). -/
def execPortEnable (m : Fin 20) (lane : Fin 64) (value : Word) (s : State) : Outcome := .next (hostWrite m .LANE_UP_CFG lane value.toNat s)

/-- TX_EQ_WRITE (R539). -/
def execTxEqWrite (m : Fin 20) (lane : Fin 64) (value : Word) (s : State) : Outcome := .next (hostWrite m .LANE_TX_EQ lane value.toNat s)

/-- LOOPBACK_TEST_WRITE (R547). -/
def execLoopbackTestWrite (m : Fin 20) (lane : Fin 64) (value : Word) (s : State) : Outcome := .next (hostWrite m .LANE_TEST lane value.toNat s)

/-- TX_EN_WRITE (R540, R541). -/
def execTxEnWrite (m : Fin 20) (g : Fin 64) (value : Word) (s : State) : Outcome := .next (hostWrite m .LANE_PON_CTRL g value.toNat s)

/-- PLAXON_ENABLE (R543, R545). -/
def execPlaxonEnable (m : Fin 20) (p : Fin 2) (value : Word) (s : State) : Outcome := .next (hostWrite m .LANE_PLX_CTRL p value.toNat s)

/-- PRECODER_ENABLE (R79). -/
def execPrecoderEnable (m : Fin 20) (g : Fin 64) (value : Word) (s : State) : Outcome := .next (hostWrite m .GRV_DS_CTRL g value.toNat s)

/-- RSSI_ARM (R114). -/
def execRssiArm (m : Fin 20) (g : Fin 64) (value : Word) (s : State) : Outcome := .next (hostWrite m .GRV_US_RSSI_CTRL g (value.toNat ||| go) s)

/-- CAP_ARM (R123). -/
def execCapArm (m : Fin 20) (g : Fin 64) (value : Word) (s : State) : Outcome := .next (hostWrite m .GRV_US_CAP_CTRL g (value.toNat ||| go) s)

/-- CLEAR_NOW (R132). -/
def execClearNow (m : Fin 20) (g : Fin 64) (value : Word) (s : State) : Outcome := .next (hostWrite m .GRV_CLEARING_CTRL g (value.toNat ||| 2) s)

/-- RE_RANGE (R148, R163). -/
def execReRange (m : Fin 20) (g : Fin 64) (stand : Fin 256) (s : State) : Outcome := .next (hostWrite m .GRV_RNG_CMD g (go + 2 ^ 16 + stand) s)

/-- FORGET (R154, R163). -/
def execForget (m : Fin 20) (g : Fin 64) (stand : Fin 256) (s : State) : Outcome := .next (hostWrite m .GRV_RNG_CMD g (go + 2 * 2 ^ 16 + stand) s)

/-- RELEARN (R152, R163). -/
def execRelearn (m : Fin 20) (g : Fin 64) (stand : Fin 256) (s : State) : Outcome := .next (hostWrite m .GRV_RNG_CMD g (go + 3 * 2 ^ 16 + stand) s)

/-- ADMIT (R167, R186). -/
def execAdmit (m : Fin 20) (i : Fin 16384) (s : State) : Outcome := .next (hostWrite m .STD_CMD i (go + 1) s)

/-- SILENCE (R170, R186). -/
def execSilence (m : Fin 20) (i : Fin 16384) (s : State) : Outcome := .next (hostWrite m .STD_CMD i (go + 2) s)

/-- UNSILENCE (R171, R186). -/
def execUnsilence (m : Fin 20) (i : Fin 16384) (s : State) : Outcome := .next (hostWrite m .STD_CMD i (go + 3) s)

/-- DEREGISTER (R172, R186). -/
def execDeregister (m : Fin 20) (i : Fin 16384) (s : State) : Outcome := .next (hostWrite m .STD_CMD i (go + 4) s)

/-- HOST_MSG_TX (R179). -/
def execHostMsgTx (m : Fin 20) (g : Fin 64) (stand : Fin 256) (s : State) : Outcome := .next (hostWrite m .GRV_MSG_TX_CMD g (go + stand) s)

/-- MSG_RX_POP (R179). -/
def execMsgRxPop (m : Fin 20) (g : Fin 64) (s : State) : Outcome := .next (hostWrite m .GRV_MSG_RX_STAT g go s)

/-- MODE_SWITCH (R239). -/
def execModeSwitch (m : Fin 20) (g : Fin 64) (value : Word) (s : State) : Outcome := .next (hostWrite m .GRV_MODE g value.toNat s)

/-- OMCI_TX (R237). -/
def execOmciTx (m : Fin 20) (g : Fin 64) (value : Word) (s : State) : Outcome := .next (hostWrite m .GRV_CPT_OMCI_TXCTL g (value.toNat ||| go) s)

/-- OMCI_RX_POP (R237). -/
def execOmciRxPop (m : Fin 20) (g : Fin 64) (s : State) : Outcome := .next (hostWrite m .GRV_CPT_OMCI_RXSTAT g go s)

/-! ### Commands of BGH, GNT, SLC, PIPE, TBL, ASC and BUF -/

/-- BOUGH_BIND (R193). -/
def execBoughBind (m : Fin 20) (b : Fin 65536) (value : Word) (s : State) : Outcome := .next (hostWrite m .BGH_BIND b value.toNat s)

/-- FORCE_OVR (R223). -/
def execForceOvr (m : Fin 20) (g : Fin 64) (s : State) : Outcome := .next (hostWrite m .GNT_GRV_CTRL g (withBit s.cfg .GNT_GRV_CTRL g 31) s)

/-- SLICE_ENABLE (R248). -/
def execSliceEnable (m : Fin 20) (k : Fin 2048) (value : Word) (s : State) : Outcome := .next (hostWrite m .SLC_SL_CTRL k value.toNat s)

/-- SLICE_CONNECT (R255). -/
def execSliceConnect (m : Fin 20) (value : Word) (s : State) : Outcome := .next (hostWrite m .SLC_CONN_CMD 0 (go + 2 ^ 28 + value.toNat % 2 ^ 28) s)

/-- SLICE_DISCONNECT (R255). -/
def execSliceDisconnect (m : Fin 20) (value : Word) (s : State) : Outcome :=
  .next (hostWrite m .SLC_CONN_CMD 0 (go + 2 * 2 ^ 28 + value.toNat % 2 ^ 28) s)

/-- SWAP_REQ (R256). -/
def execSwapReq (m : Fin 20) (s : State) : Outcome := .next (hostWrite m .SLC_PAGE_CTRL 0 go s)

/-- LOCKOUT (R265). -/
def execLockout (m : Fin 20) (pg : Fin 1024) (s : State) : Outcome := .next (hostWrite m .SLC_PG_CMD pg (go + 1) s)

/-- FORCE (R265). -/
def execForce (m : Fin 20) (pg : Fin 1024) (s : State) : Outcome := .next (hostWrite m .SLC_PG_CMD pg (go + 2) s)

/-- MANUAL (R265). -/
def execManual (m : Fin 20) (pg : Fin 1024) (s : State) : Outcome := .next (hostWrite m .SLC_PG_CMD pg (go + 3) s)

/-- CLEAR (R265). -/
def execClear (m : Fin 20) (pg : Fin 1024) (s : State) : Outcome := .next (hostWrite m .SLC_PG_CMD pg (go + 4) s)

/-- RS_COPY (R296). -/
def execRsCopy (m : Fin 20) (s : State) : Outcome := .next (hostWrite m .PIPE_RS_CTRL 0 (withBit s.cfg .PIPE_RS_CTRL 0 31) s)

/-- RS_SWAP (R294, R295). -/
def execRsSwap (m : Fin 20) (bank : Fin 2) (s : State) : Outcome := .next (hostWrite m .PIPE_RS_CTRL 0 bank s)

/-- RING_TAIL_WRITE (R313). -/
def execRingTailWrite (m : Fin 20) (r : Fin 16) (tail : Fin 65536) (s : State) : Outcome := .next (hostWrite m .TBL_RING_TAIL r tail s)

/-- LOCK_ACQUIRE (R316). -/
def execLockAcquire (m : Fin 20) (t : Fin 4) (s : State) : Outcome := .next (hostWrite m .TBL_LOCK t 1 s)

/-- LOCK_RELEASE (R316). -/
def execLockRelease (m : Fin 20) (t : Fin 4) (s : State) : Outcome := .next (hostWrite m .TBL_LOCK t 0 s)

/-- FORCE_RELEASE (R316). -/
def execForceRelease (m : Fin 20) (t : Fin 4) (s : State) : Outcome := .next (hostWrite m .TBL_LOCK t 2 s)

/-- WIN_WRITE (R336). -/
def execWinWrite (m : Fin 20) (addr : Fin 1048576) (s : State) : Outcome := .next (hostWrite m .ASC_WIN_CMD 0 (go + 2 ^ 28 + addr) s)

/-- WIN_READ (R336). -/
def execWinRead (m : Fin 20) (addr : Fin 1048576) (s : State) : Outcome := .next (hostWrite m .ASC_WIN_CMD 0 (go + 2 * 2 ^ 28 + addr) s)

/-- WIN_INSERT_BEFORE (R320, R336). -/
def execWinInsertBefore (m : Fin 20) (addr : Fin 1048576) (s : State) : Outcome := .next (hostWrite m .ASC_WIN_CMD 0 (go + 3 * 2 ^ 28 + addr) s)

/-- BANK_WIDTH_SET (R320). -/
def execBankWidthSet (m : Fin 20) (b : Fin 256) (value : Word) (s : State) : Outcome := .next (hostWrite m .ASC_BANK_CFG b value.toNat s)

/-- CAS_CTRL_WRITE (R328). -/
def execCasCtrlWrite (m : Fin 20) (value : Word) (s : State) : Outcome := .next (hostWrite m .ASC_CAS_CTRL 0 value.toNat s)

/-- POOL_PARTITION (R339). -/
def execPoolPartition (m : Fin 20) (deep : Bool) (pool : Fin 4) (value : Word) (s : State) : Outcome :=
  .next (hostWrite m (if deep then .BUF_POOL_DEEP else .BUF_POOL_NEAR) pool value.toNat s)

/-- RETRAIN (R359). -/
def execRetrain (m : Fin 20) (s : State) : Outcome := .next (hostWrite m .BUF_DEEP_CTRL 0 go s)

/-- REPLAY_MIB_WRITE (R351). -/
def execReplayMibWrite (m : Fin 20) (value : Word) (s : State) : Outcome := .next (hostWrite m .BUF_HOLD_CTRL 0 value.toNat s)

end Sys2Proof.Machine
end

