-- ==== Sys2Proof/Machine/HostDone.lean ====
section
/-!
DEFINITION. The ends of operations that register writes begin: the copy of a rule-set bank (R296) and the window of the associative memory (R336).
-/

namespace Sys2Proof.Machine

/-! ### RS_COPY_DONE (R296) -/

/-- The registers of a rule-set bank. -/
def bankRegs : List Reg :=
  [.PIPE_SEL_W0, .PIPE_SEL_W1, .PIPE_PRF_EXT, .PIPE_PRF_LKP0, .PIPE_PRF_LKP1, .PIPE_PRF_L3, .PIPE_ACT_W0, .PIPE_ACT_W1, .PIPE_ACT_W2, .PIPE_ACT_W3]

/-- The entries of a bank in a bank register. -/
def bankSize (r : Reg) : Nat := (r.desc.dims.drop 1).foldl (fun a p => a * p.1) 1

/-- A bank register's words in one bank become those of the other. -/
def copyBankReg (from_ dst : Nat) (r : Reg) (c : Cfg) : Cfg :=
  let n := bankSize r
  let words := (c.listed r).filter (fun p => p.1 / n == from_)
  let cleared := c.regs.cells.filter (fun p => !(p.1 / 2 ^ 22 == r.id && p.1 % 2 ^ 22 / n == dst))
  words.foldl (fun c p => c.setWord r (dst * n + p.1 % n) p.2) { c with regs := ⟨cleared⟩ }

/-- RS_COPY_DONE: the standby bank holds what the active one holds. -/
def rsCopyDone (s : State) : State :=
  if s.dev.flag Fields.PIPE_RS_STATUS_copy_busy 0 then
    let a := activeBank s.cfg
    { s with cfg := bankRegs.foldl (fun c r => copyBankReg a (1 - a) r c) s.cfg, dev := s.dev.set Fields.PIPE_RS_STATUS_copy_busy 0 0 }
  else s

/-- RS_COPY_DONE. -/
def execRsCopyDone (s : State) : Outcome := .next (rsCopyDone s)

/-! ### ASC_WIN_COMMAND_DONE (R320, R323, R336) -/

/-- The bits of the window's value or mask registers that an entry of a width has, key byte 0 first. -/
def winBits (c : Cfg) (r : Reg) (width : Nat) : Nat := ofBytesBE ((wordBytes (c.words r 16)).take (8 * ascGroup width))

/-- An entry's value and mask put into the window registers. -/
def winLoad (e : AscEntry) (c : Cfg) : Cfg :=
  let n := 2 * ascGroup e.width
  let bytes := fun v => toBytesBE (8 * ascGroup e.width) v
  ((c.putBytes .ASC_WIN_VALUE 0 n (bytes e.value)).putBytes .ASC_WIN_MASK 0 n (bytes e.mask)).setWord .ASC_WIN_SIDE 0 e.side

/-- What a window command does at its end: status, configuration and device. Another master that has taken the table's lock meanwhile sees no change of
it (R316, R319). -/
def winEffect (k : WinCmd) (c : Cfg) (d : Dev) : Status × Cfg × Dev :=
  match ascPos c k.addr with
  | none => (.badIndex, c, d)
  | some width =>
    if k.op = 2 then (.ok, winLoad (d.ascAt width k.addr) c, d)
    else if lockedFor d k.master 3 then (.locked, c, d)
    else
      let value := winBits c .ASC_WIN_VALUE width
      let mask := winBits c .ASC_WIN_MASK width
      let side := c.word .ASC_WIN_SIDE 0
      let r := if k.op = 1 then ascWrite c k.addr value mask side d else ascInsert c k.addr value mask side d
      (r.1, c, r.2)

/-- ASC_WIN_COMMAND_DONE: the window command ends, and its status is shown. -/
def winDone (s : State) : State :=
  match s.dev.winCmd with
  | none => s
  | some k =>
    let r := winEffect k s.cfg s.dev
    let d := (r.2.2.set Fields.ASC_WIN_STAT_status 0 r.1.code).set Fields.ASC_WIN_STAT_busy 0 0
    { s with cfg := r.2.1, dev := { d with winCmd := none } }

/-- ASC_WIN_COMMAND_DONE. -/
def execAscWinCommandDone (s : State) : Outcome := .next (winDone s)

end Sys2Proof.Machine
end

