-- ==== Sys2Proof/Machine/Image.lean ====
section
/-!
DEFINITION. The configuration image (R510 to R518, R521 to R528): its layout, its checks, its items, their application by the loader, and the end of flash
operations.
-/

namespace Sys2Proof.Machine

/-! ### Layout (R512 to R514) -/

/-- An item of an image: a register write, a record of a table with its position or number, or a key blob. -/
inductive ImgItem where
  | write (addr value : Nat)
  | entry (table index k : Nat) (r : TblRec)
  | blob (bytes : List Byte)
  deriving DecidableEq, Repr

/-- A section: type, whether it is required, target, body, and whether its CRC holds. -/
structure ImgSection where
  ty       : Nat
  required : Bool
  target   : Nat
  body     : List Byte
  crcOk    : Bool
  deriving DecidableEq, Repr

/-- A number in a byte list. -/
def fieldAt (bs : List Byte) (off n : Nat) : Nat := ofBytesBE ((bs.drop off).take n)

/-- The sections that fill a byte list exactly; none where they do not. -/
def sections : Nat → List Byte → Option (List ImgSection)
  | 0, bs => if bs.isEmpty then some [] else none
  | n + 1, bs =>
    if bs.isEmpty then some []
    else
      let len := fieldAt bs 4 4
      let span := 16 + (len + 7) / 8 * 8
      if bs.length < span then none
      else
        let body := (bs.drop 16).take len
        (sections n (bs.drop span)).map (fun rest =>
          { ty := fieldAt bs 0 2, required := (fieldAt bs 2 2).testBit 15, target := fieldAt bs 8 4, body := body
            crcOk := crc32c body == fieldAt bs 12 4 } :: rest)

/-- Cut a body into items of a size; none where it is no whole number of them. -/
def bodyItems (size : Nat) (body : List Byte) : Option (List (List Byte)) :=
  if body.length % size = 0 then some ((List.range (body.length / size)).map (fun k => (body.drop (k * size)).take size)) else none

/-- The BAR0 offset of a register of the associative memory's bank `b`. -/
def bankCfgAddr (b : Nat) : Nat := addrOf .ASC_BANK_CFG b

/-- The width code of a bank as the image's own earlier writes leave it. -/
def imageWidth (items : List ImgItem) (b : Nat) : Nat :=
  items.foldl (fun w x => match x with | .write a v => if a = bankCfgAddr b then v % 4 else w | _ => w) 0

/-- A record of a table from its bytes (R314); `width` is the width code of an associative entry. -/
def recordOf (table width : Nat) (bs : List Byte) : TblRec :=
  match table with
  | 0 => .bridge (fieldAt bs 0 8) ((fieldAt bs 8 4).testBit 31) ((fieldAt bs 8 4).testBit 30) (bitsOf (fieldAt bs 8 4) 28 2) (bitsOf (fieldAt bs 8 4) 0 14)
      (fieldAt bs 12 2)
  | 1 => .lpm4 (fieldAt bs 0 4) (fieldAt bs 4 1) (fieldAt bs 6 2)
  | 2 => .lpm6 (fieldAt bs 0 8) (fieldAt bs 8 1) (fieldAt bs 14 2)
  | _ => let n := 8 * 2 ^ width; .asc (fieldAt bs 0 n) (fieldAt bs n n) (fieldAt bs (2 * n) 4)

/-- The prefix length of a route record. -/
def routeLen : TblRec → Nat
  | .lpm4 _ l _ => l
  | .lpm6 _ l _ => l
  | _ => 0

/-- Numbers do not increase. -/
def nonIncreasing : List Nat → Bool
  | a :: b :: t => decide (b ≤ a) && nonIncreasing (b :: t)
  | _ => true

/-- The bytes of a record of a table. -/
def recordSize (table width : Nat) : Nat := if table = 1 then 8 else if table = 3 then 16 * 2 ^ width + 8 else 16

/-- The items of a TABLE_LOAD: routes come in non-increasing prefix length (R515). -/
def tableItems (items : List ImgItem) (x : ImgSection) : Option (List ImgItem) :=
  let table := bitsOf x.target 24 4
  let pos := bitsOf x.target 0 20
  let width := imageWidth items (pos / 4096)
  if 3 < table then none
  else
    match bodyItems (recordSize table width) x.body with
    | none => none
    | some bs =>
      let rs := bs.map (recordOf table width)
      if nonIncreasing (rs.map routeLen) then some (rs.zipIdx.map (fun p => .entry table pos p.2 p.1)) else none

/-- The writes of a REG_FILL. -/
def fillItems (bs : List Byte) : Option (List ImgItem) :=
  let n := fieldAt bs 8 4
  if n = 0 ∨ 1048576 < n then none
  else some ((List.range n).map (fun k => .write (fieldAt bs 0 4 + k * fieldAt bs 4 4) (fieldAt bs 12 4)))

/-- The items of a list of parts, none where a part has none. -/
def allItems (f : List Byte → Option (List ImgItem)) : List (List Byte) → Option (List ImgItem)
  | [] => some []
  | b :: t =>
    match f b, allItems f t with
    | some xs, some ys => some (xs ++ ys)
    | _, _ => none

/-- A section's type is one of R514. -/
def knownType (ty : Nat) : Bool := decide (1 ≤ ty) && decide (ty ≤ 4)

/-- The items of a section, none where it is malformed or of an unknown required type (R513 to R515). -/
def sectionItems (items : List ImgItem) (x : ImgSection) : Option (List ImgItem) :=
  match x.ty with
  | 1 => (bodyItems 8 x.body).map (fun bs => bs.map (fun b => .write (fieldAt b 0 4) (fieldAt b 4 4)))
  | 2 => match bodyItems 16 x.body with
    | some bs => allItems fillItems bs
    | none => none
  | 3 => tableItems items x
  | 4 => (bodyItems 80 x.body).map (fun bs => bs.map .blob)
  | _ => if x.required then none else some []

/-- The items of an image, in order. -/
def imageItems (xs : List ImgSection) : Option (List ImgItem) :=
  xs.foldl (fun acc x => match acc with
    | some items => (sectionItems items x).map (fun more => items ++ more)
    | none => none) (some [])

/-- An item is a blob. -/
def ImgItem.isBlob : ImgItem → Bool
  | .blob _ => true
  | _ => false

/-- The limits of R515. -/
def withinLimits (items : List ImgItem) : Bool :=
  decide (items.length - items.countP ImgItem.isBlob ≤ 8388608) && decide (items.countP ImgItem.isBlob ≤ 64)

/-! ### Checks (R515, R516, R521) -/

/-- What the examination of an image finds: its code, and for a valid one its items, its skipped sections, build and version, and whether an HMAC was
checked. -/
structure ImageView where
  code    : Nat
  items   : List ImgItem
  skipped : Nat
  build   : Nat
  version : Nat
  hmacOk  : Bool
  deriving DecidableEq, Repr

/-- An image found wrong. -/
def badImage (code : Nat) : ImageView := { code := code, items := [], skipped := 0, build := 0, version := 0, hmacOk := false }

/-- The code of the HMAC checks: 0 where they pass. -/
def hmacCode (d : Dev) (bytes : List Byte) : Nat :=
  let slot := fieldAt bytes 16 2
  if fieldAt bytes 6 2 % 2 = 0 then (if d.keepHmac = 1 then 9 else 0)
  else if !(isHostSlot slot && (match d.slotMeta.get? slot with | some x => x.usage == 3 && x.ok | none => false)) then 10
  else if Config.hmac (d.slots.getD slot 0) (pasteAt (bytes.take (bytes.length - 32)) 28 (zeroBytes 4)) % 2 ^ 256
      = ofBytesBE (bytes.drop (bytes.length - 32)) then 0
  else 11

/-- Check the bytes of an image behind its header checks. -/
def checkBody (d : Dev) (bytes : List Byte) : ImageView :=
  let trailer := if fieldAt bytes 6 2 % 2 = 1 then 32 else 0
  if crc32c (pasteAt bytes 28 (zeroBytes 4)) ≠ fieldAt bytes 28 4 then badImage 8
  else
    match sections (bytes.length / 16 + 1) ((bytes.drop 32).take (bytes.length - 32 - trailer)) with
    | none => badImage 6
    | some xs =>
      match imageItems xs with
      | none => badImage 6
      | some items =>
        if !(withinLimits items) then badImage 6
        else if !(xs.all (fun x => x.crcOk)) then badImage 7
        else if hmacCode d bytes ≠ 0 then badImage (hmacCode d bytes)
        else { code := 0, items := items, skipped := (xs.filter (fun x => !(knownType x.ty))).length, build := fieldAt bytes 12 4
               version := fieldAt bytes 4 2, hmacOk := trailer == 32 }

/-- Bytes of the flash. -/
def flashBytes (d : Dev) (a n : Nat) : List Byte := (List.range n).map (fun k => flashAt d (a + k))

/-- Whether the flash answers (R510). -/
def flashFitted (d : Dev) : Bool := match d.board with | some st => st.flash | none => false

/-- The first address of an image. -/
def imageBase (which : Nat) : Nat := which * 0x4000000

/-- Examine image A (0) or B (1). -/
def examine (d : Dev) (which : Nat) : ImageView :=
  let head := flashBytes d (imageBase which) 32
  let len := fieldAt head 8 4
  if !(flashFitted d) then badImage 2
  else if fieldAt head 0 4 ≠ 0x574F4D52 then badImage 3
  else if fieldAt head 4 2 ≠ 1 then badImage 4
  else if len < 64 ∨ 0x4000000 < len ∨ len % 8 ≠ 0 then badImage 5
  else checkBody d (flashBytes d (imageBase which) len)

/-! ### Application (R517, R518) -/

/-- A register that the loader may not write. -/
def loaderDenied (addr : Nat) : Bool :=
  match blockOf addr with
  | some (rg, off) => rg == 5 || (rg == 2 && off == Reg.CLK_CTRL.desc.off)
  | none => false

/-- The status of a write at an address. -/
def statusAt (m addr w : Nat) (s : State) : Status :=
  match judgeAddr s.cfg s.dev m addr (some w) with
  | some st => st
  | none =>
    match decodeAddr addr with
    | some (r, i) => checkReg s.cfg s.dev m r.reg i w
    | none => .badIndex

/-- The loader's master number (R517). -/
def loader : Nat := 18

/-- A failed item is counted, and the first one recorded (R518). -/
def noteFailure (addr : Nat) (st : Status) (d : Dev) : Dev :=
  if st = .ok then d
  else
    let n := d.get Fields.CFG_ERR_COUNT_errors 0
    let d := (d.count .device .cfgWriteErr 0).set Fields.CFG_ERR_COUNT_errors 0 (n + 1)
    let d := if n = 0 then (d.set Fields.CFG_ERR_ADDR_addr 0 addr).set Fields.CFG_ERR_STAT_status 0 st.code else d
    d.raise Fields.INT_DEV_CAUSE_load_err 0

/-- The place that R518 records for an item. -/
def ImgItem.place : ImgItem → Nat
  | .write a _ => a
  | .entry t i k _ => t * 2 ^ 24 + (if t = 3 then i + k else k)
  | .blob bs => fieldAt bs 4 4

/-- Apply one item. -/
def loadItem (x : ImgItem) (s : State) : State :=
  match x with
  | .write a v =>
    if loaderDenied a then s.withDev (noteFailure a .denied (record loader a .denied s.dev))
    else
      let st := statusAt loader a v s
      let s := writeAt loader a v 15 s
      s.withDev (noteFailure x.place st s.dev)
  | .entry t i k r => let p := writeRec s.cfg loader t i k r s.dev; s.withDev (noteFailure x.place p.1 p.2)
  | .blob bs => let p := unwrapBlob s.cfg bs s.dev; s.withDev (noteFailure x.place p.1 p.2)

/-- Apply a valid image: the items in order, then its marks in CFG_STATUS. -/
def applyImage (which : Nat) (v : ImageView) (s : State) : State :=
  let s := v.items.foldl (fun s x => loadItem x s) s
  let d := s.dev.count .device .sectSkipped 0 v.skipped
  let d := (d.set Fields.CFG_STATUS_image 0 (which + 1)).set Fields.CFG_STATUS_hmac_ok 0 v.hmacOk.toNat
  let d := (d.set Fields.CFG_IMG_BUILD_build 0 v.build).set Fields.CFG_IMG_VER_version 0 v.version
  s.withDev (d.set Fields.CFG_STATUS_load_state 0 (if d.get Fields.CFG_ERR_COUNT_errors 0 = 0 then 4 else 5))

/-! ### FLASH_OPERATION_DONE (R522) -/

/-- A completed flash command or check: its configuration and device. -/
def flashEffect (op : FlashOp) (c : Cfg) (d : Dev) : Cfg × Dev :=
  match op with
  | .read a n => (c.putBytes .CFG_FLASH_BUF 0 64 (flashBytes d a n ++ (wordBytes (c.words .CFG_FLASH_BUF 64)).drop n), d)
  | .program a bs => (c, bs.zipIdx.foldl (fun d p => flashPut (a + p.2) p.1 d) d)
  | .erase a => (c, (List.range 65536).foldl (fun d k => flashPut (a + k) 0xFF#8 d) d)
  | .check which => (c, d.set Fields.CFG_CHECK_result 0 (examine d which).code)

/-- A failed flash command: the status is one of R560's, which one the spec leaves open; what was being programmed or erased is undefined. A check that the
flash does not answer finds it absent. -/
def flashFailed (op : FlashOp) (d : Dev) : Dev :=
  match op with
  | .check _ => d.set Fields.CFG_CHECK_result 0 2
  | _ =>
    let d := cutFlash d
    ((d.draw 9).2.count .device .flashErrors 0).set Fields.CFG_FLASH_STAT_status 0 ((d.draw 9).1 + 1)

/-- The operation ends. -/
def flashClose (d : Dev) : Dev := { (d.set Fields.CFG_FLASH_STAT_busy 0 0).set Fields.CFG_CHECK_busy 0 0 with flashOp := none }

/-- FLASH_OPERATION_DONE. -/
def flashDone (ok : Bool) (s : State) : State :=
  match s.dev.flashOp with
  | none => s
  | some op =>
    if ok then
      let r := flashEffect op s.cfg s.dev
      { s with cfg := r.1, dev := flashClose (r.2.set Fields.CFG_FLASH_STAT_status 0 0) }
    else s.withDev (flashClose (flashFailed op s.dev))

/-- FLASH_OPERATION_DONE. -/
def execFlashOperationDone (ok : Bool) (s : State) : Outcome := .next (flashDone ok s)

end Sys2Proof.Machine
end

