-- ==== Sys2Proof/Machine/Startup.lean ====
section
/-!
DEFINITION. Start-up (R499 to R501): the straps, the keep-store check, the choice and application of an image or of the stand-alone defaults (R511, R516, R519,
R520), the restored keys (R417), and what is ready before the first commit edge. The re-acquisition of R156 belongs to that edge and is here too.
-/

namespace Sys2Proof.Machine

/-! ### Straps and what is fitted (R499) -/

/-- The straps of the board: sampled once, at the rise of PORST_N, and kept by a restart and a wake; what is fitted is looked at again. -/
def boardFor (d : Dev) (st : Straps) : Straps :=
  match d.board with
  | some b => { b with flash := st.flash, cxl := st.cxl }
  | none => st

/-- Show the straps, and keep them. -/
def takeStraps (st : Straps) (d : Dev) : Dev :=
  (showStraps st { d with board := some st }).set Fields.TOP_ID_devnum 0 st.devnum

/-! ### The keep-store check (R155, R404) -/

/-- Key slots that fail their checksum are erased and counted. -/
def checkSlots (d : Dev) : Dev :=
  ((d.slotMeta.filter (fun p => !p.2.ok)).map Prod.fst).foldl (fun d k => (d.eraseSlot k).count .device .slotBad 0) d

/-- The equalization delay of a record under the loop delay in force. -/
def adjustedEqd (d : Dev) (i : Nat) (r : KeepRec) : Int :=
  (r.eqd : Int) + ((tLoop d (groveOf i) : Int) - r.tloop) * (modeUnits r.compat r.rate : Int)

/-- Check one record: erased and counted where its checksum fails or its delay does not fit the loop delay. A record of another mode or rate is kept as it is: the forget
command alone erases it (R239). -/
def checkRecord (c : Cfg) (i : Nat) (r : KeepRec) (d : Dev) : Dev :=
  if r.crcOk && !(recOfMode c (groveOf i) r) then d
  else if r.crcOk && eqdOk c d (groveOf i) (adjustedEqd d i r) then
    if r.tloop = tLoop d (groveOf i) then d
    else { d with keep := d.keep.put i { r with eqd := (adjustedEqd d i r).toNat, tloop := tLoop d (groveOf i) } }
  else { d with keep := d.keep.erase i }.count .grove .keepBad (groveOf i)

/-- Check every record. -/
def checkRecords (c : Cfg) (d : Dev) : Dev := d.keep.foldl (fun d p => checkRecord c p.1 p.2 d) d

/-! ### Restored keys (R401, R417) -/

/-- A key slot holds a secret. -/
def Dev.slotHeld (d : Dev) (k : Nat) : Bool := (d.slots.get? k).isSome

/-- A restored epoch: its downstream counter resumes at its ceiling, and no upstream packet is accepted under it. -/
def restoredEpoch (d : Dev) (i e : Nat) (held : Bool) : EpochSt :=
  { EpochSt.init with held := held, dsCtr := d.ceil.getD (slotOf i e) 0, restored := true }

/-- The keys of a stand after a start: the epochs its record names and whose slots are held. A counter that resumes at 2^47 or beyond warns (R400, R401). -/
def restoreKeys (c : Cfg) (i : Nat) (r : KeepRec) (d : Dev) : Dev :=
  let a := d.slotHeld (slotOf i 0)
  let b := d.slotHeld (slotOf i 1)
  if compat c (groveOf i) then
    d.updKeys i (fun k => { k with ready := r.current.isSome && (a || b), dataKey := if a then some 1 else if b then some 2 else none })
  else
    let cur := r.current.getD 0
    let x := restoredEpoch d i 0 (a && r.epochA)
    let y := restoredEpoch d i 1 (b && r.epochB)
    let now := if cur = 0 then x else y
    let d := d.updKeys i (fun k => { k with epA := x, epB := y, cur := cur, ready := r.current.isSome && now.held })
    if now.held && decide (2 ^ 47 ≤ now.dsCtr) then ctrWarn c i d else d

/-- A shared key after a start: held where a slot is; which of two held epochs is in use the spec leaves open. -/
def restoreShared (c : Cfg) (k : Nat) (d : Dev) : Dev :=
  let a := d.slotHeld (sharedSlot k 0)
  let b := d.slotHeld (sharedSlot k 1)
  if a || b then
    let e := if a && b then (d.draw 2).1 else if a then 0 else 1
    let d := if a && b then (d.draw 2).2 else d
    let n := d.ceil.getD (sharedSlot k e) 0
    let d := d.updShared k (fun s => { s with valid := true, epoch := e, ctr := n })
    if k < 512 ∧ 2 ^ 47 ≤ n then groupWarn c k d else d
  else d

/-- Restore what the keep store holds of keys. -/
def restoreAll (c : Cfg) (d : Dev) : Dev :=
  let d := d.keep.foldl (fun d p => restoreKeys c p.1 p.2 d) d
  (List.range 576).foldl (fun d k => restoreShared c k d) d

/-! ### The hold tier's devices (R352, R549) -/

/-- What a CXL port of the hold tier shows. -/
def showCxl (x : Nat × Bool × Nat) (d : Dev) : Dev :=
  let d := (d.set Fields.LANE_CXL_STATUS_up x.1 1).set Fields.LANE_CXL_STATUS_cap_gib x.1 x.2.2
  if x.2.1 then
    ((d.set Fields.LANE_CXL_STATUS_used x.1 1).set Fields.LANE_CXL_STATUS_width x.1 16).set Fields.LANE_CXL_STATUS_speed x.1 5
  else
    let d := ((d.draw 32).2.set Fields.LANE_CXL_STATUS_width x.1 (d.draw 32).1).count .device .cxlNarrow x.1
    (d.draw 6).2.set Fields.LANE_CXL_STATUS_speed x.1 (d.draw 6).1

/-- The ports in use with their capacities, one entry a port. -/
def usedCxl (st : Straps) : List (Nat × Nat) :=
  (List.range 2).filterMap (fun p => (st.cxl.find? (fun x => x.1 == p && x.2.1)).map (fun x => (p, x.2.2)))

/-- The capacity that the hold tier uses, in GiB. -/
def holdCapacity (ps : List (Nat × Nat)) : Nat :=
  min 2048 (match ps with
    | [] => 0
    | [p] => p.2
    | p :: q :: _ => 2 * min p.2 q.2)

/-- Take the ports found into use. -/
def takeCxl (st : Straps) (d : Dev) : Dev :=
  let d := ((List.range 2).filterMap (fun p => st.cxl.find? (fun x => x.1 == p))).foldl (fun d x => showCxl x d) d
  let ps := usedCxl st
  let d := (d.set Fields.BUF_HOLD_STATUS_ports 0 ((ps.map (fun p => 2 ^ p.1)).sum)).set Fields.BUF_HOLD_STATUS_cap_gib 0 (holdCapacity ps)
  if ps.isEmpty then d else d.set Fields.BUF_HOLD_STATUS_hold_down 0 0

/-! ### The stand-alone defaults (R519, R520) -/

/-- Set one field of several indices. -/
def Cfg.setAll (c : Cfg) (x : Fld) (is : List Nat) (v : Nat → Nat) : Cfg := is.foldl (fun c i => c.set x i (v i)) c

/-- The defaults of the boughs (R519) stand in place of what their registers held: they are what an unlisted one reads as. -/
def aloneBoughs (c : Cfg) : Cfg :=
  let ids := [Reg.BGH_BIND.id, Reg.BGH_ASSURED.id, Reg.SCH_BGH_ASSURED.id]
  { c with alone := true, regs := ⟨c.regs.cells.filter (fun p => !(ids.contains (p.1 / 2 ^ 22) && decide (p.1 % 2 ^ 22 < 16384)))⟩ }

/-- The defaults of groves, boughs, downstream and uplink (R519); `dark` under CFG_SRC 3. -/
def defaultRegs (dark : Bool) (c : Cfg) : Cfg :=
  let groves := List.range 64
  let c := aloneBoughs c
  let c := if dark then c else c.setAll Fields.LANE_PON_CTRL_tx_en groves (fun _ => 1)
  let c := c.setAll Fields.GRV_CLR_SLOW_slow_ticks groves (fun _ => 8000)
  let c := (c.setAll Fields.LANE_UP_CFG_en groves (fun _ => 1)).setAll Fields.LANE_UP_CFG_width groves (fun _ => 0)
  let c := (c.set Fields.LANE_GRP_LO_members_lo 0 0xFFFFFFFF).set Fields.LANE_GRP_HI_members_hi 0 0xFFFFFFFF
  c.setAll Fields.TBL_BR_DOM_learn_en ((List.range 64).map (fun g => 1000 + g)) (fun _ => 0)

/-- One extraction of a profile of bank A: from packet bytes. -/
def setExt (q k off len pos : Nat) (c : Cfg) : Cfg :=
  let x := q * 16 + k
  ((((c.set Fields.PIPE_PRF_EXT_valid x 1).set Fields.PIPE_PRF_EXT_src x 0).set Fields.PIPE_PRF_EXT_offset x off).set Fields.PIPE_PRF_EXT_length x (len - 1)).set
    Fields.PIPE_PRF_EXT_pos x pos

/-- One lookup slot of a profile of bank A. -/
def setSlot (q s table width start base mask miss : Nat) (c : Cfg) : Cfg :=
  let x := q * 3 + s
  let c := ((c.set Fields.PIPE_PRF_LKP0_table x table).set Fields.PIPE_PRF_LKP0_width x width).set Fields.PIPE_PRF_LKP0_key_start x start
  ((c.set Fields.PIPE_PRF_LKP0_base x base).set Fields.PIPE_PRF_LKP1_bank_mask x mask).set Fields.PIPE_PRF_LKP1_miss_index x miss

/-- One action record of bank A. -/
def setAction (a w0 w2 : Nat) (c : Cfg) : Cfg :=
  (((c.set Fields.PIPE_ACT_W0_word a w0).set Fields.PIPE_ACT_W1_word a 0).set Fields.PIPE_ACT_W2_word a w2).set Fields.PIPE_ACT_W3_word a 0

/-- The rule set of R520, in bank A, which is active. -/
def defaultRules (c : Cfg) : Cfg :=
  let c := ((c.set Fields.PIPE_SEL_W0_valid 0 1).set Fields.PIPE_SEL_W0_kind 0 0).set Fields.PIPE_SEL_W0_tags 0 2
  let c := (c.set Fields.PIPE_SEL_W1_mask 0 0).set Fields.PIPE_SEL_W1_profile 0 3
  let c := setExt 3 2 18 1 8 (setExt 3 1 19 1 7 (setExt 3 0 14 2 0 c))
  let c := setSlot 3 1 2 0 0 0 0 1 (setSlot 3 0 1 0 8 0 1 3 c)
  let c := setSlot 1 0 1 0 0 0 0 2 c
  let c := setAction 0 (2 ^ 31 + 2 * 2 ^ 28) (2 * 2 ^ 29) c
  let c := setAction 1 (2 ^ 31 + 1 * 2 ^ 28) 0 c
  let c := setAction 2 (2 ^ 31 + 4 * 2 ^ 28) (4 * 2 ^ 29 + 2 ^ 28) c
  (setAction 3 0 0 c).set Fields.PIPE_RS_CTRL_active 0 0

/-- Associative entry j of R520: it cares only for bit j of the first byte of its 64-bit key. -/
def defaultAsc (j : Nat) : AscEntry := ascOf 0 (2 ^ (56 + j)) (2 ^ (56 + j)) (2 ^ 31 + 1)

/-- The bridging key of a stand: domain 1,000 + g and the MAC that is its stand-in-grove. -/
def defaultKey (i : Nat) : Nat := (1000 + groveOf i) * 2 ^ 48 + inGrove i

/-- The tables of R520. -/
def defaultTables (c : Cfg) (d : Dev) : Dev :=
  let d := (List.range 4).foldl (fun d j => ascPut j (defaultAsc j) d) d
  (List.range 16384).foldl (fun d i => (brWrite c loader (defaultKey i) true true 1 0 i d).2) d

/-- Apply the defaults. -/
def applyDefaults (dark : Bool) (s : State) : State :=
  let c := defaultRules (defaultRegs dark s.cfg)
  { s with cfg := c, dev := (defaultTables c s.dev).set Fields.CFG_STATUS_defaults 0 1 |>.set Fields.CFG_STATUS_load_state 0 4 }

/-! ### Image selection (R511, R516) -/

/-- The images to examine, in order, by the source straps. -/
def imageOrder (src : Nat) : List Nat := if src = 0 then [0, 1] else if src = 1 then [1, 0] else []

/-- The register that shows an image's result. -/
def resultFld (which : Nat) : Fld := if which = 0 then Fields.CFG_A_RESULT_result else Fields.CFG_B_RESULT_result

/-- Examine images in order until one is valid, and show each result. -/
def chooseImage : List Nat → Dev → Option (Nat × ImageView) × Dev
  | [], d => (none, d)
  | w :: ws, d =>
    let v := examine d w
    let d := d.set (resultFld w) 0 v.code
    if v.code = 0 then (some (w, v), d) else chooseImage ws d

/-- Step 5's configuration: the first valid image, or the defaults. -/
def configure (src : Nat) (s : State) : State :=
  let r := chooseImage (imageOrder src) s.dev
  let s := s.withDev r.2
  match r.1 with
  | some (w, v) => applyImage w v s
  | none => applyDefaults (src == 3) s

/-! ### START_UP (R500) -/

/-- Steps 1 to 4a: the straps, the oscillator and the keep store; the counter starts from its checkpoint (R41). -/
def startDev (st : Straps) (d : Dev) : Dev :=
  let d := checkSlots (takeStraps st d)
  let d := ((List.range 8).foldl (fun (d : Dev) k => d.set Fields.KEY_ID_PUB_id_pub k (deviceId / 2 ^ (32 * (7 - k)) % 2 ^ 32)) d).set
    Fields.CLK_STATUS_core_locked 0 1
  let d := d.set Fields.CLK_STATUS_ready 0 (d.get Fields.CLK_STATUS_ready 0 ||| 1)
  let d := drawTierKeys 1 (drawTierKeys 0 (takeCxl st (d.set Fields.CLK_PWR_STAT_state 0 0)))
  let d := (List.range 64).foldl (fun (d : Dev) g => d.updGrove g (fun x => { x with loopDelay := 6 })) d
  { d with phase := .run, sfc := startSfc d, clock := 0, training := true }

/-- Steps 5 and 6 behind the configuration: records are checked against the loop delays in force, keys are restored, and links start to train. -/
def finishStart (c : Cfg) (d : Dev) : Dev :=
  let d := (List.range 64).foldl (fun (d : Dev) g => d.updGrove g (fun x => { x with loopDelay := c.get Fields.TICK_LOOP_DELAY_loop_delay g })) d
  let d := restoreAll c (checkRecords c d)
  let d := (List.range 64).foldl (fun (d : Dev) l => if portOn c d l then d.armNext .linkRetry l else d) d
  d.set Fields.CLK_BOOT_step 0 6

/-- START_UP. -/
def startUp (st : Straps) (s : State) : State :=
  if s.dev.phase == .held then
    let b := boardFor s.dev st
    let c := s.cfg.set Fields.CFG_POLICY_hmac_required 0 s.dev.keepHmac
    let s := configure b.cfgSrc { s with cfg := c, dev := startDev b s.dev }
    s.withDev (finishStart s.cfg s.dev)
  else s

/-- START_UP. -/
def execStartUp (st : Straps) (s : State) : Outcome := .next (startUp st s)

/-! ### Re-acquisition (R156) -/

/-- A position whose record names a current epoch that is held enters RANGING with the record's values. The span of the sampling phase goes from the stored one, since
a record holds no other (R150; DESIGN CHOICE, log 92). -/
def reacquire (c : Cfg) (i : Nat) (r : KeepRec) (d : Dev) : Dev :=
  if (d.keysOf i).ready && d.st i == .absent && recOfMode c (groveOf i) r then
    let d := d.updLife i (fun l => { l with serial := r.serial })
    let loop := tLoop d (groveOf i) * tickUnits c (groveOf i)
    let d := d.updRng i (fun x =>
      { x with eqd := r.eqd, preset := some r.preset, learned := r.learned, precoder := r.precoder, learnSamp := r.preset.samp, loopSum := loop - r.eqd })
    askRegistration c i (enterRanging c i .reacq d)
  else d

/-- R156 at the first commit edge after a start. -/
def reacquireAll (c : Cfg) (d : Dev) : Dev := d.keep.foldl (fun d p => reacquire c p.1 p.2 d) d

end Sys2Proof.Machine
end

