-- ==== Sys2Proof/Machine/Edge.lean ====
section
/-!
DEFINITION. The commit edge (R32): the counter advances, staged writes take effect, buckets refill, the arrival record of the tick before closes, timers
count, the snapshot is taken, and the frames sealed in the tick before are sent. What expires or becomes due at the edge has commands of its own, which follow
this one at core clock 0; then HB_OUT toggles and the mate's mirror leaves.
-/

namespace Sys2Proof.Machine

/-! ### Step 2: what a committed set brings with it -/

/-- The configuration after step 2 of edge `n`. A committed swap request is spent. -/
def edgeCfg (n : Nat) (c : Cfg) : Cfg := (sliceBinds c (c.commit n)).set Fields.SLC_PAGE_CTRL_swap_req 0 0

/-- The connection pages swap (R256). -/
def pageSwap (swap : Bool) (d : Dev) : Dev :=
  if swap then { d.set Fields.SLC_PAGE_CTRL_active 0 (1 - d.get Fields.SLC_PAGE_CTRL_active 0) with slcSwap := some d.sfc } else d

/-- The lock bit of a bank. -/
def bankLock (bank : Nat) : Fld := if bank = 0 then Fields.PIPE_RS_STATUS_a_locked else Fields.PIPE_RS_STATUS_b_locked

/-- Rule-set banks (R294, R295): a bank that has drained is unlocked; a bank swapped out is locked and drains. -/
def bankEdge (old new : Cfg) (d : Dev) : Dev :=
  let d := bankDrain old d
  let d := if d.flag Fields.PIPE_RS_STATUS_draining 0 then d
    else (d.set Fields.PIPE_RS_STATUS_a_locked 0 0).set Fields.PIPE_RS_STATUS_b_locked 0 0
  if activeBank old = activeBank new then d
  else (d.set (bankLock (activeBank old)) 0 1).set Fields.PIPE_RS_STATUS_draining 0 1

/-- The binding of a bough as a compatibility grove shows it: the stand and the bough index. -/
def cptBinding (c : Cfg) (b : Nat) : Option (Nat × Nat) :=
  if c.flag Fields.BGH_BIND_bound b && compat c (groveOf (c.get Fields.BGH_BIND_stand b)) then
    some (c.get Fields.BGH_BIND_stand b, c.get Fields.BGH_BIND_bough_idx b)
  else none

/-- The Assign_Alloc-ID of a binding (R234): 1 assigns, 0 takes back. -/
def allocMsg (b on : Nat) (x : Nat × Nat) (d : Dev) : Dev :=
  sendPloam (groveOf x.1) { kind := .assignAllocId, onu := inGrove x.1, args := [1024 + 16 * inGrove x.1 + x.2, b, on] } d

/-- The boughs that may be bound in either configuration. -/
def eitherBound (old new : Cfg) : List Nat :=
  let inOld := fun b => (old.regs.cells.get? (regKey .BGH_BIND b)).isSome || (old.alone && decide (b < 16384))
  (old.listed .BGH_BIND).map Prod.fst ++ ((new.listed .BGH_BIND).map Prod.fst).filter (fun b => !(inOld b))

/-- Send the Assign_Alloc-ID messages of the bindings that changed. -/
def allocEdge (old new : Cfg) (d : Dev) : Dev :=
  if old = new then d
  else ((eitherBound old new).filter (fun b => !(cptBinding old b == cptBinding new b))).foldl (fun d b =>
    let d := match cptBinding old b with | some x => allocMsg b 0 x d | none => d
    match cptBinding new b with | some x => allocMsg b 1 x d | none => d) d

/-- The binding of a bough: its stand and index. -/
def bindingOf (c : Cfg) (b : Nat) : Option (Nat × Nat) :=
  if c.flag Fields.BGH_BIND_bound b then some (c.get Fields.BGH_BIND_stand b, c.get Fields.BGH_BIND_bough_idx b) else none

/-- An unbinding of a bough commits at edge `n`, whether or not a binding follows it there (R197; DEDUCED, log 95). -/
def unbindsAt (n : Nat) (old : Cfg) (b : Nat) : Bool :=
  old.staged.any (fun w => w.dueBy n && w.reg == .BGH_BIND && w.idx == b && w.mask.testBit 31 && !(w.value.testBit 31))

/-- A bough that is unbound forgets, and its partial packet is discarded (R101, R197). -/
def forgetBough (old : Cfg) (b : Nat) (d : Dev) : Dev :=
  let d := dropPart (old.get Fields.BGH_BIND_stand b) b d
  { (d.disarm .poll b).disarm .reasm b with boughs := d.boughs.erase b }

/-- Bindings at an edge (R197): a bough newly bound starts afresh. -/
def bindEdge (old new : Cfg) (d : Dev) : Dev :=
  let gone := (d.boughs.map Prod.fst).filter (fun b => !(bindingOf old b == bindingOf new b) || unbindsAt d.sfc old b)
  let d := gone.foldl (fun d b => forgetBough old b d) d
  { d with boughs := SMap.putAbsent (fun _ => Bough.init) d.boughs (boundBoughs new) }

/-- The reports of the closed frame name boughs under the configuration now in force (R198, R217). -/
def reportsEdge (c : Cfg) (d : Dev) : Dev :=
  let ms := d.mail.filterMap (fun p => p.2.reps.map (fun r => (p.1, r)))
  ms.foldl (fun d p =>
    let d := d.updMail p.1 (fun m => { m with reps := none })
    p.2.2.2.foldl (fun d r =>
      match boughAt c p.1 r.1 with
      | some b => d.updBough b (fun x => { x with newRep := some { frame := p.2.1, start := p.2.2.1, occ := r.2 } })
      | none => d) d) d

/-- A burst profile is announced from the edge at which it commits (R243). -/
def profileEdge (old new : Cfg) (d : Dev) : Dev :=
  if old = new then d
  else ((List.range 256).filter (fun j => compat new (j / 4) && !(old.word .GRV_CPT_PROFILE j == new.word .GRV_CPT_PROFILE j))).foldl
    (fun d j => profileMsg new (j / 4) (j % 4) d) d

/-- A sampler whose settings changed starts again (R600). -/
def samplerEdge (old new : Cfg) (d : Dev) : Dev :=
  { d with samplers := d.samplers.mapVals (fun p x =>
      if old.word .CNT_SMP_CTRL p = new.word .CNT_SMP_CTRL p then x else { x with count := 0, armed := none }) }

/-- A number clamped to ±`b`. -/
def clampTo (b : Nat) (v : Int) : Int := max (-(b : Int)) (min b v)

/-- A stored preset under the bounds of its grove (R150, R153). -/
def boundPreset (c : Cfg) (g : Nat) (r : Ranging) (p : Preset) : Preset :=
  let ffe := c.get Fields.GRV_PRESET_BOUND_ffe_max g
  let taps := p.ffe.zipIdx.map (fun q => if q.2 = 1 then q.1 else clampTo ffe q.1)
  { p with ffe := taps, dfe := clampTo (c.get Fields.GRV_PRESET_BOUND_dfe_max g) p.dfe
           samp := if r.learned then (clampSamp r.learnSamp (c.get Fields.GRV_PRESET_BOUND_phase_span g) p.samp).1 else p.samp }

/-- The stands whose stored presets new bounds clamp. -/
def clampedStands (old new : Cfg) (d : Dev) : List Nat :=
  d.rng.filterMap (fun q =>
    let g := groveOf q.1
    if old.word .GRV_PRESET_BOUND g = new.word .GRV_PRESET_BOUND g then none
    else match q.2.preset with
      | some p => if boundPreset new g q.2 p = p then none else some q.1
      | none => none)

/-- Clamp the stored presets of some stands. -/
def clampPresets (c : Cfg) (is : List Nat) (d : Dev) : Dev :=
  is.foldl (fun d i => d.updRng i (fun r => { r with preset := r.preset.map (boundPreset c (groveOf i) r) })) d

/-- Step 2 on the device. -/
def commitEffects (old new : Cfg) (swap : Bool) (d : Dev) : Dev :=
  let d := bankEdge old new (pageSwap swap (bindEdge old new d))
  clampPresets new (clampedStands old new d) (samplerEdge old new (profileEdge old new (allocEdge old new d)))

/-! ### Step 4: the arrival record of tick n − 1 closes -/

/-- The upstream frame that a grove received in the tick before closes: granted bursts that never came end, messages and answers wait to be judged. -/
def closeGrove (c : Cfg) (g : Nat) (d : Dev) : Dev :=
  (closeFrame c g d).updGrove g (fun x =>
    let x := if x.badAns then { x with fastEvent := some d.sfc, badAns := false } else x
    if d.isStandby then { x with inbox := [], judge := [], ansInbox := [], answers := [], takenSer := [] }
    else { x with judge := x.judge ++ x.inbox, inbox := [], answers := x.answers ++ x.ansInbox, ansInbox := [], takenSer := [] })

/-- Grove LOS (R258): a frame that held grants and showed no lock lengthens the run; a lock ends it. -/
def losEdge (g : Nat) (d : Dev) : Dev :=
  let k := runKey .los g
  if (d.hits.get? k).isSome then { d.setRun .los g 0 with hits := d.hits.erase k }
  else if 0 < (d.grove g).lastTally.1 then d.setRun .los g (d.run .los g + 1)
  else d

/-- Light outside the grants of a grove (R115). The tick in which software cleared rogue counts toward no run. -/
def lightEdge (light : List Nat) (g : Nat) (d : Dev) : Dev :=
  let fresh := d.hits.getD (runKey .light g) 0 == 3
  if light.contains g then (d.setRun .light g (if fresh then 0 else d.run .light g + 1)).count .grove .lightTicks g else d.setRun .light g 0

/-- The drift of a stand over the bursts of the tick before (R145, R146). -/
def judgeDrift (thr n : Nat) (active : Bool) (r : Ranging) : Ranging :=
  if active && !(r.phases.isEmpty) && r.delayWait == 0 && decide (r.driftFrom ≤ n) then
    let m := r.phases.sum.tdiv r.phases.length
    if thr < m.natAbs then { r with driftRun := r.driftRun + 1, driftM := m, phases := [] } else { r with driftRun := 0, phases := [] }
  else { r with phases := [] }

/-- The ranging record of a stand at the edge: what its ranging burst came to waits to be judged, and its drift is taken. A standby judges neither. -/
def rngEdge (c : Cfg) (d : Dev) (i : Nat) (r : Ranging) : Ranging :=
  if d.isStandby then { r with phases := [], resNow := none, res := none }
  else
    let r := judgeDrift (c.get Fields.GRV_RNG_CTRL_drift_thr (groveOf i)) d.sfc (d.st i == .active) r
    { r with res := if r.resNow.isSome then r.resNow else r.res, resNow := none }

/-- Clearings whose last answers have been taken are forgotten one edge later (R126, R164). -/
def clearingsEdge (g : Nat) (d : Dev) : Dev :=
  d.updGrove g (fun x =>
    { lastAnswers d.sfc x with
             clearings := x.clearings.filter (fun k => decide (d.sfc < k.frame + k.len + k.tloop + 2)) })

/-- Step 4. -/
def recordClose (c : Cfg) (light : List Nat) (d : Dev) : Dev :=
  let gs := List.range 64
  let d := gs.foldl (fun d g => clearingsEdge g (lightEdge light g (losEdge g (closeGrove c g d)))) d
  let d := { d with
    rng := d.rng.mapVals (fun i r => rngEdge c d i r)
    mail := d.mail.mapVals (fun _ m => { m with slotDue := m.slotDue || m.slotNow, slotNow := false }) }
  mirrorEdge c (reportsEdge c d)

/-! ### Step 5: timers and what is judged at every edge -/

/-- Every timer counts (R46 to R48), those of fragment and bridging entries too. -/
def timersCount (d : Dev) : Dev :=
  { d with
    timers := timersEdge d.timers
    frag := d.frag.mapVals (fun _ x => { x with age := (x.age.edge true).getD x.age })
    bridge := d.bridge.mapVals (fun _ x => { x with age := (x.age.edge true).getD x.age }) }

/-- The runs of consecutive ticks: their marks close, and presets that new bounds clamped count in the tick that begins. -/
def runsEdge (clamped : List Nat) (d : Dev) : Dev := clamped.foldl (fun d i => d.mark .preset i 1) d.closeRuns

/-- The mate at an edge (R434, R438, R442, R446). -/
def mateEdge (c : Cfg) (d : Dev) : Dev :=
  let d := (d.mate.ofs.map Prod.fst).foldl (fun d g => offsetEdge c g d) d
  dsdEdge c (witnessEdge c (digestEdge c (judgePaths c d)))

/-- Commands of STD_CMD that wait for the edge (R186). A standby takes stand states from its mate. -/
def commandsEdge (c : Cfg) (d : Dev) : Dev :=
  let is := (d.life.filter (fun p => !(p.2.cmds.isEmpty))).map Prod.fst
  if d.isStandby then is.foldl (fun d i => d.updLife i (fun l => { l with cmds := [] })) d
  else is.foldl (fun d i => applyStdCmds c i d) d

/-- Agreements that wait for their checkpoint edge, and shared keys whose former epoch is due for erasure (R408, R412). -/
def keysEdge (d : Dev) : Dev := eraseOldShared ((d.keys.map Prod.fst).foldl (fun d i => retryAtCheckpoint i d) d)

/-- Slices, protection groups and flows (R258, R261 to R267). -/
def slicesEdge (c : Cfg) (d : Dev) : Dev :=
  let d := (enabledSlices c).foldl (fun d s => d.updSlice s (sliceEdge c d.sfc)) d
  let d := (enabledFlows c).foldl (fun d f => d.updFlow f flowEdge) d
  (enabledPgs c).foldl (fun d p => pgCommand p d) d

/-- What slices do behind everything that the edge has judged: the groups select (R263), and the egress flows send the frames of the tick before (R254). -/
def slicesClose (c : Cfg) (d : Dev) : Dev :=
  let d := (enabledPgs c).foldl (fun d p => pgClose c p d) d
  (enabledFlows c).foldl (fun d f => flowEgress c f d) d

/-- The served time (R459 to R461). -/
def servedEdge (c : Cfg) (d : Dev) : Dev :=
  let d := syncEdge c 1 (syncEdge c 0 d)
  timeEdge c (timeSelect c { d with selBack := some (selNow d) })

/-! ### Steps 6 and 7 -/

/-- Copy one listed counter into the snapshot buffer. -/
def snapOne (c : Cfg) (k : Nat) (d : Dev) : Dev :=
  let v := counterAt d (c.get Fields.CNT_SNAP_LIST0_family k) (c.get Fields.CNT_SNAP_LIST0_item k) (c.get Fields.CNT_SNAP_LIST1_instance k)
  (d.set Fields.CNT_SNAP_BUF_LO_lo k (v % 2 ^ 32)).set Fields.CNT_SNAP_BUF_HI_hi k (v / 2 ^ 32)

/-- The tick snapshot (R591). -/
def snapshot (c : Cfg) (d : Dev) : Dev :=
  if d.sfc % c.get Fields.CNT_SNAP_CTRL_snap_int 0 = 0 then
    ((List.range (c.get Fields.CNT_SNAP_CTRL_count 0)).foldl (fun d k => snapOne c k d) d).set48
      Fields.CNT_SNAP_SFC_LO_sfc_lo Fields.CNT_SNAP_SFC_HI_sfc_hi 0 d.sfc
  else d

/-- HB_OUT toggles, except while the outputs are held safe (R32, R488). -/
def heartbeat (d : Dev) : Dev := if coreSafe d then d else d.updMate (fun m => { m with hbOut := !m.hbOut })

/-! ### What no command delivers -/

/-- The symbol errors of the tick that ends, on every lane of a class whose checker runs (R546). -/
def errorsEdge (c : Cfg) (x : Fld) (cls : Nat) (d : Dev) : Dev :=
  (List.range 64).foldl (fun d l =>
    if c.flag x l then { d with amb := d.amb.put (errKey cls l) (laneErrors c d x cls l) } else d) d

/-- The counts of events that no command delivers, as the tick ends. -/
def ambientEdge (c : Cfg) (d : Dev) : Dev :=
  let d := errorsEdge c Fields.LANE_PON_CTRL_chk_en 1 (errorsEdge c Fields.LANE_TEST_chk_en 0 d)
  { d with amb := ambientKeys.foldl (fun m k => m.put k (m.getD k 0 + Config.ambient (k / 2 ^ 20 % 2 ^ 10) (k % 2 ^ 20) d.now)) d.amb }

/-! ### The sequence -/

/-- Step 1: the counter advances and tick n begins. -/
def beginTick (n : Nat) (d : Dev) : Dev := { d with prevEdge := d.edgeTime, sfc := n, clock := 0 }

/-- The first edge after a start (R156, R500): edges run from here, and the positions that the keep store holds are re-acquired. The time to the first frame is
no value that the spec states. -/
def firstEdge (c : Cfg) (d : Dev) : Dev :=
  let d := (d.set Fields.TICK_STATUS_running 0 1).set Fields.CLK_BOOT_step 0 7
  reacquireAll c ((d.draw (2 ^ 20)).2.set Fields.CLK_BOOT_first_frame 0 (d.draw (2 ^ 20)).1)

/-- Queues that wanted a spill in the tick that ends and were hindered (R346). -/
def hinderEdge (c : Cfg) (d : Dev) : Dev := (d.queues.map Prod.fst).foldl (fun d q => markHinder c q d) d

/-- Steps 2 and 3. -/
def edgeStart (old new : Cfg) (swap : Bool) (d : Dev) : Dev :=
  wheelEdge new (ratesChanged old new) (refillMeters new (refillBkts new (commitEffects old new swap d)))

/-- Step 4, and step 6 with it: the snapshot holds the events of ticks up to the one that has ended (R33), which the closed record completes; what step 5 brings
about belongs to the tick that begins. -/
def edgeClose (new : Cfg) (e : EdgeIn) (d : Dev) : Dev := snapshot new (budgetEdge (recordClose new e.light d))

/-- The frames that leave at core clock 0 (R64), and the course of BURST_EN over the upstream frames whose reception begins (R114). -/
def sendFrames (new : Cfg) (d : Dev) : Dev := (List.range 64).foldl (fun d g => burstEnable new g (sendFrame new g d)) d

/-- Step 5 behind the timers, as far as it needs no command of its own; `clamped` lists the stands whose presets step 2 clamped. -/
def edgeJudge (new : Cfg) (clamped : List Nat) (e : EdgeIn) (d : Dev) : Dev :=
  let d := { d with ageHold := (d.lockOf 0).isSome }
  let d := lanesEdge e.clamp (trimEdge new e.trim (mateEdge new d))
  let d := (d.replayWait.map Prod.fst).foldl (fun d g => replayAgain new g d) (holdEdge new (deepEdge new (runsEdge clamped d)))
  windowsEdge new e.freq (servedEdge new (slicesEdge new (grantEdge new (keysEdge (compatActive new (commandsEdge new d))))))

/-- Step 7 of an edge (R32): HB_OUT toggles and the mate's mirror is captured, behind everything that step 5 has brought about. -/
def closeEdge (c : Cfg) (d : Dev) : Dev := if d.edgeOpen then mirrorSend c (heartbeat (slicesClose c { d with edgeOpen := false })) else d

/-- The edge behind its first step, up to step 6. `first` holds at the first edge after a start. Outputs that a resume releases are released before the frames leave
(R489), and the timers have counted before, so that a swap whose mate has died does not hold them back (R451). -/
def edgeDev (old new : Cfg) (first swap : Bool) (e : EdgeIn) (d : Dev) : Dev :=
  let d := if first then d.set Fields.TICK_STATUS_running 0 1 else d
  let d := edgeJudge new (clampedStands old new d) e (sendFrames new (resumeEdge new (timersCount (edgeClose new e (edgeStart old new swap d)))))
  let d := if first then firstEdge new d else d
  { d with edgeOpen := true }

/-- The number of the edge that comes next (R39, R40). -/
def nextEdge (d : Dev) : Nat := if d.running then (d.sfc + 1) % 2 ^ 48 else d.sfc

/-- Step 6 of R500 has ended: the transmit lanes of the groves that are to be in service at edge `n` are ready. -/
def lanesReady (n : Nat) (s : State) : Bool :=
  let c := s.cfg.at n
  (List.range 64).all (fun g => !(c.flag Fields.LANE_PON_CTRL_tx_en g) || (c.get Fields.CLK_PWR_park_mask 0).testBit (quadrantOf g)
    || s.dev.flag Fields.LANE_PON_STATUS_tx_ready g)

/-- COMMIT_EDGE: the edge that is n is the beginning, core clock 0, of tick n. The first one waits for the transmit lanes (R500). -/
def commitEdge (e : EdgeIn) (s : State) : State :=
  if s.dev.phase == .run && (s.dev.running || lanesReady (nextEdge s.dev) s) then
    let c := s.cfg
    let n := nextEdge s.dev
    let d0 := closeEdge c s.dev
    let d := if d0.running then hinderEdge c (Dev.passTime c (tickClocks - d0.clock) (ambientEdge c d0)) else d0
    let new := edgeCfg n c
    let d := edgeDev c new (!s.dev.running) ((c.commit n).flag Fields.SLC_PAGE_CTRL_swap_req 0) e (beginTick n d)
    unpairEdge { s with cfg := new, dev := { d with sfc := n, clock := 0 } }
  else s

/-- COMMIT_EDGE. -/
def execCommitEdge (e : EdgeIn) (s : State) : Outcome := .next (commitEdge e s)

/-! ### What follows step 7 -/

/-- GRANT_COMPUTATION_DONE. -/
def execGrantComputationDone (g : Fin 64) (clk : Fin 187500) (s : State) : Outcome := onDev (fun c d => grantDone c g clk (closeEdge c d)) s

/-- MAP_FREEZE. -/
def execMapFreeze (s : State) : Outcome := onDev (fun c d => mapFreeze c (closeEdge c d)) s

/-- An idle core clock: nothing waits, so the clock goes on, up to the last of the tick (DESIGN CHOICE, log 2). At core clock 896 step 7 of the edge comes
(R32). Where no tick runs, before the first edge and in STANDBY, core clocks only part what is accepted (R55). -/
def idle (s : State) : State :=
  if s.dev.running && decide (s.dev.clock + 1 < tickClocks) then
    let d := s.dev.runTo s.cfg (s.dev.clock + 1)
    s.withDev (if 896 ≤ d.clock then closeEdge s.cfg d else d)
  else if s.dev.running then s
  else s.withDev { s.dev with cyc := s.dev.cyc + 1 }

end Sys2Proof.Machine
end

