-- ==== Sys2Proof/Machine/Dispatch.lean ====
section
/-!
DEFINITION. The dispatch: one arm for each command of the opcode table.
-/

namespace Sys2Proof.Machine

/-- The effect of a command on everything but the queue. -/
def exec (i : Instr) (s : State) : Host.Outcome State Fault Refusal :=
  match i with
  | .commitEdge e => Sys2Proof.Machine.execCommitEdge e s
  | .grantComputationDone g clk => Sys2Proof.Machine.execGrantComputationDone g clk s
  | .mapFreeze => Sys2Proof.Machine.execMapFreeze s
  | .burstReceive g entry b => Sys2Proof.Machine.execBurstReceive g entry b s
  | .discoveryAnswer g => Sys2Proof.Machine.execDiscoveryAnswer g s
  | .rangingAttempt std => Sys2Proof.Machine.execRangingAttempt std s
  | .rngFail std => Sys2Proof.Machine.execRngFail std s
  | .standAdmit std => Sys2Proof.Machine.execStandAdmit std s
  | .keyOffer => Sys2Proof.Machine.execKeyOffer s
  | .keyAnswer g => Sys2Proof.Machine.execKeyAnswer g s
  | .keyConfirm g => Sys2Proof.Machine.execKeyConfirm g s
  | .restRequest g => Sys2Proof.Machine.execRestRequest g s
  | .dyingGasp g => Sys2Proof.Machine.execDyingGasp g s
  | .hostMsgRx g => Sys2Proof.Machine.execHostMsgRx g s
  | .restEntry std => Sys2Proof.Machine.execRestEntry std s
  | .restWake std => Sys2Proof.Machine.execRestWake std s
  | .discTicksExpiry std => Sys2Proof.Machine.execDiscTicksExpiry std s
  | .rngTicksExpiry std => Sys2Proof.Machine.execRngTicksExpiry std s
  | .reacqTicksExpiry std => Sys2Proof.Machine.execReacqTicksExpiry std s
  | .lostTicksExpiry std => Sys2Proof.Machine.execLostTicksExpiry std s
  | .silenceTicksExpiry std => Sys2Proof.Machine.execSilenceTicksExpiry std s
  | .tagSilence std => Sys2Proof.Machine.execTagSilence std s
  | .reasmTimeout b => Sys2Proof.Machine.execReasmTimeout b s
  | .pollDue b => Sys2Proof.Machine.execPollDue b s
  | .driftCorrection std => Sys2Proof.Machine.execDriftCorrection std s
  | .presetLearned std => Sys2Proof.Machine.execPresetLearned std s
  | .presetRelearn std => Sys2Proof.Machine.execPresetRelearn std s
  | .presetPinned std => Sys2Proof.Machine.execPresetPinned std s
  | .predPinned b => Sys2Proof.Machine.execPredPinned b s
  | .queuePinned q => Sys2Proof.Machine.execQueuePinned q s
  | .offsetPinned g => Sys2Proof.Machine.execOffsetPinned g s
  | .trimPinned => Sys2Proof.Machine.execTrimPinned s
  | .rxPinned lane => Sys2Proof.Machine.execRxPinned lane s
  | .rogue g => Sys2Proof.Machine.execRogue g s
  | .phaseExcess => Sys2Proof.Machine.execPhaseExcess s
  | .alignSrcLost => Sys2Proof.Machine.execAlignSrcLost s
  | .tickInEdge clk => Sys2Proof.Machine.execTickInEdge clk s
  | .clearing g => Sys2Proof.Machine.execClearing g s
  | .checkpointWrite std => Sys2Proof.Machine.execCheckpointWrite std s
  | .sfcCheckpoint => Sys2Proof.Machine.execSfcCheckpoint s
  | .rekeyInterval std => Sys2Proof.Machine.execRekeyInterval std s
  | .keyTicksExpiry std => Sys2Proof.Machine.execKeyTicksExpiry std s
  | .epochRetire std => Sys2Proof.Machine.execEpochRetire std s
  | .groupKeySwitch k => Sys2Proof.Machine.execGroupKeySwitch k s
  | .deregisterKeyErase std => Sys2Proof.Machine.execDeregisterKeyErase std s
  | .compatKeySwitch std => Sys2Proof.Machine.execCompatKeySwitch std s
  | .serialNumberOnu g frame pos serial delay mic => Sys2Proof.Machine.execSerialNumberOnu g frame pos serial delay mic s
  | .keyReport std index wrapped mic => Sys2Proof.Machine.execKeyReport std index wrapped mic s
  | .ploamUnsupported g ty => Sys2Proof.Machine.execPloamUnsupported g ty s
  | .omciRx std bytes mic => Sys2Proof.Machine.execOmciRx std bytes mic s
  | .uplinkFrameRx lane bytes fcsOk => Sys2Proof.Machine.execUplinkFrameRx lane bytes fcsOk s
  | .packetPass p inp => Sys2Proof.Machine.execPacketPass p inp s
  | .recircPass p inp => Sys2Proof.Machine.execRecircPass p inp s
  | .cascadeTimeout p => Sys2Proof.Machine.execCascadeTimeout p s
  | .cascadeKeyRx k => Sys2Proof.Machine.execCascadeKeyRx k s
  | .learnEngine => Sys2Proof.Machine.execLearnEngine s
  | .stashReturn bucket => Sys2Proof.Machine.execStashReturn bucket s
  | .bridgeAged pos => Sys2Proof.Machine.execBridgeAged pos s
  | .fragAged k => Sys2Proof.Machine.execFragAged k s
  | .lockExpired t => Sys2Proof.Machine.execLockExpired t s
  | .bankDrain => Sys2Proof.Machine.execBankDrain s
  | .spillMove q => Sys2Proof.Machine.execSpillMove q s
  | .returnMove q => Sys2Proof.Machine.execReturnMove q s
  | .holdWrite q => Sys2Proof.Machine.execHoldWrite q s
  | .sectorFlush std => Sys2Proof.Machine.execSectorFlush std s
  | .holdReturn std poisoned => Sys2Proof.Machine.execHoldReturn std poisoned s
  | .shadowMove q => Sys2Proof.Machine.execShadowMove q s
  | .shadowRelease g => Sys2Proof.Machine.execShadowRelease g s
  | .replayMove g => Sys2Proof.Machine.execReplayMove g s
  | .bufferFree tier pool buf gen source => Sys2Proof.Machine.execBufferFree tier pool buf gen source s
  | .cacheRefill tier requester pool => Sys2Proof.Machine.execCacheRefill tier requester pool s
  | .uplinkPacketTx lane => Sys2Proof.Machine.execUplinkPacketTx lane s
  | .flowPacketRx f seq bytes => Sys2Proof.Machine.execFlowPacketRx f seq bytes s
  | .djSlip f => Sys2Proof.Machine.execDjSlip f s
  | .sliceDefectChange slice => Sys2Proof.Machine.execSliceDefectChange slice s
  | .pgFarRequest pg => Sys2Proof.Machine.execPgFarRequest pg s
  | .wtrExpiry pg => Sys2Proof.Machine.execWtrExpiry pg s
  | .mirrorFrameRx m => Sys2Proof.Machine.execMirrorFrameRx m s
  | .hbInEdge => Sys2Proof.Machine.execHbInEdge s
  | .plaxonSilent => Sys2Proof.Machine.execPlaxonSilent s
  | .pinSilent => Sys2Proof.Machine.execPinSilent s
  | .takeover => Sys2Proof.Machine.execTakeover s
  | .takeoverWithdraw => Sys2Proof.Machine.execTakeoverWithdraw s
  | .offsetLearn => Sys2Proof.Machine.execOffsetLearn s
  | .syncDone => Sys2Proof.Machine.execSyncDone s
  | .pairTimeout => Sys2Proof.Machine.execPairTimeout s
  | .dsdPropose => Sys2Proof.Machine.execDsdPropose s
  | .dsdSwap => Sys2Proof.Machine.execDsdSwap s
  | .dsdRevert => Sys2Proof.Machine.execDsdRevert s
  | .timeMarkSend g => Sys2Proof.Machine.execTimeMarkSend g s
  | .domainLost x => Sys2Proof.Machine.execDomainLost x s
  | .sampleRecord p => Sys2Proof.Machine.execSampleRecord p s
  | .sourceLost code => Sys2Proof.Machine.execSourceLost code s
  | .sourceReady code => Sys2Proof.Machine.execSourceReady code s
  | .stoppedSourceEscape => Sys2Proof.Machine.execStoppedSourceEscape s
  | .linkUp lane => Sys2Proof.Machine.execLinkUp lane s
  | .linkDown lane => Sys2Proof.Machine.execLinkDown lane s
  | .linkRetry lane => Sys2Proof.Machine.execLinkRetry lane s
  | .groupMemberJoin lane => Sys2Proof.Machine.execGroupMemberJoin lane s
  | .plaxonStateChange p mv => Sys2Proof.Machine.execPlaxonStateChange p mv s
  | .elasticErr p => Sys2Proof.Machine.execElasticErr p s
  | .holdTierDown port => Sys2Proof.Machine.execHoldTierDown port s
  | .holdTierUp port => Sys2Proof.Machine.execHoldTierUp port s
  | .deepUe part k => Sys2Proof.Machine.execDeepUe part k s
  | .deepWithdrawn => Sys2Proof.Machine.execDeepWithdrawn s
  | .hbmTrainDone ok => Sys2Proof.Machine.execHbmTrainDone ok s
  | .engEccFatal g => Sys2Proof.Machine.execEngEccFatal g s
  | .rngHealthFail => Sys2Proof.Machine.execRngHealthFail s
  | .nearUe q hit => Sys2Proof.Machine.execNearUe q hit s
  | .groveEnterService g => Sys2Proof.Machine.execGroveEnterService g s
  | .groveLeaveService g cause => Sys2Proof.Machine.execGroveLeaveService g cause s
  | .parkQuadrant q => Sys2Proof.Machine.execParkQuadrant q s
  | .unparkQuadrant q => Sys2Proof.Machine.execUnparkQuadrant q s
  | .enterQuiet => Sys2Proof.Machine.execEnterQuiet s
  | .enterStandby => Sys2Proof.Machine.execEnterStandby s
  | .wake => Sys2Proof.Machine.execWake s
  | .porstNAssert => Sys2Proof.Machine.execPorstNAssert s
  | .startUp st => Sys2Proof.Machine.execStartUp st s
  | .perstN => Sys2Proof.Machine.execPerstN s
  | .functionLevelReset f => Sys2Proof.Machine.execFunctionLevelReset f s
  | .msixMessage f v => Sys2Proof.Machine.execMsixMessage f v s
  | .registerWrite m target addr value be => Sys2Proof.Machine.execRegisterWrite m target addr value be s
  | .latchedRead m addr be => Sys2Proof.Machine.execLatchedRead m addr be s
  | .alignReq m src => Sys2Proof.Machine.execAlignReq m src s
  | .stageHold m => Sys2Proof.Machine.execStageHold m s
  | .stageRelease m => Sys2Proof.Machine.execStageRelease m s
  | .loopDelayWrite m g t => Sys2Proof.Machine.execLoopDelayWrite m g t s
  | .precoderEnable m g value => Sys2Proof.Machine.execPrecoderEnable m g value s
  | .rssiArm m g value => Sys2Proof.Machine.execRssiArm m g value s
  | .capArm m g value => Sys2Proof.Machine.execCapArm m g value s
  | .clearNow m g value => Sys2Proof.Machine.execClearNow m g value s
  | .reRange m g stand => Sys2Proof.Machine.execReRange m g stand s
  | .forget m g stand => Sys2Proof.Machine.execForget m g stand s
  | .relearn m g stand => Sys2Proof.Machine.execRelearn m g stand s
  | .admitCmd m std => Sys2Proof.Machine.execAdmit m std s
  | .silence m std => Sys2Proof.Machine.execSilence m std s
  | .unsilence m std => Sys2Proof.Machine.execUnsilence m std s
  | .deregister m std => Sys2Proof.Machine.execDeregister m std s
  | .hostMsgTx m g stand => Sys2Proof.Machine.execHostMsgTx m g stand s
  | .msgTxDonePop m g => Sys2Proof.Machine.execMsgTxDonePop m g s
  | .msgRxPop m g => Sys2Proof.Machine.execMsgRxPop m g s
  | .stdMcastChange std => Sys2Proof.Machine.execStdMcastChange std s
  | .boughBind m b value => Sys2Proof.Machine.execBoughBind m b value s
  | .forceOvr m g => Sys2Proof.Machine.execForceOvr m g s
  | .modeSwitch m g value => Sys2Proof.Machine.execModeSwitch m g value s
  | .omciTx m g value => Sys2Proof.Machine.execOmciTx m g value s
  | .omciRxPop m g => Sys2Proof.Machine.execOmciRxPop m g s
  | .sliceEnable m slice value => Sys2Proof.Machine.execSliceEnable m slice value s
  | .sliceConnect m value => Sys2Proof.Machine.execSliceConnect m value s
  | .sliceDisconnect m value => Sys2Proof.Machine.execSliceDisconnect m value s
  | .swapReq m => Sys2Proof.Machine.execSwapReq m s
  | .lockout m pg => Sys2Proof.Machine.execLockout m pg s
  | .force m pg => Sys2Proof.Machine.execForce m pg s
  | .manual m pg => Sys2Proof.Machine.execManual m pg s
  | .clear m pg => Sys2Proof.Machine.execClear m pg s
  | .rsCopy m => Sys2Proof.Machine.execRsCopy m s
  | .rsSwap m bank => Sys2Proof.Machine.execRsSwap m bank s
  | .rsCopyDone => Sys2Proof.Machine.execRsCopyDone s
  | .ringTailWrite m r tail => Sys2Proof.Machine.execRingTailWrite m r tail s
  | .read r d => Sys2Proof.Machine.execRead r d s
  | .write r d => Sys2Proof.Machine.execWrite r d s
  | .delete r d => Sys2Proof.Machine.execDelete r d s
  | .flush r d => Sys2Proof.Machine.execFlush r d s
  | .insertBefore r d => Sys2Proof.Machine.execInsertBefore r d s
  | .search r d => Sys2Proof.Machine.execSearch r d s
  | .lockAcquire m t => Sys2Proof.Machine.execLockAcquire m t s
  | .lockRelease m t => Sys2Proof.Machine.execLockRelease m t s
  | .forceRelease m t => Sys2Proof.Machine.execForceRelease m t s
  | .deferredDrain => Sys2Proof.Machine.execDeferredDrain s
  | .winWrite m addr => Sys2Proof.Machine.execWinWrite m addr s
  | .winRead m addr => Sys2Proof.Machine.execWinRead m addr s
  | .winInsertBefore m addr => Sys2Proof.Machine.execWinInsertBefore m addr s
  | .bankWidthSet m b value => Sys2Proof.Machine.execBankWidthSet m b value s
  | .casCtrlWrite m value => Sys2Proof.Machine.execCasCtrlWrite m value s
  | .poolPartition m deep pool value => Sys2Proof.Machine.execPoolPartition m deep pool value s
  | .retrain m => Sys2Proof.Machine.execRetrain m s
  | .replayMibWrite m value => Sys2Proof.Machine.execReplayMibWrite m value s
  | .rekey m std => Sys2Proof.Machine.execRekey m std s
  | .unwrap m value => Sys2Proof.Machine.execUnwrap m value s
  | .erase m value => Sys2Proof.Machine.execErase m value s
  | .seal m value => Sys2Proof.Machine.execSeal m value s
  | .openCmd m value => Sys2Proof.Machine.execOpenCmd m value s
  | .hmac m value => Sys2Proof.Machine.execHmac m value s
  | .pub m value => Sys2Proof.Machine.execPub m value s
  | .groupRekey m value => Sys2Proof.Machine.execGroupRekey m value s
  | .pairReq m => Sys2Proof.Machine.execPairReq m s
  | .unpair m => Sys2Proof.Machine.execUnpair m s
  | .dsdNow m => Sys2Proof.Machine.execDsdNow m s
  | .dsdAnswer => Sys2Proof.Machine.execDsdAnswer s
  | .timeSet m x => Sys2Proof.Machine.execTimeSet m x s
  | .timeAdj m x => Sys2Proof.Machine.execTimeAdj m x s
  | .freqWrite m x value => Sys2Proof.Machine.execFreqWrite m x value s
  | .timeTxInject m value => Sys2Proof.Machine.execTimeTxInject m value s
  | .capPop m => Sys2Proof.Machine.execCapPop m s
  | .clockSelect m which value => Sys2Proof.Machine.execClockSelect m which value s
  | .resume m => Sys2Proof.Machine.execResume m s
  | .restart m => Sys2Proof.Machine.execRestart m s
  | .reqStateWrite m st => Sys2Proof.Machine.execReqStateWrite m st s
  | .parkMaskWrite m mask => Sys2Proof.Machine.execParkMaskWrite m mask s
  | .flashRead m len => Sys2Proof.Machine.execFlashRead m len s
  | .flashProgram m len => Sys2Proof.Machine.execFlashProgram m len s
  | .flashErase m => Sys2Proof.Machine.execFlashErase m s
  | .cfgCheck m which => Sys2Proof.Machine.execCfgCheck m which s
  | .portEnable m lane value => Sys2Proof.Machine.execPortEnable m lane value s
  | .txEqWrite m lane value => Sys2Proof.Machine.execTxEqWrite m lane value s
  | .loopbackTestWrite m lane value => Sys2Proof.Machine.execLoopbackTestWrite m lane value s
  | .txEnWrite m g value => Sys2Proof.Machine.execTxEnWrite m g value s
  | .plaxonEnable m p value => Sys2Proof.Machine.execPlaxonEnable m p value s
  | .intClaim m f v => Sys2Proof.Machine.execIntClaim m f v s
  | .intComplete m f v src => Sys2Proof.Machine.execIntComplete m f v src s
  | .intSrcWrite m src value => Sys2Proof.Machine.execIntSrcWrite m src value s
  | .accWrite m off value => Sys2Proof.Machine.execAccWrite m off value s
  | .cntWinSel m value => Sys2Proof.Machine.execCntWinSel m value s
  | .smpPop m p => Sys2Proof.Machine.execSmpPop m p s
  | .pairingMessageRx msg => Sys2Proof.Machine.execPairingMessageRx msg s
  | .ponTxLaneReady g => Sys2Proof.Machine.execPonTxLaneReady g s
  | .flashOperationDone ok => Sys2Proof.Machine.execFlashOperationDone ok s
  | .keyCommandDone => Sys2Proof.Machine.execKeyCommandDone s
  | .ascWinCommandDone => Sys2Proof.Machine.execAscWinCommandDone s
  | .casMiStateChange up => Sys2Proof.Machine.execCasMiStateChange up s
  | .ploamRegistrationRx std ack mic => Sys2Proof.Machine.execPloamRegistrationRx std ack mic s

end Sys2Proof.Machine
end

