-- ==== Sys2Proof/Safety.lean ====
section
/-!
DEFINITION. The terms in which the statements speak: what a command leaves alone, what it counts, and when a register write of a master is accepted.
-/

namespace Sys2Proof.Machine

/-! ### What is left alone -/

/-- Two fields of the register files do not overlap: another register, another index, or other bits of the word. -/
def fieldsApart (x : Fld) (i : Nat) (y : Fld) (j : Nat) : Prop :=
  y.reg ≠ x.reg ∨ j % 2 ^ 22 ≠ i % 2 ^ 22 ∨ x.lo + x.width ≤ y.lo ∨ y.lo + y.width ≤ x.lo

/-- Every status field reads in `d'` as in `d`, but for those that overlap a listed one. -/
def StatusKept (d d' : Dev) (xs : List (Fld × Nat)) : Prop :=
  ∀ y j, (∀ p ∈ xs, fieldsApart p.1 p.2 y j) → d'.get y j = d.get y j

/-- Every entry of a sparse map is the same in `m'` as in `m`, but for those with a listed key. -/
def EntriesKept {α : Type} (m m' : SMap α) (ks : List Nat) : Prop := ∀ k, k ∉ ks → m'.get? k = m.get? k

/-- Every configuration word reads in `c'` as in `c`, but for those of the listed registers and indices. -/
def WordsKept (c c' : Cfg) (rs : List (Reg × Nat)) : Prop :=
  ∀ r i, (∀ p ∈ rs, p.1 ≠ r ∨ p.2 % 2 ^ 22 ≠ i % 2 ^ 22) → c'.word r i = c.word r i

/-- A counter has gone up by `n`, modulo 2^64. -/
def Counted (d d' : Dev) (f : Fam) (c : Ctr) (i n : Nat) : Prop := d'.counter f c i = (d.counter f c i + n) % 2 ^ 64

/-- The listed counters have gone up by one, and every other counter is as it was. -/
def CountedOnly (d d' : Dev) (cs : List (Fam × Ctr × Nat)) : Prop :=
  (∀ p ∈ cs, Counted d d' p.1 p.2.1 p.2.2 1) ∧ EntriesKept d.cnt d'.cnt (cs.map (fun p => ctrKey p.1 p.2.1 p.2.2))

/-! ### Completing -/

/-- A command of the device completes: it leads to a next state whose configuration and queue are unchanged and whose device part is as `P` says. -/
def RunsTo (c : Instr) (s : State) (P : Dev → Prop) : Prop := ∃ d, exec c s = .next (s.withDev d) ∧ P d

/-! ### What waits to be judged -/

/-- Nothing that the closed tick brought of a stand waits to be judged: no ranging burst and no message. -/
def Dev.settled (d : Dev) (i : Nat) : Prop := (d.rngOf i).res = none ∧ ∀ m ∈ (d.grove (groveOf i)).judge, m.stand ≠ i

/-! ### The pinned flags (R151) -/

/-- A command that sets a pinned flag: the run of consecutive ticks that it watches, the flag, and the counters. -/
inductive Pins : Instr → RunKind → Nat → Fld → Nat → List (Fam × Ctr × Nat) → Prop
  | preset (i : Fin 16384) : Pins (.presetPinned i) .preset i Fields.GRV_RNG_FLAGS_pinned i
      [(.stand, .presetPinned, i), (.grove, .presetPinned, groveOf i)]
  | pred (b : Fin 65536) : Pins (.predPinned b) .pred b Fields.BGH_STATUS_pinned b [(.bough, .predPinned, b)]
  | queue (q : Fin 524288) : Pins (.queuePinned q) .queue q Fields.BUF_Q_DEEP_pinned q [(.device, .qPinned, 0)]
  | offset (g : Fin 64) : Pins (.offsetPinned g) .offset g Fields.MATE_OFS_DS_pinned g [(.grove, .ofsPinned, g)]
  | trim : Pins .trimPinned .trim 0 Fields.CLK_AON_TRIM_trim_pinned 0 [(.device, .aonPinned, 0)]
  | lane (l : Fin 66) (h : l.val < 64) : Pins (.rxPinned l) .rx l Fields.LANE_UP_STATUS_rx_pinned l [(.device, .rxPinned, l)]
  | plaxon (p : Fin 2) : Pins (.rxPinned ⟨64 + p.val, Nat.add_lt_add_left p.isLt 64⟩) .rx (64 + p) Fields.LANE_PLX_STATUS_rx_pinned p
      [(.device, .rxPinned, 64 + p)]

/-! ### The canonical form of a register file -/

/-- A register file holds its keys in rising order, and no listed word equals the reset word of its register. -/
def RegFile.canonical (f : RegFile) (reset : Reg → Nat → Nat) : Prop :=
  f.cells.sorted = true ∧ ∀ p ∈ f.cells, ∃ r i, p.1 = regKey r i ∧ p.2 ≠ reset r i

/-! ### Register writes of a master -/

/-- The state as a write of a master finds it: the sources in service have been looked at (R575). -/
def State.looked (s : State) : State := s.withDev (watchSources (fun _ => false) s.dev)

/-- A master's write of a register is accepted: the master makes accesses, its access passes, and every rule of the register holds (R558, R560, R607). -/
def WriteAccepted (s : State) (m : Nat) (r : Reg) (i w : Nat) : Prop :=
  makesAccess m = true ∧ judgeReg s.cfg s.dev m r i (some w) = none ∧ checkReg s.cfg s.looked.dev m r i w = .ok

/-- The status that a master's last-status entry shows (R561). -/
def Dev.lastStatus (d : Dev) (m : Nat) : Nat := d.get Fields.TOP_LAST_STAT_status m

/-! ### Bounds that every step keeps -/

/-- What the block holds at most: 4,096 staged writes (R36); per grove 64 received host messages, 64 placements (R179) and 16 OMCI messages (R237); 1,024 captures of
the uplink ports (R465); 16 sample records per pipeline (R597); and a core clock below 187,500 (R30). -/
def State.bounded (s : State) : Prop :=
  s.cfg.fill ≤ 4096 ∧ (∀ g, (s.dev.grove g).rxFifo.length ≤ 64 ∧ (s.dev.grove g).done.length ≤ 64 ∧ (s.dev.grove g).omciRx.length ≤ 16) ∧
    s.dev.caps.length ≤ 1024 ∧ (∀ p, (s.dev.sampler p).recs.length ≤ 16) ∧ s.dev.clock < 187500

end Sys2Proof.Machine
end

