-- ==== Sys2Proof/Certificates/Slice0/Obligations.lean ====
section
/-!
DEFINITION. The statements for the provers: what the commands of the block do and leave alone, rule by rule of the spec.
-/

open Sys2Proof Sys2Proof.Machine

/-! ### The machine -/

/-- A step takes the command at the front of the queue and is that command's effect on the state with the queue's rest. -/
def Obligations.StepRunsFront : Prop :=
  ∀ (c : Instr) (q : List Instr) (s : State), s.pending = c :: q → step s = exec c (s.withPending q)

/-- With no command waiting a step lets one core clock of the tick pass and changes nothing else but the two time domains, the served offset and the count of core
clocks. In the last clock of the tick nothing changes. While the device does not run only the count of core clocks goes on. Where step 7 of the edge is still to come it
follows at core clock 896. The model's choice (assumption log 2); R30 gives the 187,500 clocks, R32 the steps of an edge. -/
def Obligations.IdleTick : Prop :=
  ∀ s : State, s.pending = [] →
    (s.dev.running = true ∧ s.dev.clock + 1 < 187500 →
      ∃ d, step s = .next (s.withDev (if 896 ≤ d.clock then closeEdge s.cfg d else d)) ∧ d.clock = s.dev.clock + 1 ∧
        (s.dev.edgeOpen = false → closeEdge s.cfg d = d) ∧
        d = { s.dev with clock := d.clock, domA := d.domA, domB := d.domB, sigma := d.sigma, cyc := s.dev.cyc + 1 }) ∧
    (s.dev.running = true → 187500 ≤ s.dev.clock + 1 → step s = .next s) ∧
    (s.dev.running = false → step s = .next (s.withDev { s.dev with cyc := s.dev.cyc + 1 }))

/-- No command ends in a fault or a refusal, and none touches the commands that wait behind it. -/
def Obligations.QueueKept : Prop := ∀ (c : Instr) (s : State), ∃ t, exec c s = .next t ∧ t.pending = s.pending

/-! ### Pinned flags (R151) -/

/-- R151: at 64 consecutive counting ticks the pinned flag of a preset, a prediction, a queue, an offset pair, the oscillator trim or a receiver is set and counted
once, and nothing else changes; before that, and while the flag stands, nothing happens. R433: a standby adapts no presets, and pins none. -/
def Obligations.PinnedAt64 : Prop :=
  ∀ (c : Instr) (k : RunKind) (i : Nat) (x : Fld) (j : Nat) (ctrs : List (Fam × Ctr × Nat)) (s : State), Pins c k i x j ctrs →
    ((∀ n, c = .presetPinned n → s.dev.isStandby = false) → 64 ≤ s.dev.run k i → s.dev.flag x j = false →
      RunsTo c s (fun d => d.flag x j = true ∧ CountedOnly s.dev d ctrs ∧ StatusKept s.dev d [(x, j)] ∧
        d = { s.dev with sts := d.sts, cnt := d.cnt })) ∧
    (s.dev.run k i < 64 ∨ s.dev.flag x j = true → exec c s = .next s) ∧
    (∀ n, c = .presetPinned n → s.dev.isStandby = true → exec c s = .next s)

/-! ### Links, ports and lanes (R328, R534 to R545) -/

/-- The status fields that a link shows, and the interrupt words of the links. -/
def linkFields (l : Nat) : List (Fld × Nat) :=
  [(Fields.LANE_UP_STATUS_link_up, l), (Fields.LANE_UP_STATUS_fec_lock, l), (Fields.LANE_UP_STATUS_an_done, l), (Fields.LANE_UP_STATUS_member, l),
   (Fields.INT_LINK_CAUSE0_uplink_lo, 0), (Fields.INT_LINK_CAUSE1_uplink_hi, 0)]

/-- No pipeline's pass waits for an answer of the cascade ring. -/
def noWaits (d : Dev) : Prop := ∀ q, (d.pipe q).wait = none

/-- R534: the link of an enabled port of a running device comes up, and its retry timer stops; R535 and R537: a link that is lost is counted, its egress queues
empty and it leaves its group; R550: a packet that is leaving the port is cut off and counted; R534: a port with no link 4,000 ticks after its bring-up began tries again; R537: a link that has held through 8 whole ticks
joins its group. R485: the recovered clock is lost with the lock of its lane. -/
def Rules.LinkEvents : Prop :=
  ∀ (l : Fin 64) (s : State),
    (s.dev.phase = .run → portOn s.cfg s.dev l = true → laneSafe s.dev l = false → linkUp s.dev l = false →
      RunsTo (.linkUp l) s (fun d => linkUp d l = true ∧ d.flag Fields.LANE_UP_STATUS_fec_lock l = true ∧ d.armed .linkRetry l = false ∧
        StatusKept s.dev d (linkFields l) ∧ d = { s.dev with sts := d.sts, runs := d.runs, timers := d.timers })) ∧
    (linkUp s.dev l = true → s.cfg.get Fields.CLK_CORE_SEL_rec_lane 0 ≠ l →
      RunsTo (.linkDown l) s (fun d => linkUp d l = false ∧ d.flag Fields.LANE_UP_STATUS_member l = false ∧ Counted s.dev d .device .linkDown l 1 ∧
        (∀ k < 8, d.queue (upQueue l k) = Queue.init) ∧ (portOn s.cfg s.dev l = true → d.armed .linkRetry l = true) ∧
        d.outgoing = s.dev.outgoing.erase l ∧
        (s.dev.now < s.dev.outgoing.getD l 0 → d.outbox = .uplinkCut l :: s.dev.outbox ∧ Counted s.dev d .device .txTruncated l 1) ∧
        (s.dev.outgoing.getD l 0 ≤ s.dev.now → d.outbox = s.dev.outbox) ∧ EntriesKept s.dev.runs d.runs [runKey .linkHold l] ∧
        EntriesKept s.dev.timers d.timers [timerKey .linkRetry l] ∧
        d = { s.dev with sts := d.sts, runs := d.runs, timers := d.timers, cnt := d.cnt, queues := d.queues, bufs := d.bufs, used := d.used
                         outgoing := d.outgoing, outbox := d.outbox })) ∧
    (linkUp s.dev l = true → s.cfg.get Fields.CLK_CORE_SEL_rec_lane 0 = l → s.dev.flag Fields.LANE_UP_STATUS_fec_lock l = true → s.dev.phase ≠ .held →
      s.dev.srcLost.contains 3 = false → noWaits s.dev →
      RunsTo (.linkDown l) s (fun d => linkUp d l = false ∧ d.srcLost.contains 3 = true ∧ srcReady d 3 = false ∧
        (d.get Fields.CLK_STATUS_lost 0).testBit 3 = true)) ∧
    (portOn s.cfg s.dev l = true → linkUp s.dev l = false → s.dev.expired .linkRetry l 4000 = true →
      RunsTo (.linkRetry l) s (fun d => CountedOnly s.dev d [(.device, .linkRetry, l)] ∧ d.armed .linkRetry l = true ∧
        EntriesKept s.dev.timers d.timers [timerKey .linkRetry l] ∧ d = { s.dev with timers := d.timers, cnt := d.cnt })) ∧
    (portOn s.cfg s.dev l = true → linkUp s.dev l = true → 9 ≤ s.dev.run .linkHold l →
      RunsTo (.groupMemberJoin l) s (fun d => d.flag Fields.LANE_UP_STATUS_member l = true ∧
        StatusKept s.dev d [(Fields.LANE_UP_STATUS_member, l)] ∧ d = { s.dev with sts := d.sts }))

/-- The status fields of a Plaxon port and what hangs on them. -/
def plaxonFields (p : Nat) : List (Fld × Nat) :=
  [(Fields.LANE_PLX_STATUS_up, p), (Fields.LANE_PLX_STATUS_state, p), (Fields.LANE_PLX_STATUS_pol_found, p), (Fields.LANE_PLX_STATUS_reversed, p),
   (Fields.INT_LINK_CAUSE2_other, 0), (Fields.ASC_CAS_STATUS_cas_down, 0)]

/-- R543 and R545: an enabled Plaxon port goes on by one state, or fails back to DETECT and is counted; R544: an elastic-buffer error of a port that is up takes it
to DETECT and is counted; R328: the cascade is down while CAS_MI or the east port is, and the passes that wait for it then run their lookups locally; R540: a powered PON lane whose PLL locks is ready. -/
def Rules.PlaxonAndPonLanes : Prop :=
  ∀ (p : Fin 2) (g : Fin 64) (up : Bool) (pol : Nat) (rev : Bool) (s : State),
    (s.dev.phase = .run → s.cfg.flag Fields.LANE_PLX_CTRL_en p = true → plxSafe s.dev p = false → plxUp s.dev p = false →
      s.dev.get Fields.LANE_PLX_STATUS_state p < 4 →
      RunsTo (.plaxonStateChange p (.advance pol rev)) s (fun d =>
        d.get Fields.LANE_PLX_STATUS_state p = s.dev.get Fields.LANE_PLX_STATUS_state p + 1 ∧
        StatusKept s.dev d (plaxonFields p) ∧ d = { s.dev with sts := d.sts })) ∧
    (s.dev.phase = .run → s.cfg.flag Fields.LANE_PLX_CTRL_en p = true → plxSafe s.dev p = false → noWaits s.dev →
      RunsTo (.plaxonStateChange p .fail) s (fun d => d.get Fields.LANE_PLX_STATUS_state p = 0 ∧ plxUp d p = false ∧
        CountedOnly s.dev d [(.device, .plxRetry, p)] ∧ StatusKept s.dev d (plaxonFields p) ∧ d = { s.dev with sts := d.sts, cnt := d.cnt })) ∧
    (plxUp s.dev p = true → noWaits s.dev →
      RunsTo (.elasticErr p) s (fun d => d.get Fields.LANE_PLX_STATUS_state p = 0 ∧ plxUp d p = false ∧
        CountedOnly s.dev d [(.device, .elasticErr, p)] ∧ StatusKept s.dev d (plaxonFields p) ∧ d = { s.dev with sts := d.sts, cnt := d.cnt })) ∧
    (noWaits s.dev ∨ (up = true ∧ plxUp s.dev 1 = true) →
      RunsTo (.casMiStateChange up) s (fun d => d.casMi = up ∧ (d.flag Fields.ASC_CAS_STATUS_cas_down 0 = false ↔ up = true ∧ plxUp s.dev 1 = true) ∧
        StatusKept s.dev d [(Fields.ASC_CAS_STATUS_cas_down, 0)] ∧ d = { s.dev with sts := d.sts, casMi := d.casMi })) ∧
    (up = false ∨ plxUp s.dev 1 = false →
      exec (.casMiStateChange up) s =
        .next (s.withDev (casLocals s.cfg ({ s.dev with casMi := up }.set Fields.ASC_CAS_STATUS_cas_down 0 1)))) ∧
    (s.dev.phase = .run → groveParked s.dev g = false →
      RunsTo (.ponTxLaneReady g) s (fun d => d.flag Fields.LANE_PON_STATUS_tx_ready g = true ∧ d.flag Fields.LANE_PON_STATUS_rx_ready g = true ∧
        StatusKept s.dev d [(Fields.LANE_PON_STATUS_tx_ready, g), (Fields.LANE_PON_STATUS_rx_ready, g)] ∧ d = { s.dev with sts := d.sts }))

/-- R534: the link of an enabled port of a running device comes up, and its retry timer stops; R535 and R537: a link that is lost is counted, its egress queues empty and
it leaves its group; R550: a packet that is leaving the port is cut off and counted; R534: a port with no link 4,000 ticks after its bring-up began tries again; R537: a
link that has held through 8 whole ticks joins its group. R485: the recovered clock is lost with the lock of its lane. R543 and R545: an enabled Plaxon port goes on by
one state, or fails back to DETECT and is counted; R544: an elastic-buffer error of a port that is up takes it to DETECT and is counted; R328: the cascade is down while
CAS_MI or the east port is, and the passes that wait for it then run their lookups locally; R540: a powered PON lane whose PLL locks is ready. -/
def Obligations.SerialLanes : Prop := Rules.LinkEvents ∧ Rules.PlaxonAndPonLanes

/-! ### The phase source, checkpoints and time domains (R41, R52, R458 to R460, R469) -/

/-- R52: on an aligned device an edge of the source shows its error, measured from the place that R51 gives it, and a run of errors over the limit grows by one or
ends; at 64 of them the phase is in excess, flagged and counted once; a source silent for 3 ticks is lost, flagged and counted. R51: an edge's place in the tick is
remembered, before an alignment and under FREE too. R41: every 65,536th edge checkpoints the superframe counter. -/
def Rules.PhaseAndCheckpoint : Prop :=
  ∀ (clk : Fin 187500) (s : State),
    (s.dev.flag Fields.TICK_STATUS_aligned 0 = true → phaseSrc s.cfg ≠ 0 →
      RunsTo (.tickInEdge clk) s (fun d =>
        d.srcEdge = some clk.val ∧
        d.get Fields.TICK_PHASE_ERR_phase_err 0 = (phaseError (sourcePlace s.cfg clk) % 2 ^ 32).toNat ∧
        d.run .phase 0 =
          (if s.cfg.get Fields.TICK_PHASE_LIMIT_phase_limit 0 < (phaseError (sourcePlace s.cfg clk)).natAbs then s.dev.run .phase 0 + 1 else 0) ∧
        d.armed .alignSrc 0 = true ∧ StatusKept s.dev d [(Fields.TICK_PHASE_ERR_phase_err, 0)] ∧
        EntriesKept s.dev.runs d.runs [runKey .phase 0, runKey .phaseSeen 0] ∧ EntriesKept s.dev.timers d.timers [timerKey .alignSrc 0] ∧
        d = { s.dev with srcEdge := d.srcEdge, sts := d.sts, runs := d.runs, timers := d.timers })) ∧
    (s.dev.flag Fields.TICK_STATUS_aligned 0 = false ∨ phaseSrc s.cfg = 0 →
      exec (.tickInEdge clk) s = .next (s.withDev { s.dev with srcEdge := some clk.val })) ∧
    (64 ≤ s.dev.run .phase 0 → s.dev.run .phaseSeen 0 = 0 →
      RunsTo .phaseExcess s (fun d => d.flag Fields.TICK_STATUS_phase_excess 0 = true ∧ CountedOnly s.dev d [(.device, .phaseExcess, 0)] ∧
        StatusKept s.dev d [(Fields.TICK_STATUS_phase_excess, 0)] ∧ d.run .phaseSeen 0 = 1 ∧ EntriesKept s.dev.runs d.runs [runKey .phaseSeen 0] ∧
        d = { s.dev with sts := d.sts, cnt := d.cnt, runs := d.runs })) ∧
    (s.dev.expired .alignSrc 0 3 = true →
      RunsTo .alignSrcLost s (fun d => d.flag Fields.TICK_STATUS_src_lost 0 = true ∧ CountedOnly s.dev d [(.device, .tickSrcLost, 0)] ∧
        StatusKept s.dev d [(Fields.TICK_STATUS_src_lost, 0)] ∧ d.armed .alignSrc 0 = false ∧
        EntriesKept s.dev.timers d.timers [timerKey .alignSrc 0] ∧ d = { s.dev with sts := d.sts, cnt := d.cnt, timers := d.timers })) ∧
    (s.dev.running = true → s.dev.sfc % 65536 = 0 → exec .sfcCheckpoint s = .next (s.withDev { s.dev with keepSfc := some s.dev.sfc }))

/-- R459: a set domain whose Sync watchdog has run out is lost, flagged and counted. R469: an edge that is due marks a native grove in service with a TIME_MARK
ahead of every queued message, and counts it, once; R477: where the time was not valid at the edge none goes out. -/
def Rules.DomainsAndMarks : Prop :=
  ∀ (x : Fin 2) (g : Fin 64) (s : State),
    ((s.dev.dom x).set = true → syncExpired s.cfg x s.dev = true → s.dev.flag (lostFlag x) 0 = false →
      RunsTo (.domainLost x) s (fun d => d.flag (lostFlag x) 0 = true ∧ CountedOnly s.dev d [(.device, .domainLost, x)] ∧
        StatusKept s.dev d [(lostFlag x, 0)] ∧ d = { s.dev with sts := d.sts, cnt := d.cnt })) ∧
    (compat s.cfg g = false → markDue s.cfg g s.dev.sfc = true → (s.dev.grove g).inService = true → s.dev.isStandby = false →
      s.dev.edgeSet = true → s.dev.clock = 0 → (s.dev.sharedOf (bcastKey g)).valid = true → (s.dev.grove g).msgQ.length < 512 →
      (s.dev.grove g).marked ≠ some s.dev.sfc →
      RunsTo (.timeMarkSend g) s (fun d => (∃ body, (d.grove g).msgQ = { ty := 0x0E, stand := 0x1FF, body := body, host := false } :: (s.dev.grove g).msgQ ∧
          body.take 6 = toBytesBE 6 s.dev.sfc) ∧ (d.grove g).marked = some s.dev.sfc ∧
        CountedOnly s.dev d [(.grove, .marksSent, g)] ∧ EntriesKept s.dev.groves d.groves [g.val] ∧
        d = { s.dev with groves := d.groves, cnt := d.cnt })) ∧
    (s.dev.edgeSet = false ∨ (s.dev.grove g).marked = some s.dev.sfc → exec (.timeMarkSend g) s = .next s)

/-- R52: on an aligned device an edge of the source shows its error, measured from the place that R51 gives it, and a run of errors over the limit grows by one or ends;
at 64 of them the phase is in excess, flagged and counted once; a source silent for 3 ticks is lost, flagged and counted. R51: an edge's place in the tick is remembered,
before an alignment and under FREE too. R41: every 65,536th edge checkpoints the superframe counter. R459: a set domain whose Sync watchdog has run out is lost, flagged
and counted. R469: an edge that is due marks a native grove in service with a TIME_MARK ahead of every queued message, and counts it, once; R477: where the time was not
valid at the edge none goes out. -/
def Obligations.CheckpointAndDomains : Prop := Rules.PhaseAndCheckpoint ∧ Rules.DomainsAndMarks

/-! ### Clock sources, QUIET, PARK, STANDBY, resets (R485 to R502, R567) -/

/-- The status fields of the clock sources. -/
def clockFields : List (Fld × Nat) := [(Fields.CLK_STATUS_ready, 0), (Fields.CLK_STATUS_lost, 0)]

/-- R485: a source that is lost is no longer ready, its lost bit is set and it is counted; R488: the outputs of every selector on it whose switch has completed
go safe; R484: a source that four consecutive windows found in tolerance is ready and no longer lost, and before that it is not made ready; R487: switches that wait for a stopped source complete, with the escape flagged and each counted. -/
def Obligations.ClockSources : Prop :=
  ∀ (k : Fin 5) (s : State),
    (s.dev.phase ≠ .held → s.dev.srcLost.contains k.val = false → (∀ n ∈ selectors, selectedSrc s.cfg n ≠ k) →
      RunsTo (.sourceLost k) s (fun d => d.srcLost = k.val :: s.dev.srcLost ∧ srcReady d k = false ∧
        (d.get Fields.CLK_STATUS_lost 0).testBit k = true ∧ CountedOnly s.dev d [(.device, .srcLost, k)] ∧ StatusKept s.dev d clockFields ∧
        d.run .srcWin k = 0 ∧ EntriesKept s.dev.runs d.runs [runKey .srcWin k, runKey .srcBad k] ∧
        d = { s.dev with sts := d.sts, cnt := d.cnt, srcLost := d.srcLost, runs := d.runs })) ∧
    (s.dev.phase ≠ .held → s.dev.srcLost.contains k.val = false → noWaits s.dev →
      RunsTo (.sourceLost k) s (fun d => ∀ n ∈ selectors, selectedSrc s.cfg n = k → s.dev.muxWait.contains n = false → d.safeOut.contains n = true)) ∧
    (s.dev.run .srcWin k < 4 → exec (.sourceReady k) s = .next s) ∧
    (s.dev.phase ≠ .held → 4 ≤ s.dev.run .srcWin k →
      RunsTo (.sourceReady k) s (fun d => srcReady d k = true ∧ d.srcLost.contains k.val = false ∧ StatusKept s.dev d [(Fields.CLK_STATUS_ready, 0)] ∧
        d = { s.dev with sts := d.sts, srcLost := d.srcLost })) ∧
    (s.dev.muxWait ≠ [] → (∀ n ∈ s.dev.muxWait, s.dev.srcLost.contains (selectedSrc s.cfg n) = false) →
      RunsTo .stoppedSourceEscape s (fun d => d.muxWait = [] ∧ d.flag Fields.CLK_STATUS_stopped_source_escape 0 = true ∧
        Counted s.dev d .device .escape 0 s.dev.muxWait.length ∧ EntriesKept s.dev.cnt d.cnt [ctrKey .device .escape 0] ∧ StatusKept s.dev d [(Fields.CLK_STATUS_stopped_source_escape, 0)] ∧
        d = { s.dev with sts := d.sts, cnt := d.cnt, muxWait := [] }))

/-- R493: an unpaired device shows the power state RUN or QUIET that its committed req_state asks for; R494 and R495: a committed bit of park_mask parks its
quadrant, unless STANDBY has committed with it (R505), a cleared one unparks it and counts. -/
def Obligations.QuietAndPark : Prop :=
  ∀ (q : Fin 4) (s : State), s.dev.running = true →
    (s.dev.isPaired = false → s.cfg.get Fields.CLK_PWR_req_state 0 < 2 →
      RunsTo .enterQuiet s (fun d => d.get Fields.CLK_PWR_STAT_state 0 = s.cfg.get Fields.CLK_PWR_req_state 0 ∧
        StatusKept s.dev d [(Fields.CLK_PWR_STAT_state, 0)] ∧ d = { s.dev with sts := d.sts })) ∧
    ((s.cfg.get Fields.CLK_PWR_park_mask 0).testBit q = true → quadParked s.dev q = false → standbyAsked s.cfg s.dev = false → noWaits s.dev →
      RunsTo (.parkQuadrant q) s (fun d => quadParked d q = true)) ∧
    (standbyAsked s.cfg s.dev = true → exec (.parkQuadrant q) s = .next s) ∧
    ((s.cfg.get Fields.CLK_PWR_park_mask 0).testBit q = false → quadParked s.dev q = true →
      RunsTo (.unparkQuadrant q) s (fun d => quadParked d q = false ∧ CountedOnly s.dev d [(.device, .unparks, 0)] ∧
        StatusKept s.dev d [(Fields.CLK_PWR_STAT_parked, 0)] ∧ d = { s.dev with sts := d.sts, cnt := d.cnt, timers := d.timers }))

/-- R499: PORST_N holds the device and resets everything but the keep store: the configuration is that of reset, and stands, queues, groves, timers and counters are
gone; the keep-store records, the checkpoint, the key slots and their ceilings stay; what has been sent stays sent. -/
def Obligations.PorstKeepsTheKeepStore : Prop :=
  ∀ s : State, ∃ d, exec .porstNAssert s = .next { s with cfg := Cfg.reset, dev := d } ∧ d.phase = .held ∧ d.sts = RegFile.reset ∧
    d.cnt = [] ∧ d.timers = [] ∧ d.life = [] ∧ d.groves = [] ∧ d.queues = [] ∧ d.keyCmd = none ∧ d.inServ = [] ∧
    d.keep = s.dev.keep ∧ d.keepSfc = s.dev.keepSfc ∧ d.keepHmac = s.dev.keepHmac ∧ d.slots = s.dev.slots ∧ d.slotMeta = s.dev.slotMeta ∧
    d.ceil = s.dev.ceil ∧ d.outbox = s.dev.outbox ∧ (s.dev.flashOp = none → d.flash = s.dev.flash)

/-- R496 and R497: a running unpaired device whose committed req_state is STANDBY is gated: the keep store, the interrupt state and the words of TOP, CLK, INT and ACC
stay, and the counter is checkpointed. R498: req_state = RUN wakes it: it is held for its start, with boot cause 2 and the wake counted. R500: a held device that is
started runs, in step 6 of its start. -/
def Rules.StandbyAndStart : Prop :=
  ∀ (st : Straps) (s : State),
    (s.dev.running = true → s.dev.isPaired = false → s.cfg.get Fields.CLK_PWR_req_state 0 = 2 →
      ∃ t, exec .enterStandby s = .next t ∧ t.pending = s.pending ∧ t.dev.phase = .standby ∧ t.dev.get Fields.CLK_PWR_STAT_state 0 = 2 ∧
        (∀ r i, retainedIds.contains r.id = true → t.cfg.word r i = s.cfg.word r i) ∧
        (∀ r i, retainedIds.contains r.id = false → t.cfg.word r i = cfgReset r i)) ∧
    (s.dev.phase = .standby → s.cfg.final.get Fields.CLK_PWR_req_state 0 = 0 →
      RunsTo .wake s (fun d => d.phase = .held ∧ d.get Fields.CLK_BOOT_boot_cause 0 = 2 ∧ CountedOnly s.dev d [(.device, .wakes, 0)] ∧
        d = { s.dev with phase := .held, sts := d.sts, cnt := d.cnt })) ∧
    (s.dev.phase = .held →
      ∃ t, exec (.startUp st) s = .next t ∧ t.pending = s.pending ∧ t.dev.get Fields.CLK_BOOT_step 0 = 6)

/-- R499: PERST_N resets the endpoint alone: MSI-X and VF Enable are off, every vector is masked with no pending bit, and nothing else changes. R567: a function-level
reset of a VF that is there discards its held writes, clears its hold, its ring and its last-status entry, and leaves the other functions' words alone. -/
def Rules.EndpointResets : Prop :=
  ∀ (f : Fin 16) (s : State),
    RunsTo .perstN s (fun d => d.msixEn = [] ∧ d.funcMask = [] ∧ d.vfEn = false ∧ (∀ v, (d.vec v).masked = true ∧ (d.vec v).pba = false) ∧
      (∀ v, (d.vec v).out = (s.dev.vec v).out) ∧
      d = { s.dev with msixEn := [], funcMask := [], vfEn := false, vecs := d.vecs }) ∧
    (f.val ≠ 0 → s.dev.vfEn = true →
      ∃ t, exec (.functionLevelReset f) s = .next t ∧ t.pending = s.pending ∧
        t.cfg.get Fields.TICK_STAGE_CTL_hold f = 0 ∧ t.cfg.get Fields.TBL_RING_CTRL_en f = 0 ∧
        t.cfg.staged = s.cfg.staged.filter (fun w => !(w.master == f.val && w.due.isNone)) ∧
        WordsKept s.cfg t.cfg [(.TICK_STAGE_CTL, f), (.TBL_RING_CTRL, f), (.TBL_RING_TAIL, f)] ∧
        t.dev.lastStatus f = 0 ∧ (∀ p ∈ t.dev.inServ, p.2.vec / 64 ≠ f))

/-- R496 and R497: a running unpaired device whose committed req_state is STANDBY is gated: the keep store, the interrupt state and the words of TOP, CLK, INT and ACC
stay, and the counter is checkpointed. R498: req_state = RUN wakes it: it is held for its start, with boot cause 2 and the wake counted. R500: a held device that is
started runs, in step 6 of its start. R499: PERST_N resets the endpoint alone: MSI-X and VF Enable are off, every vector is masked with no pending bit, and nothing else
changes. R567: a function-level reset of a VF that is there discards its held writes, clears its hold, its ring and its last-status entry, and leaves the other functions'
words alone. -/
def Obligations.StartAndResets : Prop := Rules.StandbyAndStart ∧ Rules.EndpointResets

/-! ### The lifecycle of stands (R135 to R190) -/

/-- A stand has become ABSENT: it has no keys in use, and no other stand has moved. -/
def goneAbsent (d d' : Dev) (i : Nat) : Prop :=
  d'.st i = .absent ∧ (d'.keysOf i).ready = false ∧ (d'.lifeOf i).rest = [] ∧ (d'.lifeOf i).cmds = [] ∧ ∀ j, j ≠ i → d'.lifeOf j = d.lifeOf j

/-- A command whose rule takes a stand to ABSENT, where its condition holds: the three timers of R144, the attempts of R142. -/
inductive TakesAbsent (s : State) (i : Fin 16384) : Instr → Prop
  | disc : s.dev.st i = .discovered → s.dev.expired .disc i (s.cfg.get Fields.GRV_RNG_DISC_T_disc_ticks (groveOf i)) = true → TakesAbsent s i (.discTicksExpiry i)
  | rng : s.dev.st i = .ranging → s.dev.expired .rng i (s.cfg.get Fields.GRV_RNG_RNG_T_rng_ticks (groveOf i)) = true → TakesAbsent s i (.rngTicksExpiry i)
  | reacq : s.dev.st i = .ranging → s.dev.expired .reacq i (s.cfg.get Fields.GRV_RNG_REACQ_T_reacq_ticks (groveOf i)) = true → TakesAbsent s i (.reacqTicksExpiry i)
  | fail : s.dev.st i = .ranging → s.cfg.get Fields.GRV_RNG_CTRL_rng_attempts (groveOf i) ≤ (s.dev.rngOf i).attempts → TakesAbsent s i (.rngFail i)

/-- R142, R144 and R172: a stand whose discovery, ranging or re-acquisition timer has run out, or whose ranging attempts are used up, becomes ABSENT and loses its
keys, unless it has moved at this edge already; so does a stand that is neither ABSENT nor SILENCED and whose DYING_GASP is judged. No other stand moves. R158: a ranging
burst of the tick that a timer's expiry ends is judged first: where it ranges a stand whose keys are in place, the stand becomes ACTIVE. -/
def Rules.StandsGoAbsent : Prop :=
  ∀ (i : Fin 16384) (s : State), canMove s.dev i = true →
    (∀ c, TakesAbsent s i c → s.dev.settled i → RunsTo c s (fun d => goneAbsent s.dev d i)) ∧
    (∀ c p, (c = .rngTicksExpiry i ∧ s.dev.expired .rng i (s.cfg.get Fields.GRV_RNG_RNG_T_rng_ticks (groveOf i)) = true ∨
        c = .reacqTicksExpiry i ∧ s.dev.expired .reacq i (s.cfg.get Fields.GRV_RNG_REACQ_T_reacq_ticks (groveOf i)) = true) →
      s.dev.st i = .ranging → (s.dev.rngOf i).res = some (some p) → p.natAbs ≤ 1 → compat s.cfg (groveOf i) = false →
      keysInPlace s.cfg s.dev i = true → silenceDue s.cfg s.dev i = false → (∀ m ∈ (s.dev.grove (groveOf i)).judge, m.stand ≠ i) →
      RunsTo c s (fun d => d.st i = .active ∧ (∀ j, j ≠ i → d.lifeOf j = s.dev.lifeOf j))) ∧
    (∀ (g : Fin 64) (m : InMsg) (rest : List InMsg), (s.dev.grove g).judge = m :: rest → m.ty = 0x11 → m.stand = i →
      s.dev.st i ≠ .absent → s.dev.st i ≠ .silenced → RunsTo (.dyingGasp g) s (fun d => goneAbsent s.dev d i))

/-- A stand has entered RANGING with a timer armed: its ranging grant is due, its equalization delay is as it was, and no other stand has moved. -/
def nowRanging (d d' : Dev) (i : Nat) (k : TimerKind) : Prop :=
  d'.st i = .ranging ∧ d'.armed k i = true ∧ (d'.rngOf i).grantDue = true ∧ (d'.rngOf i).ranged = false ∧ (d'.rngOf i).eqd = (d.rngOf i).eqd ∧
    (d'.rngOf i).attempts = 0 ∧ ∀ j, j ≠ i → d'.lifeOf j = d.lifeOf j ∧ d'.rngOf j = d.rngOf j

/-- A grove holds no replica of a multicast packet. -/
def noReplicas (d : Dev) (g : Nat) : Prop := ∀ grp < 512, d.reps.getD (repKey g grp) [] = []

/-- R167: a DISCOVERED stand that its grove's policy admits, R169: an ACTIVE stand lost for lost_ticks, and R171: a SILENCED stand whose release is due enter RANGING,
each with its own timer; a lost stand keeps its keys, a released one forgets its tag failures. Where the grove
holds no replicas, which a stand that leaves ACTIVE may end (R379), nothing else changes. -/
def Rules.StandsRange : Prop :=
  ∀ (i : Fin 16384) (s : State),
    (s.dev.st i = .discovered → (s.dev.lifeOf i).discEdge + 1 = s.dev.sfc → s.cfg.get Fields.GRV_STD_CTRL_adm_policy (groveOf i) = 0 →
      mayMove s.cfg s.dev i = true →
      RunsTo (.standAdmit i) s (fun d => nowRanging s.dev d i .rng ∧ d.armed .disc i = false ∧
        (noReplicas s.dev (groveOf i) →
          d = { s.dev with life := d.life, rng := d.rng, groves := d.groves, timers := d.timers, keys := d.keys, keng := d.keng, reps := d.reps }))) ∧
    (s.dev.st i = .active → mayMove s.cfg s.dev i = true → s.dev.expired .lost i (s.cfg.get Fields.GRV_STD_CTRL_lost_ticks (groveOf i)) = true →
      RunsTo (.lostTicksExpiry i) s (fun d => nowRanging s.dev d i .reacq ∧ d.armed .lost i = false ∧ d.get Fields.STD_STATE_lost i = 1 ∧
        Counted s.dev d .stand .standLost i 1 ∧ d.keys = s.dev.keys ∧
        (noReplicas s.dev (groveOf i) → EntriesKept s.dev.cnt d.cnt [ctrKey .stand .standLost i, ctrKey .grove .omciTxDiscard (groveOf i)] ∧
          d = { s.dev with sts := d.sts, cnt := d.cnt, life := d.life, rng := d.rng, mail := d.mail, wheels := d.wheels, groves := d.groves
                           timers := d.timers, reps := d.reps }))) ∧
    (s.dev.st i = .silenced → canMove s.dev i = true →
      s.dev.expired .silence i (s.cfg.get Fields.GRV_STD_SILENCE_T_silence_ticks (groveOf i)) = true →
      RunsTo (.silenceTicksExpiry i) s (fun d => nowRanging s.dev d i .rng ∧ d.armed .silence i = false ∧ (d.keysOf i).fails = [] ∧
        d.get Fields.STD_STATE_tag_silenced i = 0 ∧
        (noReplicas s.dev (groveOf i) → StatusKept s.dev d [(Fields.STD_STATE_tag_silenced, i)] ∧
          d = { s.dev with sts := d.sts, life := d.life, rng := d.rng, groves := d.groves, timers := d.timers, keys := d.keys, keng := d.keng
                           reps := d.reps })))

/-- R142, R144 and R172: a stand whose discovery, ranging or re-acquisition timer has run out, or whose ranging attempts are used up, becomes ABSENT and loses its keys,
unless it has moved at this edge already; so does a stand that is neither ABSENT nor SILENCED and whose DYING_GASP is judged. No other stand moves. R158: a ranging burst
of the tick that a timer's expiry ends is judged first: where it ranges a stand whose keys are in place, the stand becomes ACTIVE. R167: a DISCOVERED stand that its
grove's policy admits, R169: an ACTIVE stand lost for lost_ticks, and R171: a SILENCED stand whose release is due enter RANGING, each with its own timer; a lost stand
keeps its keys, a released one forgets its tag failures. Where the grove holds no replicas, which a stand that leaves ACTIVE may end (R379), nothing else changes. -/
def Obligations.StandsLoseAndRange : Prop := Rules.StandsGoAbsent ∧ Rules.StandsRange

/-- R403 and R170: a stand with tf_limit tag failures in the window is SILENCED, flagged, and its release is timed where silence_ticks is not 0, unless a transition to
ABSENT is due at the edge (R189). R180 and R181: at the entry edge of a placed rest grant an ACTIVE stand rests, its watchdog stopped; R187: the grant of a stand that is
not ACTIVE then lapses; at its wake edge a RESTING stand is ACTIVE again, watched, with a ranging twig due. -/
def Rules.SilenceAndRest : Prop :=
  ∀ (i : Fin 16384) (s : State),
    (silenceDue s.cfg s.dev i = true → canMove s.dev i = true → absentDue s.cfg s.dev i = false → s.dev.settled i →
      RunsTo (.tagSilence i) s (fun d => d.st i = .silenced ∧ d.get Fields.STD_STATE_tag_silenced i = 1 ∧
        (s.cfg.get Fields.GRV_STD_SILENCE_T_silence_ticks (groveOf i) ≠ 0 → d.armed .silence i = true) ∧ ∀ j, j ≠ i → d.lifeOf j = s.dev.lifeOf j)) ∧
    (∀ r, (s.dev.lifeOf i).rest.find? (fun x => decide (x.entry ≤ s.dev.sfc)) = some r →
      (s.dev.st i = .active → mayMove s.cfg s.dev i = true →
        RunsTo (.restEntry i) s (fun d => d.st i = .resting ∧ (d.lifeOf i).wake = r.wake ∧ d.armed .lost i = false ∧ (∀ j, j ≠ i → d.lifeOf j = s.dev.lifeOf j) ∧
          (d.lifeOf i).rest = (s.dev.lifeOf i).rest.filter (fun x => decide (s.dev.sfc < x.entry)) ∧
          d = { s.dev with life := d.life, rng := d.rng, timers := d.timers, wheels := d.wheels })) ∧
      (s.dev.st i ≠ .active →
        RunsTo (.restEntry i) s (fun d => (d.lifeOf i).rest = (s.dev.lifeOf i).rest.filter (fun x => decide (s.dev.sfc < x.entry)) ∧
          d.st i = s.dev.st i ∧ (∀ j, j ≠ i → d.lifeOf j = s.dev.lifeOf j) ∧ d = { s.dev with life := d.life }))) ∧
    (s.dev.st i = .resting → (s.dev.lifeOf i).wake ≤ s.dev.sfc → mayMove s.cfg s.dev i = true →
      RunsTo (.restWake i) s (fun d => d.st i = .active ∧ d.armed .lost i = true ∧ (d.rngOf i).twigDue = true ∧
        (∀ j, j ≠ i → d.lifeOf j = s.dev.lifeOf j) ∧
        d = { s.dev with life := d.life, rng := d.rng, timers := d.timers, groves := d.groves }))

/-- R137 and R138: a good discovery answer, of a Siltus grove's clearing or a compatibility grove's quiet window, whose serial no stand holds and whose equalization delay
can be assigned makes the chosen position DISCOVERED, with the answer's serial, that delay, and its timer armed. R231 to R233: a Serial_Number_ONU in a quiet window whose
integrity check holds is counted and waits for the edge as such an answer; one whose check fails is counted and no more. -/
def Rules.AnswersDiscover : Prop :=
  ∀ (g : Fin 64) (a : Answer) (cl : Clearing) (i mic : Nat) (s : State),
    clearingAt s.dev g a.frame = some cl →
    ((s.dev.standsOf g).all (fun j => s.dev.st j == .absent || !((s.dev.lifeOf j).serial == a.serial)) = true →
    (s.dev.grove g).takenSer.contains a.serial = false →
    eqdIn s.cfg g cl.tloop ((cl.eqdDisc : Int) - ((a.pos : Int) - ((cl.s0 + answerLead s.cfg g + a.r : Nat) : Int) * 256)) = true →
    choosePosition s.cfg s.dev g a.serial = some i → canMove s.dev i = true →
    (∀ rest, (s.dev.grove g).answers = a :: rest →
      RunsTo (.discoveryAnswer g) s (fun d => d.st i = .discovered ∧ (d.lifeOf i).serial = a.serial ∧ d.armed .disc i = true ∧
        ((d.rngOf i).eqd : Int) = (cl.eqdDisc : Int) - ((a.pos : Int) - ((cl.s0 + answerLead s.cfg g + a.r : Nat) : Int) * 256) ∧
        (∀ j, j ≠ i → d.lifeOf j = s.dev.lifeOf j) ∧
        d = { s.dev with cnt := d.cnt, life := d.life, rng := d.rng, keep := d.keep, groves := d.groves, timers := d.timers }))) ∧
    (compat s.cfg g = true → a.precoder = false → mic = serialCheck a.serial a.r →
      RunsTo (.serialNumberOnu g a.frame a.pos a.serial a.r mic) s (fun d => (d.grove g).ansInbox = (s.dev.grove g).ansInbox ++ [a] ∧
        CountedOnly s.dev d [(.grove, .ploamRx, g)] ∧ EntriesKept s.dev.groves d.groves [g.val] ∧ d = { s.dev with cnt := d.cnt, groves := d.groves })) ∧
    (compat s.cfg g = true → mic ≠ serialCheck a.serial a.r →
      RunsTo (.serialNumberOnu g a.frame a.pos a.serial a.r mic) s (fun d => CountedOnly s.dev d [(.grove, .ploamMicFail, g)] ∧ d = { s.dev with cnt := d.cnt }))

/-- R403 and R170: a stand with tf_limit tag failures in the window is SILENCED, flagged, and its release is timed where silence_ticks is not 0, unless a transition to
ABSENT is due at the edge (R189). R180 and R181: at the entry edge of a placed rest grant an ACTIVE stand rests, its watchdog stopped; R187: the grant of a stand that is
not ACTIVE then lapses; at its wake edge a RESTING stand is ACTIVE again, watched, with a ranging twig due. R137 and R138: a good discovery answer, of a Siltus grove's
clearing or a compatibility grove's quiet window, whose serial no stand holds and whose equalization delay can be assigned makes the chosen position DISCOVERED, with the
answer's serial, that delay, and its timer armed. R231 to R233: a Serial_Number_ONU in a quiet window whose integrity check holds is counted and waits for the edge as
such an answer; one whose check fails is counted and no more. -/
def Obligations.StandsRestAndAppear : Prop := Rules.SilenceAndRest ∧ Rules.AnswersDiscover

/-- R142: a RANGING stand's burst that lies more than one unit off its place corrects the equalization delay by the phase, counts as an attempt, and the next grant is
due; R161: none is corrected where the stand becomes ABSENT with the attempt
or by a timer; R143: one within a unit makes a stand whose keys are in place ACTIVE and watched. R145: a confirmed drift of an ACTIVE stand corrects its delay and is counted. -/
def Rules.RangingAndDrift : Prop :=
  ∀ (i : Fin 16384) (p : Int) (s : State),
    (s.dev.st i = .ranging → (s.dev.rngOf i).res = some (some p) → 1 < p.natAbs → (s.dev.rngOf i).ranged = false →
      eqdOk s.cfg s.dev (groveOf i) (((s.dev.rngOf i).eqd : Int) - p) = true → leavesRanging s.cfg s.dev i = false →
      rangingOver s.cfg s.dev i = false → (s.dev.rngOf i).attempts + 1 < s.cfg.get Fields.GRV_RNG_CTRL_rng_attempts (groveOf i) →
      RunsTo (.rangingAttempt i) s (fun d => ((d.rngOf i).eqd : Int) = ((s.dev.rngOf i).eqd : Int) - p ∧ (d.rngOf i).attempts = (s.dev.rngOf i).attempts + 1 ∧
        (d.rngOf i).grantDue = true ∧ (d.rngOf i).res = none ∧ (∀ j, j ≠ i → d.rngOf j = s.dev.rngOf j) ∧ d = { s.dev with rng := d.rng, groves := d.groves })) ∧
    (s.dev.st i = .ranging → (s.dev.rngOf i).res = some (some p) → 1 < p.natAbs → (s.dev.rngOf i).ranged = false → leavesRanging s.cfg s.dev i = false →
      (s.cfg.get Fields.GRV_RNG_CTRL_rng_attempts (groveOf i) ≤ (s.dev.rngOf i).attempts + 1 ∨ rangingOver s.cfg s.dev i = true) →
      RunsTo (.rangingAttempt i) s (fun d => (d.rngOf i).eqd = (s.dev.rngOf i).eqd ∧ (d.rngOf i).attempts = (s.dev.rngOf i).attempts + 1 ∧
        (d.rngOf i).res = none ∧ (∀ j, j ≠ i → d.rngOf j = s.dev.rngOf j) ∧ d = { s.dev with rng := d.rng })) ∧
    (s.dev.st i = .ranging → (s.dev.rngOf i).res = some (some p) → p.natAbs ≤ 1 → compat s.cfg (groveOf i) = false →
      keysInPlace s.cfg s.dev i = true → mayMove s.cfg s.dev i = true →
      RunsTo (.rangingAttempt i) s (fun d => d.st i = .active ∧ d.armed .lost i = true ∧ d.armed .rng i = false ∧ (d.rngOf i).eqd = (s.dev.rngOf i).eqd ∧
        (∀ j, j ≠ i → d.lifeOf j = s.dev.lifeOf j))) ∧
    (s.dev.st i = .active → leavesRanging s.cfg s.dev i = false → s.cfg.get Fields.GRV_RNG_CTRL_drift_confirm (groveOf i) ≤ (s.dev.rngOf i).driftRun →
      (∀ q, (s.dev.rngOf i).res = some (some q) → q.natAbs ≤ 1) →
      eqdOk s.cfg s.dev (groveOf i) (((s.dev.rngOf i).eqd : Int) - (s.dev.rngOf i).driftM) = true →
      RunsTo (.driftCorrection i) s (fun d => ((d.rngOf i).eqd : Int) = ((s.dev.rngOf i).eqd : Int) - (s.dev.rngOf i).driftM ∧ (d.rngOf i).driftRun = 0 ∧
        CountedOnly s.dev d [(.stand, .driftCorr, i), (.grove, .driftCorr, groveOf i)] ∧ (∀ j, j ≠ i → d.rngOf j = s.dev.rngOf j) ∧
        d = { s.dev with rng := d.rng, groves := d.groves, cnt := d.cnt }))

/-- R149: after learn_bursts bursts a stand's preset is learned, R152: after relearn_misses misses it is forgotten as learned, each counted; R154: at its checkpoint
edge the keep-store record of a stand whose delay has changed takes the new one, and a stand in service without a record gets one. R433: a standby learns no presets
of its own. -/
def Rules.PresetsAndRecords : Prop :=
  ∀ (i : Fin 16384) (s : State),
    (s.dev.isStandby = false → (s.dev.rngOf i).learned = false → s.cfg.get Fields.GRV_RNG_CTRL_learn_bursts (groveOf i) ≤ (s.dev.rngOf i).learnCount →
      RunsTo (.presetLearned i) s (fun d => (d.rngOf i).learned = true ∧ (d.rngOf i).preset = (s.dev.rngOf i).preset ∧
        CountedOnly s.dev d [(.stand, .presetLearned, i), (.grove, .presetLearned, groveOf i)] ∧
        EntriesKept s.dev.rng d.rng [i.val] ∧ d = { s.dev with rng := d.rng, cnt := d.cnt })) ∧
    (s.dev.isStandby = false → (s.dev.rngOf i).learned = true → s.cfg.get Fields.GRV_RNG_CTRL_relearn_misses (groveOf i) ≤ (s.dev.rngOf i).missRun →
      RunsTo (.presetRelearn i) s (fun d => (d.rngOf i).learned = false ∧ (d.rngOf i).learnCount = 0 ∧ (d.rngOf i).preset = (s.dev.rngOf i).preset ∧
        CountedOnly s.dev d [(.stand, .presetRelearn, i), (.grove, .presetRelearn, groveOf i)] ∧
        EntriesKept s.dev.rng d.rng [i.val] ∧ d = { s.dev with rng := d.rng, cnt := d.cnt })) ∧
    (s.dev.isStandby = true → exec (.presetLearned i) s = .next s ∧ exec (.presetRelearn i) s = .next s) ∧
    (s.dev.keep.get? i = none → s.dev.sfc % 8000 = i.val % 8000 → (s.dev.st i = .active ∨ s.dev.st i = .resting) →
      RunsTo (.checkpointWrite i) s (fun d => (∃ r, d.keep.get? i = some r ∧ r.eqd = (s.dev.rngOf i).eqd ∧ r.serial = (s.dev.lifeOf i).serial ∧ r.sfc = s.dev.sfc) ∧
        EntriesKept s.dev.keep d.keep [i.val] ∧ d = { s.dev with keep := d.keep })) ∧
    (∀ k, s.dev.keep.get? i = some k → s.dev.sfc % 8000 = i.val % 8000 → s.dev.st i ≠ .absent → k.eqd ≠ (s.dev.rngOf i).eqd →
      RunsTo (.checkpointWrite i) s (fun d => (∃ r, d.keep.get? i = some r ∧ r.eqd = (s.dev.rngOf i).eqd ∧ r.serial = (s.dev.lifeOf i).serial ∧ r.sfc = s.dev.sfc) ∧
        EntriesKept s.dev.keep d.keep [i.val] ∧ d = { s.dev with keep := d.keep }))

/-- R142: a RANGING stand's burst that lies more than one unit off its place corrects the equalization delay by the phase, counts as an attempt, and the next grant is
due; R161: none is corrected where the stand becomes ABSENT with the attempt or by a timer; R143: one within a unit makes a stand whose keys are in place ACTIVE and
watched. R145: a confirmed drift of an ACTIVE stand corrects its delay and is counted. R149: after learn_bursts bursts a stand's preset is learned, R152: after
relearn_misses misses it is forgotten as learned, each counted; R154: at its checkpoint edge the keep-store record of a stand whose delay has changed takes the new one,
and a stand in service without a record gets one. R433: a standby learns no presets of its own. -/
def Obligations.RangingRecords : Prop := Rules.RangingAndDrift ∧ Rules.PresetsAndRecords

/-- R180: an ACTIVE stand's rest request that nothing forbids is granted for the period the rule gives, which its REST_GRANT carries, and counted; one that a reason
forbids is denied and counted;
R179: an accepted HOST_MSG enters the receive queue whole; R185: after a change of membership every group's announced bit is the one in force. -/
def Obligations.StandMessages : Prop :=
  ∀ (g : Fin 64) (m : InMsg) (rest : List InMsg) (i : Fin 16384) (s : State),
    ((s.dev.grove g).judge = m :: rest → m.ty = 0x0B → s.dev.st m.stand = .active →
      RunsTo (.restRequest g) s (fun d =>
        (if restReason s.cfg s.dev m.stand (ofBytesBE (m.body.take 4)) = 0 then
          (s.dev.isStandby = false → (s.dev.keysOf m.stand).ready = true → (s.dev.grove (groveOf m.stand)).waiting = [] →
            (s.dev.grove (groveOf m.stand)).msgQ.length < 512 →
            (d.grove (groveOf m.stand)).msgQ = (s.dev.grove (groveOf m.stand)).msgQ ++
              [lineMsg 0x0C (inGrove m.stand) (toBytesBE 6 (restPeriod s.cfg s.dev m.stand (ofBytesBE (m.body.take 4))))]) ∧
            CountedOnly s.dev d [(.stand, .restsGranted, m.stand)]
        else CountedOnly s.dev d [(.stand, .restsDenied, m.stand)]) ∧
        d = { s.dev with groves := d.groves, cnt := d.cnt })) ∧
    ((s.dev.grove g).judge = m :: rest → m.ty = 0x12 → groveOf m.stand = g → (s.dev.grove g).rxFifo.length < 64 →
      RunsTo (.hostMsgRx g) s (fun d => (d.grove g).rxFifo = (s.dev.grove g).rxFifo ++ [m.raw] ∧ (d.grove g).judge = rest ∧
        EntriesKept s.dev.groves d.groves [g.val] ∧ d = { s.dev with groves := d.groves })) ∧
    RunsTo (.stdMcastChange i) s (fun d => ∀ grp < 512, (d.keysOf i).joined.contains grp = memberBit s.cfg i grp)

/-! ### Keys (R397 to R424) -/

/-- R406: while its random source is good the key engine offers the agreement of the first stand in its queue that does not rest; the stand leaves the queue. R409: an
ACTIVE stand's rekey interval puts it in the queue; on a compatibility grove it asks for a data key (R238). R408: an offer whose timer runs out goes back to the queue, or after key_tries offers it has failed and is
counted; the timer of a RESTING stand does not run. R433: a standby does none of this. -/
def Rules.AgreementsBegin : Prop :=
  ∀ (i : Fin 16384) (t : Nat) (s : State),
    (s.dev.rngGood = true → s.dev.isStandby = false → nextServed s.dev = some i →
      RunsTo .keyOffer s (fun d => (d.keysOf i).agree = .offered ∧ (d.keysOf i).queued = false ∧ (d.keysOf i).tries = (s.dev.keysOf i).tries + 1 ∧
        i.val ∉ d.keng.queue ∧ EntriesKept s.dev.keys d.keys [i.val] ∧
        d = { s.dev with keng := d.keng, free := d.free, keys := d.keys, groves := d.groves })) ∧
    ((s.dev.keysOf i).lastDone = some t → s.dev.st i = .active → t < s.dev.sfc → s.cfg.get Fields.KEY_REKEY_INT_rekey_int 0 ≠ 0 →
      (s.dev.sfc - t) % s.cfg.get Fields.KEY_REKEY_INT_rekey_int 0 = 0 → (s.dev.keysOf i).queued = false → (s.dev.keysOf i).agree = .idle →
      (s.dev.keysOf i).retiring = none → s.dev.isStandby = false → compat s.cfg (groveOf i) = false →
      RunsTo (.rekeyInterval i) s (fun d => d.keng.queue = s.dev.keng.queue ++ [i.val] ∧ (d.keysOf i).queued = true ∧ (d.keysOf i).isRekey = true ∧
        EntriesKept s.dev.keys d.keys [i.val] ∧ d = { s.dev with keng := d.keng, keys := d.keys })) ∧
    ((s.dev.keysOf i).lastDone = some t → s.dev.st i = .active → t < s.dev.sfc → s.cfg.get Fields.KEY_REKEY_INT_rekey_int 0 ≠ 0 →
      (s.dev.sfc - t) % s.cfg.get Fields.KEY_REKEY_INT_rekey_int 0 = 0 → s.dev.isStandby = false → compat s.cfg (groveOf i) = true →
      RunsTo (.rekeyInterval i) s (fun d =>
        (d.grove (groveOf i)).ploamQ = (s.dev.grove (groveOf i)).ploamQ ++
          [{ kind := .keyControl, onu := inGrove i, args := [0, if (s.dev.keysOf i).dataKey = some 1 then 2 else 1] }] ∧
        EntriesKept s.dev.groves d.groves [groveOf i] ∧ d = { s.dev with groves := d.groves })) ∧
    (s.dev.isStandby = true → exec .keyOffer s = .next s ∧ exec (.rekeyInterval i) s = .next s) ∧
    ((s.dev.keysOf i).agree = .offered → s.dev.st i ≠ .resting → s.dev.isStandby = false → s.dev.expired .key i (s.cfg.get Fields.KEY_TIMERS_key_ticks 0) = true →
      (∀ m ∈ (s.dev.grove (groveOf i)).judge, m.stand ≠ i) →
      RunsTo (.keyTicksExpiry i) s (fun d => d.armed .key i = false ∧ EntriesKept s.dev.keys d.keys [i.val] ∧
        (if (s.dev.keysOf i).tries < s.cfg.get Fields.KEY_TIMERS_key_tries 0 then
          d.keng.queue = s.dev.keng.queue ++ [i.val] ∧ (d.keysOf i).queued = true ∧ d.cnt = s.dev.cnt
        else (d.keysOf i).agree = .failed ∧ (d.keysOf i).retryCkpt = true ∧ CountedOnly s.dev d [(.stand, .keyFail, i)]) ∧
        d = { s.dev with keng := d.keng, keys := d.keys, timers := d.timers, cnt := d.cnt }))

/-- R406: an answer to the epoch offered is judged: a shared value of zero is a bad point, counted; any other installs the epoch's secret and the agreement is
answered. R407 and R410: the confirmation of an ACTIVE stand's agreement makes the new epoch current from the next frame and retires the former one. R407: the grants of the agreement start again
with a bad point too. R418: where a timer of RANGING takes the stand to ABSENT at the edge that comes first. -/
def Rules.AgreementsComplete : Prop :=
  ∀ (g : Fin 64) (m : InMsg) (rest : List InMsg) (s : State), (s.dev.grove g).judge = m :: rest →
    (m.ty = 0x07 → mayAgree s.dev m.stand = true → (s.dev.keysOf m.stand).agree = .offered →
      ofBytesBE (m.body.take 1) = (s.dev.keysOf m.stand).target → (s.dev.st m.stand = .ranging → rangingOver s.cfg s.dev m.stand = false) →
      RunsTo (.keyAnswer g) s (fun d =>
        if Config.x25519 (s.dev.keysOf m.stand).scalar (ofBytesBE ((m.body.drop 1).take 32)) = 0 then
          (d.keysOf m.stand).agree = .offered ∧ (d.keysOf m.stand).grantAt = some 0 ∧ EntriesKept s.dev.keys d.keys [m.stand] ∧
            CountedOnly s.dev d [(.stand, .keyBadPoint, m.stand)] ∧ d = { s.dev with groves := d.groves, cnt := d.cnt, keys := d.keys }
        else
          (d.keysOf m.stand).agree = .answered ∧ ((d.keysOf m.stand).ep (s.dev.keysOf m.stand).target).held = true ∧
            (d.slots.get? (slotOf m.stand (s.dev.keysOf m.stand).target)).isSome = true ∧ EntriesKept s.dev.keys d.keys [m.stand] ∧ d.cnt = s.dev.cnt)) ∧
    (m.ty = 0x08 → s.dev.st m.stand = .active → (s.dev.keysOf m.stand).agree = .answered →
      ofBytesBE (m.body.take 1) = (s.dev.keysOf m.stand).target → (s.dev.keysOf m.stand).ready = true →
      RunsTo (.keyConfirm g) s (fun d => (d.keysOf m.stand).cur = (s.dev.keysOf m.stand).target ∧ (d.keysOf m.stand).ready = true ∧
        (d.keysOf m.stand).agree = .idle ∧ (d.keysOf m.stand).retiring = some (s.dev.keysOf m.stand).cur ∧ (d.keysOf m.stand).curFrom = s.dev.sfc + 1 ∧
        d.armed .retire m.stand = true ∧ CountedOnly s.dev d [(.stand, .agreements, m.stand), (.stand, .rekeys, m.stand)] ∧
        EntriesKept s.dev.keys d.keys [m.stand] ∧
        d = { s.dev with cnt := d.cnt, timers := d.timers, keys := d.keys, keep := d.keep, groves := d.groves }))

/-- R406: while its random source is good the key engine offers the agreement of the first stand in its queue that does not rest; the stand leaves the queue. R409: an
ACTIVE stand's rekey interval puts it in the queue; on a compatibility grove it asks for a data key (R238). R408: an offer whose timer runs out goes back to the queue, or
after key_tries offers it has failed and is counted; the timer of a RESTING stand does not run. R433: a standby does none of this. R406: an answer to the epoch offered is
judged: a shared value of zero is a bad point, counted; any other installs the epoch's secret and the agreement is answered. R407 and R410: the confirmation of an ACTIVE
stand's agreement makes the new epoch current from the next frame and retires the former one. R407: the grants of the agreement start again with a bad point too. R418:
where a timer of RANGING takes the stand to ABSENT at the edge that comes first. -/
def Obligations.Agreements : Prop := Rules.AgreementsBegin ∧ Rules.AgreementsComplete

/-- R410: retire_ticks after an agreement the former epoch and its slot are erased; R423: the keys of a deregistered stand go once its message has been placed; R412: a
shared key's new epoch is in use from its switch edge, the former one, where there is one, kept until its erasure edge. R397: a failed health test of the random source stands. -/
def Rules.KeysRetire : Prop :=
  ∀ (i : Fin 16384) (k : Fin 576) (e : Nat) (s : State),
    (s.dev.isStandby = false → (s.dev.keysOf i).retiring = some e → s.dev.expired .retire i (s.cfg.get Fields.KEY_TIMERS_retire_ticks 0) = true →
      RunsTo (.epochRetire i) s (fun d => (d.keysOf i).retiring = none ∧ ((d.keysOf i).ep e).held = false ∧ d.slots.get? (slotOf i e) = none ∧
        EntriesKept s.dev.slots d.slots [slotOf i e] ∧ EntriesKept s.dev.keys d.keys [i.val])) ∧
    ((s.dev.lifeOf i).deregMsg = true →
      ((s.dev.grove (groveOf i)).msgQ ++ (s.dev.grove (groveOf i)).waiting).all (fun m => !(m.ty == 0x10 && m.stand == inGrove i)) = true →
      (s.dev.grove (groveOf i)).ploamQ.all (fun p => !(p.kind == .deactivate && p.onu == inGrove i)) = true →
      RunsTo (.deregisterKeyErase i) s (fun d => (d.keysOf i).ready = false ∧ (d.lifeOf i).deregMsg = false ∧ d.slots.get? (3 * i) = none ∧
        d.slots.get? (3 * i + 1) = none ∧ d.slots.get? (3 * i + 2) = none ∧
        EntriesKept s.dev.slots d.slots [3 * i, 3 * i + 1, 3 * i + 2, slotOf i (s.dev.keysOf i).target])) ∧
    (s.dev.isStandby = false → (s.dev.sharedOf k).pending = true → (s.dev.sharedOf k).switchAt = some e → e ≤ s.dev.sfc →
      RunsTo (.groupKeySwitch k) s (fun d => (d.sharedOf k).epoch = (if (s.dev.sharedOf k).valid then 1 - (s.dev.sharedOf k).epoch else (s.dev.sharedOf k).epoch) ∧ (d.sharedOf k).valid = true ∧ (d.sharedOf k).pending = false ∧ (d.sharedOf k).ctr = 0 ∧
        (d.sharedOf k).eraseAt =
          (if (s.dev.sharedOf k).valid then some (s.dev.sfc + s.cfg.get Fields.KEY_TIMERS_retire_ticks 0) else none) ∧
        (if k.val < 512 ∧ (s.dev.sharedOf k).valid = true then CountedOnly s.dev d [(.device, .groupRekeys, k)] else d.cnt = s.dev.cnt) ∧
        EntriesKept s.dev.shared d.shared [k.val] ∧ d = { s.dev with shared := d.shared, cnt := d.cnt })) ∧
    RunsTo .rngHealthFail s (fun d => d.rngGood = false ∧ StatusKept s.dev d [(Fields.KEY_CTRL_rng_fail, 0)] ∧ d = { s.dev with sts := d.sts })

/-- R424: the running key-engine command ends: its status is shown, the engine is no longer busy, and an ERASE has emptied its slot and no other. -/
def Obligations.KeyCommandEnds : Prop :=
  ∀ (kc : KeyCmd) (s : State), s.dev.keyCmd = some kc →
    ∃ t, exec .keyCommandDone s = .next t ∧ t.pending = s.pending ∧ t.dev.keyCmd = none ∧ t.dev.flag Fields.KEY_CMD_STAT_busy 0 = false ∧
      (kc.op = 3 → t.cfg = s.cfg ∧ t.dev.get Fields.KEY_CMD_STAT_status 0 = 0 ∧ t.dev.slots.get? kc.target = none ∧
        EntriesKept s.dev.slots t.dev.slots [kc.target])

/-- R228, R231, R237, R238 and R240 on a compatibility grove: a message whose integrity check does not hold is counted and no more; an unsupported PLOAM message, a
Registration and an Acknowledge are counted; a data key that unwraps is written to its slot, and the first one puts the stand's keys in place; an OMCI message joins the
receive queue; at the named superframe the data key of a stand that stays ACTIVE changes, and is counted, while the switch of one that is not ACTIVE, or leaves ACTIVE with its grove at the edge, lapses and its slot
is released. -/
def Rules.CompatKeysAndMessages : Prop :=
  ∀ (i : Fin 16384) (g : Fin 64) (x : Fin 4) (ty w mic : Nat) (ack : Bool) (bytes : List Byte) (s : State),
    (compat s.cfg g = true →
      RunsTo (.ploamUnsupported g ty) s (fun d => CountedOnly s.dev d [(.grove, .ploamUnsupported, g)] ∧ d = { s.dev with cnt := d.cnt })) ∧
    (compat s.cfg (groveOf i) = true → s.dev.st i = .active →
      (mic = ploamCheck s.dev i (if ack then upAcknowledge else upRegistration) [] →
        RunsTo (.ploamRegistrationRx i ack mic) s (fun d => CountedOnly s.dev d [(.grove, .ploamRx, groveOf i)] ∧ (ack = true → d.groves = s.dev.groves) ∧
          d = { s.dev with cnt := d.cnt, groves := d.groves })) ∧
      (mic ≠ ploamCheck s.dev i (if ack then upAcknowledge else upRegistration) [] →
        RunsTo (.ploamRegistrationRx i ack mic) s (fun d => CountedOnly s.dev d [(.grove, .ploamMicFail, groveOf i)] ∧ d = { s.dev with cnt := d.cnt })) ∧
      (mic ≠ ploamCheck s.dev i upKeyReport [x, w] →
        RunsTo (.keyReport i x w mic) s (fun d => CountedOnly s.dev d [(.grove, .ploamMicFail, groveOf i)] ∧ d = { s.dev with cnt := d.cnt })) ∧
      (mic = ploamCheck s.dev i upKeyReport [x, w] → RunsTo (.keyReport i x w mic) s (fun d => CountedOnly s.dev d [(.grove, .ploamRx, groveOf i)] ∧
        (∀ v, Config.keyUnwrap (compatKek s.dev i) w = some v → d.slots.get? (dataSlot i x) = some v ∧
          ((s.dev.keysOf i).dataKey = none → (d.keysOf i).dataKey = some x.val ∧ (d.keysOf i).ready = true)) ∧
        EntriesKept s.dev.keys d.keys [i.val] ∧ EntriesKept s.dev.slots d.slots [dataSlot i x] ∧
        d = { s.dev with cnt := d.cnt, slots := d.slots, slotMeta := d.slotMeta, keys := d.keys, groves := d.groves })) ∧
      ((s.dev.grove (groveOf i)).omciRx.length < 16 →
        mic = omciCheck s.dev i bytes →
        RunsTo (.omciRx i bytes mic) s (fun d => (d.grove (groveOf i)).omciRx = (s.dev.grove (groveOf i)).omciRx ++ [{ stand := inGrove i, bytes := bytes.take 2048 }] ∧
          CountedOnly s.dev d [(.grove, .omciRx, groveOf i)] ∧ EntriesKept s.dev.groves d.groves [groveOf i] ∧ d = { s.dev with groves := d.groves, cnt := d.cnt })) ∧
      (∀ k e, (s.dev.keysOf i).nextKey = some (k, e) → e ≤ s.dev.sfc → silenceDue s.cfg s.dev i = false → gaspDue s.dev i = false →
        s.dev.expired .lost i (s.cfg.get Fields.GRV_STD_CTRL_lost_ticks (groveOf i)) = false → groveLeaves s.cfg s.dev (groveOf i) = false →
        RunsTo (.compatKeySwitch i) s (fun d => (d.keysOf i).dataKey = some k ∧ (d.keysOf i).nextKey = none ∧
          CountedOnly s.dev d [(.grove, .keySwitches, groveOf i)] ∧ EntriesKept s.dev.keys d.keys [i.val] ∧ d = { s.dev with keys := d.keys, cnt := d.cnt }))) ∧
    (∀ k e, (s.dev.keysOf i).nextKey = some (k, e) → e ≤ s.dev.sfc → (s.dev.st i ≠ .active ∨ groveLeaves s.cfg s.dev (groveOf i) = true) →
      RunsTo (.compatKeySwitch i) s (fun d => (d.keysOf i).dataKey = (s.dev.keysOf i).dataKey ∧ (d.keysOf i).nextKey = none ∧
        d.slots.get? (dataSlot i k) = none ∧ EntriesKept s.dev.slots d.slots [dataSlot i k] ∧ EntriesKept s.dev.keys d.keys [i.val] ∧
        d = { s.dev with keys := d.keys, slots := d.slots, slotMeta := d.slotMeta, ceil := d.ceil }))

/-- R410: retire_ticks after an agreement the former epoch and its slot are erased; R423: the keys of a deregistered stand go once its message has been placed; R412: a
shared key's new epoch is in use from its switch edge, the former one, where there is one, kept until its erasure edge. R397: a failed health test of the random source
stands. R228, R231, R237, R238 and R240 on a compatibility grove: a message whose integrity check does not hold is counted and no more; an unsupported PLOAM message, a
Registration and an Acknowledge are counted; a data key that unwraps is written to its slot, and the first one puts the stand's keys in place; an OMCI message joins the
receive queue; at the named superframe the data key of a stand that stays ACTIVE changes, and is counted, while the switch of one that is not ACTIVE, or leaves ACTIVE
with its grove at the edge, lapses and its slot is released. -/
def Obligations.KeySwitches : Prop := Rules.KeysRetire ∧ Rules.CompatKeysAndMessages

/-! ### Buffers, tiers and shadow rings (R340 to R359) -/

/-- R342: a free under the generation of an allocated buffer frees it and no other, its ring entry counted against the deep tier's budget where the ring lies there (R347); a stale free frees nothing, is counted and records its buffer, pool, tier,
generation and source. The hold tier allocates no buffers, so that every free of one is stale there. -/
def Rules.BufferFrees : Prop :=
  ∀ (t : Fin 3) (p : Fin 4) (b gen : Nat) (src : Fin 64) (s : State),
    ((s.dev.buf t p b).alloc = true → (s.dev.buf t p b).gen = gen →
      RunsTo (.bufferFree t p b gen src) s (fun d => d.buf t p b = { alloc := false, gen := gen } ∧ EntriesKept s.dev.bufs d.bufs [bufKey t p b] ∧
        d = ({ s.dev with bufs := d.bufs } : Dev).ringTraffic t usedDeepWrite)) ∧
    (¬ ((s.dev.buf t p b).alloc = true ∧ (s.dev.buf t p b).gen = gen) →
      RunsTo (.bufferFree t p b gen src) s (fun d => CountedOnly s.dev d [(.device, .doubleFree, t)] ∧
        d.get Fields.BUF_DFREE_CAP_tier 0 = t ∧ d.get Fields.BUF_DFREE_CAP_source 0 = src ∧ d.get Fields.BUF_DFREE_CAP1_pool 0 = p ∧
        (d.get Fields.INT_DEV_CAUSE_dfree 0).testBit t = true ∧ d.bufs = s.dev.bufs ∧ d = { s.dev with sts := d.sts, cnt := d.cnt }))

/-- R340: a cache below half its bound takes free buffers from the ring behind those it has, up to its bound or until the ring has none, or
until the read budget of the tick takes no more ring entries (R347). -/
def Rules.CacheRefills : Prop :=
  ∀ (t : Fin 2) (r : Fin 33) (p : Fin 4) (s : State), (s.dev.cache t p r).length < cacheCap s.cfg t p / 2 → (t.val = 0 ∨ r.val = 32) →
    RunsTo (.cacheRefill t r p) s (fun d => (∃ more, d.cache t p r = s.dev.cache t p r ++ more) ∧ (d.cache t p r).length ≤ cacheCap s.cfg t p ∧
      ((d.cache t p r).length = cacheCap s.cfg t p ∨ ringNext s.cfg d t p = none ∨ deepBudget < d.usedOf usedDeepRead + d.ringCost t) ∧ EntriesKept s.dev.caches d.caches [cacheKey t p r] ∧
      d = { s.dev with caches := d.caches, used := d.used })

/-- R342: a free under the generation of an allocated buffer frees it and no other, its ring entry counted against the deep tier's budget where the ring lies there
(R347); a stale free frees nothing, is counted and records its buffer, pool, tier, generation and source. The hold tier allocates no buffers, so that every free of one is
stale there. R340: a cache below half its bound takes free buffers from the ring behind those it has, up to its bound or until the ring has none, or until the read budget
of the tick takes no more ring entries (R347). -/
def Obligations.BufferPools : Prop := Rules.BufferFrees ∧ Rules.CacheRefills

/-- R344 to R347: where it is a queue's turn to spill within its bounds and the write budget, and a deep buffer allows it, the packet that the rule names is the last of the
deep segment, its lines lie encrypted in the HBM2E (R349), and its bytes are counted; a packet returns from the front of the deep segment to the back of the head, and its bytes are counted, where the budgets admit its bytes and its ring entries. R341: a spill that finds the
deep ring of its pool empty does not happen, and counts as a stall. -/
def Rules.SpillAndReturn : Prop :=
  ∀ (q : Fin 524800) (p : QPkt) (s : State),
    (∀ x b gen d', spillNow s.cfg s.dev q = some (p, x) → spillTurn s.cfg s.dev = some q.val →
      takeFrom s.cfg 1 (poolFor p.bytes.length) srcPlacement { s.dev with spillPtr := q + 1 } = some (b, gen, d') →
      RunsTo (.spillMove q) s (fun d => d.queue q = { x with deep := x.deep ++ [p.at (poolFor p.bytes.length) b gen] } ∧
        s.dev.usedOf usedDeepWrite + p.bytes.length ≤ d.usedOf usedDeepWrite ∧ d.spillPtr = q + 1 ∧
        (∀ k < lineSpan p.bytes.length / 256, d.hbm.get? (deepAddr s.cfg (poolFor p.bytes.length) b + 256 * k) =
          some (tierCipher s.dev 0 (deepAddr s.cfg (poolFor p.bytes.length) b + 256 * k) (padTo 256 (p.bytes.drop (256 * k))))) ∧ Counted s.dev d .device .spillBytes 0 p.bytes.length ∧
        EntriesKept s.dev.queues d.queues [q.val] ∧
        d = { s.dev with sts := d.sts, cnt := d.cnt, hits := d.hits, bufs := d.bufs, caches := d.caches, queues := d.queues, used := d.used
                         spillPtr := d.spillPtr, hbm := d.hbm })) ∧
    (∀ x, spillNow s.cfg s.dev q = some (p, x) → spillTurn s.cfg s.dev = some q.val →
      takeFrom s.cfg 1 (poolFor p.bytes.length) srcPlacement { s.dev with spillPtr := q + 1 } = none →
      RunsTo (.spillMove q) s (fun d => CountedOnly s.dev d [(.device, .moveStall, poolFor p.bytes.length)] ∧ d.queues = s.dev.queues ∧
        d.usedOf (16 + poolFor p.bytes.length) = 1 ∧ d = { s.dev with cnt := d.cnt, used := d.used, spillPtr := q + 1 })) ∧
    (∀ rest pool b gen d', (s.dev.queue q).deep = p :: rest → s.dev.deepState = 1 → bytesOf (s.dev.queue q).head < keepOf s.cfg q →
      returnBuf s.cfg s.dev p = some ((pool, b, gen), d') →
      RunsTo (.returnMove q) s (fun d => d.queue q = { s.dev.queue q with head := (s.dev.queue q).head ++ [p.at pool b gen], deep := rest }.join ∧
        Counted s.dev d .device .returnBytes 0 p.bytes.length ∧ EntriesKept s.dev.queues d.queues [q.val] ∧
        d = { s.dev with sts := d.sts, cnt := d.cnt, bufs := d.bufs, caches := d.caches, queues := d.queues, used := d.used }))

/-- R353: the first packet of a resting stand's queue that waits for the hold tier is written to it at its stand's turn within the budget, and counted; R354: one that
finds no free sector is dropped and counted; a packet leaves the near tier once every sector that it lies in has been written; a partly filled sector whose oldest byte has waited 8 ticks is written, encrypted under its number (R355), and closed; R356: a
packet that has not moved joins the head as it lies when its stand's turn to return comes, and one that has moved is read into a near buffer within the budget, and counted. -/
def Rules.HoldMoves : Prop :=
  ∀ (q : Fin 524288) (i : Fin 16384) (p : QPkt) (s : State),
    (standOfQueue s.cfg q = some i.val → (s.dev.queue q).waits = some p → s.dev.holdUp = true → holdTurn s.cfg s.dev = some i.val →
      s.dev.usedOf usedHoldWrite + p.bytes.length ≤ holdBudget →
      ((takeSectors s.cfg i ((packHeld (s.dev.holdOf i) s.dev.sfc p).1.sec1 + 1 - (s.dev.holdOf i).next) (s.dev.holdOf i).next
        { s.dev with holdPtr := i }).isSome = true →
      RunsTo (.holdWrite q) s (fun d => d.outbox = .hold i p.bytes.length :: s.dev.outbox ∧ (d.queue q).head = (s.dev.queue q).head ∧
        (∀ y ∈ (d.queue q).held, y.uid = p.uid → y.packed = true) ∧ Counted s.dev d .device .holdWriteBytes 0 p.bytes.length ∧
        (∀ k ∈ queuesOf s.cfg i, ∀ y ∈ (d.queue k).held, y.packed = true → y.sec1 < (d.holdOf i).next → y.moved = true) ∧
        EntriesKept s.dev.queues d.queues (q.val :: queuesOf s.cfg i) ∧ EntriesKept s.dev.hold d.hold [i.val] ∧
        d = { s.dev with sts := d.sts, cnt := d.cnt, bufs := d.bufs, queues := d.queues, used := d.used, hold := d.hold, outbox := d.outbox
                         heldAt := d.heldAt, holdPtr := d.holdPtr, cxl := d.cxl })) ∧
      ((takeSectors s.cfg i ((packHeld (s.dev.holdOf i) s.dev.sfc p).1.sec1 + 1 - (s.dev.holdOf i).next) (s.dev.holdOf i).next
        { s.dev with holdPtr := i }).isSome = false →
      RunsTo (.holdWrite q) s (fun d => (∀ y ∈ (d.queue q).held, y.uid ≠ p.uid) ∧ Counted s.dev d .stand .holdFull i 1 ∧
        EntriesKept s.dev.queues d.queues [q.val] ∧
        d = { s.dev with sts := d.sts, cnt := d.cnt, bufs := d.bufs, queues := d.queues, used := d.used }))) ∧
    ((s.dev.holdOf i).fill ≠ 0 → (s.dev.holdOf i).oldest + 8 ≤ s.dev.sfc →
      RunsTo (.sectorFlush i) s (fun d => d.holdOf i = { next := (s.dev.holdOf i).next + 1, fill := 0, oldest := s.dev.sfc, part := [] } ∧
        d.cxl.get? (s.dev.heldAt.getD (heldKey i (s.dev.holdOf i).next) 0) =
          some (tierCipher s.dev 1 (s.dev.heldAt.getD (heldKey i (s.dev.holdOf i).next) 0) (padTo 4096 (s.dev.holdOf i).part)) ∧
        (∀ k ∈ queuesOf s.cfg i, ∀ y ∈ (d.queue k).held, y.packed = true → y.sec1 < (d.holdOf i).next → y.moved = true) ∧
        EntriesKept s.dev.queues d.queues (queuesOf s.cfg i) ∧ EntriesKept s.dev.hold d.hold [i.val] ∧
        d = { s.dev with sts := d.sts, cnt := d.cnt, bufs := d.bufs, queues := d.queues, used := d.used, hold := d.hold, cxl := d.cxl })) ∧
    (∀ k rest pool b gen d', returnTurn s.cfg s.dev = some i.val → returnQueue s.cfg s.dev i = some k → (s.dev.queue k).held = p :: rest → p.moved = true →
      s.dev.usedOf usedHoldRead + p.bytes.length ≤ holdBudget →
      takeBuf s.cfg 0 srcPlacement (poolsFrom p.bytes.length) s.dev = (some (pool, b, gen), d') →
      RunsTo (.holdReturn i false) s (fun d =>
        d.queue k = { s.dev.queue k with head := (s.dev.queue k).head ++ [(p.at pool b gen).unpacked], held := rest }.join ∧
        Counted s.dev d .device .holdReadBytes 0 p.bytes.length ∧ EntriesKept s.dev.queues d.queues [k] ∧
        d = { s.dev with cnt := d.cnt, bufs := d.bufs, caches := d.caches, queues := d.queues, used := d.used, hold := d.hold, heldAt := d.heldAt })) ∧
    (∀ k rest, returnTurn s.cfg s.dev = some i.val → returnQueue s.cfg s.dev i = some k → (s.dev.queue k).held = p :: rest → p.moved = false →
      RunsTo (.holdReturn i false) s (fun d => d.queue k = { s.dev.queue k with head := (s.dev.queue k).head ++ [p.unpacked], held := rest }.join ∧
        EntriesKept s.dev.queues d.queues [k] ∧ d = { s.dev with queues := d.queues, hold := d.hold, heldAt := d.heldAt }))

/-- R357: a port in use that leaves takes the hold tier down, and with the next edge what it held is gone; a port that returns is up, and at the edge that finds every port
of the set up the tier is up again, empty and under fresh keys (R413). R359: a
failed training leaves the deep tier UNTRAINED and is counted, a successful one waits for the edge; a tier that is being withdrawn and holds nothing is withdrawn. -/
def Obligations.TierStates : Prop :=
  ∀ (port : Fin 2) (s : State),
    (s.dev.holdPorts.testBit port = true → s.dev.holdUp = true →
      RunsTo (.holdTierDown port) s (fun d => d.holdUp = false ∧ d.holdFell = true ∧
        StatusKept s.dev d [(Fields.LANE_CXL_STATUS_up, port), (Fields.INT_LINK_CAUSE2_other, 0)] ∧
        d = { s.dev with sts := d.sts, holdFell := true })) ∧
    (s.dev.holdFell = true → holdPortsUp s.dev = false →
      (holdEdge s.cfg s.dev).hold = [] ∧ (holdEdge s.cfg s.dev).heldAt = [] ∧ (holdEdge s.cfg s.dev).replay = [] ∧
        (holdEdge s.cfg s.dev).holdFell = false ∧ (holdEdge s.cfg s.dev).flag Fields.BUF_HOLD_STATUS_hold_down 0 = true) ∧
    RunsTo (.holdTierUp port) s (fun d => d.flag Fields.LANE_CXL_STATUS_up port = true ∧
      StatusKept s.dev d [(Fields.LANE_CXL_STATUS_up, port), (Fields.INT_LINK_CAUSE2_other, 0)] ∧ d = { s.dev with sts := d.sts }) ∧
    (s.dev.holdFell = false → holdPortsUp s.dev = true → s.dev.flag Fields.BUF_HOLD_STATUS_hold_down 0 = true → s.dev.rngGood = true →
      (holdEdge s.cfg s.dev).holdUp = true ∧ (holdEdge s.cfg s.dev).hold = [] ∧ (holdEdge s.cfg s.dev).replay = [] ∧
        ((holdEdge s.cfg s.dev).tierKeys.get? 1).isSome = true) ∧
    (s.dev.training = true →
      RunsTo (.hbmTrainDone true) s (fun d => d = { s.dev with training := false, trained := true }) ∧
      RunsTo (.hbmTrainDone false) s (fun d => d.deepState = 0 ∧ d.training = false ∧ CountedOnly s.dev d [(.device, .trainFail, 0)] ∧
        StatusKept s.dev d [(Fields.BUF_DEEP_STATUS_state, 0)] ∧ d = { s.dev with sts := d.sts, cnt := d.cnt, training := false })) ∧
    (s.dev.deepState = 2 → deepEmpty s.dev = true →
      RunsTo .deepWithdrawn s (fun d => d.deepState = 3 ∧ d.flag Fields.BUF_DEEP_STATUS_rings_on_die 0 = true ∧
        StatusKept s.dev d [(Fields.BUF_DEEP_STATUS_state, 0), (Fields.BUF_DEEP_STATUS_rings_on_die, 0)] ∧ d = { s.dev with sts := d.sts }))

/-- R358 and R359: an uncorrectable error of the near or the deep tier discards the packet that it hit and is counted, a near one for the pipeline or the grove that
read it too; one of a shadow ring discards the entry. An error of the deep tier counts toward the window. -/
def Rules.MemoryErrors : Prop :=
  ∀ (q : Fin 524800) (uid : Nat) (r : UeReader) (g : Fin 64) (n : Nat) (s : State),
    (((s.dev.queue q).head ++ (s.dev.queue q).tail ++ (s.dev.queue q).held.filter (fun p => !p.moved)).any (fun p => p.uid == uid) = true →
      RunsTo (.nearUe q ⟨uid, r⟩) s (fun d =>
        ((d.queue q).head ++ (d.queue q).tail ++ (d.queue q).held.filter (fun p => !p.moved)).any (fun p => p.uid == uid) = false ∧
        Counted s.dev d .device .nearUe 0 1 ∧ (∀ k, r = .pipeline k → Counted s.dev d .device .nearUe (1 + k) 1) ∧
        (∀ k, r = .grove k → Counted s.dev d .grove .nearUe k 1) ∧ EntriesKept s.dev.queues d.queues [q.val] ∧
        d = { s.dev with sts := d.sts, cnt := d.cnt, bufs := d.bufs, queues := d.queues, used := d.used })) ∧
    ((s.dev.queue q).deep.any (fun p => p.uid == uid) = true →
      RunsTo (.deepUe (.queue q) uid) s (fun d => (d.queue q).deep.any (fun p => p.uid == uid) = false ∧ Counted s.dev d .device .deepUe 0 1 ∧
        d.run .window 0 = s.dev.run .window 0 + 1 ∧ EntriesKept s.dev.queues d.queues [q.val] ∧
        d = { s.dev with sts := d.sts, cnt := d.cnt, bufs := d.bufs, queues := d.queues, runs := d.runs, used := d.used })) ∧
    (n < (s.dev.shadow.getD g []).length →
      RunsTo (.deepUe (.shadow g) n) s (fun d => d.shadow.getD g [] = (s.dev.shadow.getD g []).eraseIdx n ∧ d.run .window 0 = s.dev.run .window 0 + 1 ∧
        CountedOnly s.dev d [(.device, .deepUe, 0)] ∧ EntriesKept s.dev.shadow d.shadow [g.val] ∧
        d = { s.dev with cnt := d.cnt, shadow := d.shadow, runs := d.runs }))

/-- R344 to R347: where it is a queue's turn to spill within its bounds and the write budget, and a deep buffer allows it, the packet that the rule names is the last of
the deep segment, its lines lie encrypted in the HBM2E (R349), and its bytes are counted; a packet returns from the front of the deep segment to the back of the head, and
its bytes are counted, where the budgets admit its bytes and its ring entries. R341: a spill that finds the deep ring of its pool empty does not happen, and counts as a
stall. R358 and R359: an uncorrectable error of the near or the deep tier discards the packet that it hit and is counted, a near one for the pipeline or the grove that
read it too; one of a shadow ring discards the entry. An error of the deep tier counts toward the window. -/
def Obligations.TierMoves : Prop := Rules.SpillAndReturn ∧ Rules.MemoryErrors

/-- R350: a standby's shadowed packet that fits leaves its queue for the end of its grove's ring, a multicast packet for that of each grove that it is for, behind the entries not yet released; entries admitted 8 ticks ago are released from ring and replay area;
R351: the oldest entry of a ring without room for a packet that waits for it moves to the end of the replay area. -/
def Rules.ShadowMoves : Prop :=
  ∀ (q : Fin 524288) (g : Fin 64) (p : QPkt) (rest : List QPkt) (e : ShadowEnt) (es : List ShadowEnt) (s : State),
    ((s.dev.queue q).head = p :: rest → s.dev.isStandby = true → s.cfg.flag Fields.BUF_Q_CFG_shadow_en q = true → s.dev.deepState = 1 →
      shadowGroves s.cfg s.dev q p.uid ≠ [] →
      s.dev.usedOf usedDeepWrite + (shadowGroves s.cfg s.dev q p.uid).length * p.bytes.length + s.dev.ringCost 0 ≤ deepBudget →
      (∀ k ∈ shadowGroves s.cfg s.dev q p.uid,
        shadowBytes ((s.dev.shadow.getD k []).filter (fun x => decide (s.dev.sfc < x.tick + 8))) + lineSpan p.bytes.length ≤ shadowRing) →
      RunsTo (.shadowMove q) s (fun d =>
        (∀ k ∈ shadowGroves s.cfg s.dev q p.uid, ∃ a, d.shadow.getD k [] =
          (s.dev.shadow.getD k []).filter (fun x => decide (s.dev.sfc < x.tick + 8)) ++ [{ queue := q, bytes := p.bytes, tick := p.tick, addr := a }]) ∧
        d.queue q = { s.dev.queue q with head := rest } ∧ EntriesKept s.dev.queues d.queues [q.val] ∧
        EntriesKept s.dev.shadow d.shadow (shadowGroves s.cfg s.dev q p.uid) ∧ (q.val / 8 < mcBase → d.reps = s.dev.reps) ∧
        d = { s.dev with sts := d.sts, cnt := d.cnt, bufs := d.bufs, queues := d.queues, used := d.used, shadow := d.shadow, replay := d.replay
                         hbm := d.hbm, reps := d.reps })) ∧
    RunsTo (.shadowRelease g) s (fun d =>
      d.shadow.getD g [] = (s.dev.shadow.getD g []).filter (fun x => decide (s.dev.sfc < x.tick + 8)) ∧
      d.replay.getD g [] = (s.dev.replay.getD g []).filter (fun x => decide (s.dev.sfc < x.tick + 8)) ∧
      EntriesKept s.dev.shadow d.shadow [g.val] ∧ EntriesKept s.dev.replay d.replay [g.val] ∧ d = { s.dev with shadow := d.shadow, replay := d.replay }) ∧
    (s.dev.shadow.getD g [] = e :: es → (∀ x ∈ e :: es ++ s.dev.replay.getD g [], s.dev.sfc < x.tick + 8) → replayOk s.cfg s.dev = true →
      ringWaited s.cfg s.dev g = true → (s.dev.isStandby = true ∨ s.dev.replayWait.getD g [] = []) →
      areaBytes (s.dev.replay.getD g []) + areaBytes [e] ≤ s.cfg.get Fields.BUF_HOLD_CTRL_replay_mib 0 * 2 ^ 20 →
      s.dev.usedOf usedHoldWrite + e.bytes.length ≤ holdBudget →
      RunsTo (.replayMove g) s (fun d => d.shadow.getD g [] = es ∧ (∃ a, d.replay.getD g [] = s.dev.replay.getD g [] ++ [{ e with addr := a }]) ∧
        d = { s.dev with shadow := d.shadow, replay := d.replay, used := d.used, cxl := d.cxl }))

/-- R353: the first packet of a resting stand's queue that waits for the hold tier is written to it at its stand's turn within the budget, and counted; R354: one that
finds no free sector is dropped and counted; a packet leaves the near tier once every sector that it lies in has been written; a partly filled sector whose oldest byte
has waited 8 ticks is written, encrypted under its number (R355), and closed; R356: a packet that has not moved joins the head as it lies when its stand's turn to return
comes, and one that has moved is read into a near buffer within the budget, and counted. R350: a standby's shadowed packet that fits leaves its queue for the end of its
grove's ring, a multicast packet for that of each grove that it is for, behind the entries not yet released; entries admitted 8 ticks ago are released from ring and
replay area; R351: the oldest entry of a ring without room for a packet that waits for it moves to the end of the replay area. -/
def Obligations.HoldAndShadow : Prop := Rules.HoldMoves ∧ Rules.ShadowMoves

/-! ### Hard slices, protection and flows (R126 to R132, R256 to R268) -/

/-- R258, R259: the highest defect of an enabled upstream slice is the one shown: Grove LOS, then a stand that is not ACTIVE, then LOD after two missed slice twigs, then
slice AIS after three received frames with AIS set; a newly shown defect is counted once and raises the slice's interrupt. Only the slice's record, the protection groups
that name the slice and their timers change beside. -/
def Obligations.SliceDefects : Prop :=
  ∀ (n : Fin 2048) (s : State), s.cfg.flag Fields.SLC_SL_CTRL_en n = true → sliceUp s.cfg n = true →
    RunsTo (.sliceDefectChange n) s (fun d =>
      (2 ≤ s.dev.run .los (sliceGrove s.cfg n) → (d.slice n).shown = 16) ∧
      (s.dev.run .los (sliceGrove s.cfg n) < 2 →
        (s.dev.st (sliceStand s.cfg n) ≠ .active → (d.slice n).shown = 8) ∧
        (s.dev.st (sliceStand s.cfg n) = .active →
          (2 ≤ (s.dev.slice n).lodMiss → (d.slice n).shown = 4) ∧
          ((s.dev.slice n).lodMiss < 2 → 2 ≤ (s.dev.slice n).lodGood → 3 ≤ (s.dev.slice n).aisSet → (d.slice n).shown = 2))) ∧
      ((d.slice n).shown ≠ 0 → (d.slice n).shown ≠ (s.dev.slice n).shown →
        Counted s.dev d .slice (defectCtr (d.slice n).shown) n 1 ∧ (d.get Fields.INT_SLC_CAUSE_slices (n / 32)).testBit (n % 32) = true) ∧
      (∀ p, pgWorking s.cfg p ≠ n → pgProtect s.cfg p ≠ n → d.pgs.get? p = s.dev.pgs.get? p) ∧
      StatusKept s.dev d [(Fields.INT_SLC_CAUSE_slices, n / 32)] ∧ EntriesKept s.dev.slices d.slices [n.val] ∧
      d = { s.dev with sts := d.sts, cnt := d.cnt, slices := d.slices, pgs := d.pgs, timers := d.timers })

/-- R262, R263: the request in force of a protection group is the highest of its standing command, the working slice's defect and a running WAIT_TO_RESTORE, and of the far
end's request where bidir is set; the selector takes the slice that the table names. Behind everything else of the edge the group is judged once more, and a selection other
than that of the edge before is counted. -/
def Rules.ProtectionSelects : Prop :=
  ∀ (p : Fin 1024) (s : State),
    RunsTo (.pgFarRequest p) s (fun d =>
      (s.cfg.flag Fields.SLC_PG_CTRL_bidir p = false → (d.pg p).req = max (s.dev.pg p).standing
        (max (defectReq s.dev (pgWorking s.cfg p)) (if (s.dev.pg p).wtr then 0x5 else 0))) ∧
      (s.cfg.flag Fields.SLC_PG_CTRL_bidir p = true → (d.pg p).req = max (max (s.dev.pg p).standing
        (max (defectReq s.dev (pgWorking s.cfg p)) (if (s.dev.pg p).wtr then 0x5 else 0))) (s.dev.pg p).farReq) ∧
      ((d.pg p).req = 0xF ∨ (d.pg p).req = 0x0 → (d.pg p).selected = false) ∧
      ((d.pg p).req = 0xD ∨ (d.pg p).req = 0x5 → (d.pg p).selected = true) ∧
      ((d.pg p).req = 0xB → (d.pg p).selected = decide (defectReq s.dev (pgProtect s.cfg p) ≠ 0xB)) ∧
      ((d.pg p).req = 0x9 ∨ (d.pg p).req = 0x7 → (d.pg p).selected = decide (defectReq s.dev (pgProtect s.cfg p) = 0)) ∧
      (d.pg p).prev = (s.dev.pg p).prev ∧
      EntriesKept s.dev.pgs d.pgs [p.val] ∧ d = { s.dev with pgs := d.pgs }) ∧
    (pgClose s.cfg p s.dev).pgs = (pgSelect s.cfg p s.dev).pgs ∧
    (((pgClose s.cfg p s.dev).pg p).selected ≠ (s.dev.pg p).prev → CountedOnly s.dev (pgClose s.cfg p s.dev) [(.pgroup, .pgSwitches, p)]) ∧
    (((pgClose s.cfg p s.dev).pg p).selected = (s.dev.pg p).prev → (pgClose s.cfg p s.dev).cnt = s.dev.cnt)

/-- R264: when the WAIT_TO_RESTORE timer of a group expires, the timer is disarmed and the request is judged without it; with nothing else standing the group is back on
its working slice. -/
def Rules.WaitToRestoreEnds : Prop :=
  ∀ (p : Fin 1024) (s : State), (s.dev.pg p).wtr = true → s.dev.expired .wtr p (s.cfg.get Fields.SLC_PG_WTR_wtr_ticks p) = true →
    RunsTo (.wtrExpiry p) s (fun d => (d.pg p).wtr = false ∧ d.armed .wtr p = false ∧
      ((s.dev.pg p).standing = 0 → defectReq s.dev (pgWorking s.cfg p) = 0 → s.cfg.flag Fields.SLC_PG_CTRL_bidir p = false →
        (d.pg p).req = 0 ∧ (d.pg p).selected = false) ∧
      EntriesKept s.dev.pgs d.pgs [p.val] ∧ EntriesKept s.dev.timers d.timers [timerKey .wtr p] ∧
      d = { s.dev with pgs := d.pgs, timers := d.timers })

/-- R262, R263: the request in force of a protection group is the highest of its standing command, the working slice's defect and a running WAIT_TO_RESTORE, and of the
far end's request where bidir is set; the selector takes the slice that the table names. Behind everything else of the edge the group is judged once more, and a selection
other than that of the edge before is counted. R264: when the WAIT_TO_RESTORE timer of a group expires, the timer is disarmed and the request is judged without it; with
nothing else standing the group is back on its working slice. -/
def Obligations.ProtectionGroups : Prop := Rules.ProtectionSelects ∧ Rules.WaitToRestoreEnds

/-- R268: the first packet accepted while a flow is unlocked locks it, and its bytes wait for the frame dj_ticks ahead; it is counted. R268: after 8 consecutive late frames
or overflows the flow unlocks and the slip is counted. -/
def Obligations.FlowLocksAndSlips : Prop :=
  ∀ (f : Fin 256) (seq : Nat) (bs : List Byte) (s : State),
    (s.cfg.flag Fields.SLC_FL_CTRL_en f = true → flowDests s.cfg f ≠ [] → (s.dev.flow f).locked = false → (s.dev.flow f).buf = [] →
      2 ≤ s.cfg.get Fields.SLC_FL_PKT_dj_ticks f → s.cfg.get Fields.SLC_FL_PKT_dj_ticks f ≤ 16 →
      RunsTo (.flowPacketRx f seq bs) s (fun d => (d.flow f).locked = true ∧
        ((d.flow f).delta + seq / 256) % 2 ^ 24 = (s.dev.sfc + s.cfg.get Fields.SLC_FL_PKT_dj_ticks f) % 2 ^ 24 ∧
        (d.flow f).buf = [{ frame := s.dev.sfc + s.cfg.get Fields.SLC_FL_PKT_dj_ticks f, pkts := [(seq % 256, bs)] }] ∧
        CountedOnly s.dev d [(.flow, .pktsRx, f)] ∧ EntriesKept s.dev.flows d.flows [f.val] ∧
        StatusKept s.dev d [(Fields.TIME_FL_RX_FRAME_frame, f), (Fields.TIME_FL_RX_SEC_sec, f), (Fields.TIME_FL_RX_NS_ns, f)] ∧
        d = { s.dev with sts := d.sts, cnt := d.cnt, flows := d.flows })) ∧
    (8 ≤ (s.dev.flow f).lateRun ∨ 8 ≤ (s.dev.flow f).ovfRun →
      RunsTo (.djSlip f) s (fun d => (d.flow f).locked = false ∧ (d.flow f).buf = [] ∧ CountedOnly s.dev d [(.flow, .djSlip, f)] ∧
        EntriesKept s.dev.flows d.flows [f.val] ∧ d = { s.dev with cnt := d.cnt, flows := d.flows }))

/-- R126, R128 to R131: a clearing that the schedule or a forced start puts at the frame whose map is next begins there when its window fits and its announcement has a
place; it is announced and counted. Otherwise it is skipped and that is counted. -/
def Obligations.ClearingBegins : Prop :=
  ∀ (g : Fin 64) (s : State), compat s.cfg g = false → (s.dev.grove g).inService = true →
    (s.dev.sfc + 1 ∈ (s.dev.grove g).clearAt ∨ s.cfg.flag Fields.GRV_CLEARING_CTRL_clr_en g = true ∧
      (s.dev.sfc + 1) % clrInterval s.cfg s.dev g = g * (clrInterval s.cfg s.dev g / 64)) →
    (s.dev.grove g).clrSeen ≠ some (s.dev.sfc + 1) → clearingAt s.dev g (s.dev.sfc + 1) = none →
    (discStart (sliceTwigs s.cfg g) + 19270 + 4000 * s.cfg.get Fields.GRV_CLEARING_CTRL_diff_km g ≤ 50000 * s.cfg.get Fields.GRV_CLEARING_CTRL_clr_len g ∧
        0 < s.cfg.get Fields.GRV_DS_CTRL_msg_max g →
      RunsTo (.clearing g) s (fun d =>
        (∃ x, (d.grove g).clearings = x :: (s.dev.grove g).clearings ∧ x.frame = s.dev.sfc + 1 ∧ x.len = s.cfg.get Fields.GRV_CLEARING_CTRL_clr_len g ∧
          x.s0 = discStart (sliceTwigs s.cfg g) ∧ x.diffKm = s.cfg.get Fields.GRV_CLEARING_CTRL_diff_km g ∧ x.tloop = tLoop s.dev g ∧ x.answers = 0) ∧
        (d.grove g).announce.isSome = true ∧ CountedOnly s.dev d [(.grove, .clearings, g)] ∧ EntriesKept s.dev.groves d.groves [g.val] ∧
        d = { s.dev with cnt := d.cnt, groves := d.groves })) ∧
    (¬ (discStart (sliceTwigs s.cfg g) + 19270 + 4000 * s.cfg.get Fields.GRV_CLEARING_CTRL_diff_km g ≤ 50000 * s.cfg.get Fields.GRV_CLEARING_CTRL_clr_len g ∧
        0 < s.cfg.get Fields.GRV_DS_CTRL_msg_max g) →
      RunsTo (.clearing g) s (fun d => (d.grove g).clearings = (s.dev.grove g).clearings ∧ CountedOnly s.dev d [(.grove, .clrSkipped, g)] ∧
        EntriesKept s.dev.groves d.groves [g.val] ∧ d = { s.dev with cnt := d.cnt, groves := d.groves }))

/-! ### Tables: learning, aging, locks and descriptors (R285, R309 to R318) -/

/-- R309, R310, R317: the learn engine takes the next request; while the bridging lock is held or the deferred queue is not empty it joins that queue, or is discarded and
counted where the queue is full; otherwise a key that the table does not hold takes its lowest free position, or fails and is counted; a hit with the same source changes
nothing; a static entry with another source is kept and counted; another source moves the entry where move_en is set and is refused where it is not, and that is counted. -/
def Rules.LearnEngineTakes : Prop :=
  ∀ (p : Nat) (r : LearnReq) (rest : List LearnReq) (s : State), s.dev.running = true → s.dev.usedOf usedLearn < 12500 → nextLearner s.dev = some p →
    (s.dev.pipe p).learn = r :: rest → (learnDeferred s.dev = true ∨ s.dev.usedOf usedTable < 12500) →
    RunsTo .learnEngine s (fun d => (d.pipe p).learn = rest ∧ EntriesKept s.dev.pipes d.pipes [p] ∧
      (¬ ((s.dev.lockOf 0).isSome = true ∨ s.dev.deferred ≠ []) →
        d.deferred = s.dev.deferred ∧
        (∀ pos, brFind s.cfg s.dev r.key = none → brFree s.cfg s.dev r.key = some pos →
          d.bridge.get? pos = some { key := r.key, static := false, act := learnAct s.cfg r.kind, kind := r.kind, val := r.val, age := newTmr } ∧
          EntriesKept s.dev.bridge d.bridge [pos] ∧ d.cnt = s.dev.cnt) ∧
        (brFind s.cfg s.dev r.key = none → brFree s.cfg s.dev r.key = none →
          d.bridge = s.dev.bridge ∧ CountedOnly s.dev d [(.device, .learnFail, 0)]) ∧
        (∀ pos e, brFind s.cfg s.dev r.key = some (pos, e) →
          (e.kind = r.kind ∧ e.val = r.val → d.bridge = s.dev.bridge ∧ d.cnt = s.dev.cnt) ∧
          (¬ (e.kind = r.kind ∧ e.val = r.val) →
            (e.static = true → d.bridge = s.dev.bridge ∧ CountedOnly s.dev d [(.device, .staticViolation, 0)]) ∧
            (e.static = false → s.cfg.flag Fields.TBL_BR_DOM_move_en (brDomain r.key) = true →
              d.bridge.get? pos = some { e with kind := r.kind, val := r.val, act := learnAct s.cfg r.kind } ∧
              EntriesKept s.dev.bridge d.bridge [pos] ∧ CountedOnly s.dev d [(.device, .learnMove, 0)]) ∧
            (e.static = false → s.cfg.flag Fields.TBL_BR_DOM_move_en (brDomain r.key) = false →
              d.bridge = s.dev.bridge ∧ CountedOnly s.dev d [(.device, .moveRefused, 0)])))) ∧
      ((s.dev.lockOf 0).isSome = true ∨ s.dev.deferred ≠ [] → d.bridge = s.dev.bridge ∧
        (s.dev.deferred.length < 65536 → d.deferred = s.dev.deferred ++ [r] ∧ d.cnt = s.dev.cnt) ∧
        (65536 ≤ s.dev.deferred.length → d.deferred = s.dev.deferred ∧ CountedOnly s.dev d [(.device, .deferOverflow, 0)])) ∧
      d = { s.dev with cnt := d.cnt, pipes := d.pipes, bridge := d.bridge, deferred := d.deferred, used := d.used, learnPtr := (p + 1) % 32 })

/-- R317, R311: once the bridging lock is free the oldest deferred request reaches the table; a freed way of a bucket takes the lowest stash entry of that bucket, and the
return is counted. -/
def Rules.DeferredAndStash : Prop :=
  ∀ (s : State), (s.dev.lockOf 0) = none →
    (∀ r rest pos, s.dev.running = true → s.dev.usedOf usedTable < 12500 → s.dev.deferred = r :: rest → brFind s.cfg s.dev r.key = none →
      brFree s.cfg s.dev r.key = some pos →
      RunsTo .deferredDrain s (fun d => d.deferred = rest ∧
        d.bridge.get? pos = some { key := r.key, static := false, act := learnAct s.cfg r.kind, kind := r.kind, val := r.val, age := newTmr } ∧
        EntriesKept s.dev.bridge d.bridge [pos] ∧ d = { s.dev with bridge := d.bridge, deferred := rest, used := d.used })) ∧
    (∀ (k : Fin 262144) w pos e, (List.range 8).find? (fun w => (s.dev.bridge.get? (k.val * 8 + w)).isNone) = some w →
      s.dev.bridge.find? (fun p => decide (stashBase ≤ p.1) && brBucket s.cfg p.2.key == k.val) = some (pos, e) →
      RunsTo (.stashReturn k) s (fun d => d.bridge.get? (k.val * 8 + w) = some e ∧ d.bridge.get? pos = none ∧
        EntriesKept s.dev.bridge d.bridge [k.val * 8 + w, pos] ∧ CountedOnly s.dev d [(.device, .stashReturn, 0)] ∧
        d = { s.dev with cnt := d.cnt, bridge := d.bridge }))

/-- R309, R310, R317: the learn engine takes the next request; while the bridging lock is held or the deferred queue is not empty it joins that queue, or is discarded and
counted where the queue is full; otherwise a key that the table does not hold takes its lowest free position, or fails and is counted; a hit with the same source changes
nothing; a static entry with another source is kept and counted; another source moves the entry where move_en is set and is refused where it is not, and that is counted.
R317, R311: once the bridging lock is free the oldest deferred request reaches the table; a freed way of a bucket takes the lowest stash entry of that bucket, and the
return is counted. -/
def Obligations.LearningAndStash : Prop := Rules.LearnEngineTakes ∧ Rules.DeferredAndStash

/-- R312, R317, R285, R318: on the expiry of its watchdog a non-static bridging entry is removed, unless the bridging lock is held or no commit edge has passed since its release; a fragment entry is removed; a held lock
is released, counted and raises its interrupt. -/
def Obligations.AgingAndLockExpiry : Prop :=
  ∀ (pos : Fin 2101248) (k : Fin 8192) (t : Fin 4) (s : State),
    (∀ e, s.dev.bridge.get? pos = some e → e.static = false → e.age.expired (s.cfg.get Fields.TBL_BR_AGE_age_ticks 0) = true →
      (s.dev.lockOf 0 = none → s.dev.ageHold = false → RunsTo (.bridgeAged pos) s (fun d => d.bridge.get? pos = none ∧ EntriesKept s.dev.bridge d.bridge [pos.val] ∧
        CountedOnly s.dev d [(.device, .aged, 0)] ∧ d = { s.dev with cnt := d.cnt, bridge := d.bridge })) ∧
      (s.dev.lockOf 0 ≠ none ∨ s.dev.ageHold = true → exec (.bridgeAged pos) s = .next s)) ∧
    (∀ e, s.dev.bridge.get? pos = some e → e.static = true → exec (.bridgeAged pos) s = .next s) ∧
    (∀ e, s.dev.frag.get? k = some e → e.age.expired (s.cfg.get Fields.PIPE_FRAG_CTRL_age_ticks 0) = true →
      RunsTo (.fragAged k) s (fun d => d.frag.get? k = none ∧ EntriesKept s.dev.frag d.frag [k.val] ∧
        CountedOnly s.dev d [(.device, .fragAged, 0)] ∧ d = { s.dev with cnt := d.cnt, frag := d.frag })) ∧
    (s.dev.lockOf t ≠ none → s.dev.expired .lock t (s.cfg.get Fields.TBL_LOCK_T_lock_ticks t) = true →
      RunsTo (.lockExpired t) s (fun d => d.lockOf t = none ∧ EntriesKept s.dev.locks d.locks [t.val] ∧ d.armed .lock t = false ∧
        EntriesKept s.dev.timers d.timers [timerKey .lock t] ∧ CountedOnly s.dev d [(.device, .lockExpired, 0)] ∧
        (d.get Fields.INT_DEV_CAUSE_lock_exp 0).testBit t = true ∧ StatusKept s.dev d [(Fields.INT_DEV_CAUSE_lock_exp, 0)] ∧
        d = { s.dev with sts := d.sts, cnt := d.cnt, timers := d.timers, locks := d.locks }))

/-- A table descriptor of R315: its ring, its operation and its fields. -/
inductive DescOf : Instr → Fin 16 → TblOp → Desc → Prop
  | read (r : Fin 16) (x : Desc) : DescOf (.read r x) r .read x
  | write (r : Fin 16) (x : Desc) : DescOf (.write r x) r .write x
  | delete (r : Fin 16) (x : Desc) : DescOf (.delete r x) r .delete x
  | flush (r : Fin 16) (x : Desc) : DescOf (.flush r x) r .flush x
  | insertBefore (r : Fin 16) (x : Desc) : DescOf (.insertBefore r x) r .insertBefore x
  | search (r : Fin 16) (x : Desc) : DescOf (.search r x) r .search x

/-- R313 to R316: a descriptor at the head of a ring is executed: its status, number, tick and records are written back, the head advances modulo the ring, it is counted,
and a failure is counted as an error; an operation that the table does not have, or that is none of R315, fails with ST_BAD_VALUE, one that modifies a table that another master has locked with
ST_LOCKED, and one whose buffer faults at its first record with ST_INTEGRITY, and none of these, nor READ and SEARCH, changes a table. A fault at a later record fails that
record. A descriptor of another operation is not the command's. -/
def Rules.DescriptorsComplete : Prop :=
  ∀ (c : Instr) (r : Fin 16) (o : TblOp) (x : Desc) (s : State), DescOf c r o x → nextRing s.cfg s.dev = some r.val →
    s.cfg.get Fields.TBL_RING_SIZE_ring_size r ≤ 16 →
    (descOp x ≠ some o → descOp x ≠ none → exec c s = .next s) ∧
    (descOp x = some o ∨ descOp x = none → RunsTo c s (fun d => ∃ (st : Status) (n : Nat) (recs : List (Nat × TblRec)),
      d.outbox = .descDone r (descAddr s.cfg s.dev r) (doneWords x st n s.dev.sfc) x.buf recs :: s.dev.outbox ∧
      ringHead d r = (ringHead s.dev r + 1) % 2 ^ s.cfg.get Fields.TBL_RING_SIZE_ring_size r ∧
      Counted s.dev d .device .dmaDescriptors r 1 ∧ (st ≠ .ok → Counted s.dev d .device .dmaErrors r 1) ∧
      EntriesKept s.dev.cnt d.cnt [ctrKey .device .dmaDescriptors r, ctrKey .device .dmaErrors r] ∧
      (x.intr = true → (d.get Fields.INT_DEV_CAUSE_ring_done 0).testBit r = true) ∧
      (descOp x = none ∨ o.allowed x.table = false → st = .badValue ∧ n = 0) ∧
      (descOp x = some o → o.allowed x.table = true → o.modifies = true ∧ lockedFor s.dev r x.table = true → st = .locked) ∧
      (descOp x = some o → o.allowed x.table = true → ¬ (o.modifies = true ∧ lockedFor s.dev r x.table = true) → o.usesBuffer x.table = true →
        ∀ k, x.fault = some k → k < x.count → n ≤ k ∧ st ≠ .ok ∧ (k = 0 → st = .integrity)) ∧
      (descOp x = none ∨ o.allowed x.table = false ∨ o.modifies = false ∨ lockedFor s.dev r x.table = true ∨
          (o.usesBuffer x.table = true ∧ x.fault = some 0) →
        d.bridge = s.dev.bridge ∧ d.lpm4 = s.dev.lpm4 ∧ d.lpm6 = s.dev.lpm6 ∧ d.asc = s.dev.asc) ∧
      StatusKept s.dev d [(Fields.TBL_RING_HEAD_head, r), (Fields.INT_DEV_CAUSE_ring_done, 0)] ∧
      d = { s.dev with sts := d.sts, cnt := d.cnt, outbox := d.outbox, timers := d.timers, free := d.free, bridge := d.bridge, lpm4 := d.lpm4,
                       lpm6 := d.lpm6, asc := d.asc, ringPtr := (r.val + 1) % 16 })) ∧
    (∀ k : Nat, s.dev.ringPtr ≤ k → k < r.val → ringReady s.cfg s.dev k = false) ∧ ringReady s.cfg s.dev r = true

/-- R315: of descriptors that no lock and no fault stops, a FLUSH removes exactly the non-static bridging entries with the override of its index word; a READ answers the
entry at a bridging position and ST_BAD_INDEX outside the table; a WRITE of a valid bridging record with a new key puts it at the lowest free position, or answers
ST_NO_ROOM; a DELETE removes the key's entry; a SEARCH answers the key's entry with its position. -/
def Rules.BridgingDescriptors : Prop :=
  ∀ (r : Fin 16) (x : Desc) (key act val : Nat) (static : Bool) (s : State), nextRing s.cfg s.dev = some r.val → x.table = 0 → x.fault = none →
    lockedFor s.dev r 0 = false →
    (descOp x = some .flush → RunsTo (.flush r x) s (fun d => ∀ p, p ∈ d.bridge ↔
      p ∈ s.dev.bridge ∧ ¬ (p.2.static = false ∧ p.2.kind = bitsOf x.index 16 2 ∧ p.2.val = bitsOf x.index 0 16))) ∧
    (descOp x = some .read → x.count = 1 → x.index < 2101248 → ∀ e, s.dev.bridge.get? x.index = some e →
      RunsTo (.read r x) s (fun d => d.outbox =
        .descDone r (descAddr s.cfg s.dev r) (doneWords x .ok 1 s.dev.sfc) x.buf [(x.index, .bridge e.key true e.static e.kind e.act e.val)] :: s.dev.outbox)) ∧
    (descOp x = some .read → x.count = 1 → 2101248 ≤ x.index →
      RunsTo (.read r x) s (fun d => d.outbox = .descDone r (descAddr s.cfg s.dev r) (doneWords x .badIndex 0 s.dev.sfc) x.buf [] :: s.dev.outbox)) ∧
    (x.count = 1 → x.recs = [.bridge key true static 0 act val] →
      (descOp x = some .write → brFind s.cfg s.dev (brKeyOf (toBytesBE 8 key)) = none →
        (∀ pos, brFree s.cfg s.dev (brKeyOf (toBytesBE 8 key)) = some pos →
          RunsTo (.write r x) s (fun d => d.outbox = .descDone r (descAddr s.cfg s.dev r) (doneWords x .ok 1 s.dev.sfc) x.buf [] :: s.dev.outbox ∧ EntriesKept s.dev.bridge d.bridge [pos] ∧
            d.bridge.get? pos = some { key := brKeyOf (toBytesBE 8 key), static := static, act := act, kind := 0, val := val, age := newTmr })) ∧
        (brFree s.cfg s.dev (brKeyOf (toBytesBE 8 key)) = none →
          RunsTo (.write r x) s (fun d => d.outbox = .descDone r (descAddr s.cfg s.dev r) (doneWords x .noRoom 0 s.dev.sfc) x.buf [] :: s.dev.outbox ∧ d.bridge = s.dev.bridge))) ∧
      (∀ pos e, brFind s.cfg s.dev (brKeyOf (toBytesBE 8 key)) = some (pos, e) →
        (descOp x = some .delete → RunsTo (.delete r x) s (fun d => d.bridge.get? pos = none ∧ EntriesKept s.dev.bridge d.bridge [pos])) ∧
        (descOp x = some .search → RunsTo (.search r x) s (fun d =>
          d.outbox = .descDone r (descAddr s.cfg s.dev r) (doneWords x .ok 1 s.dev.sfc) x.buf [(pos, .bridge e.key true e.static e.kind e.act e.val)] :: s.dev.outbox))))

/-- R313 to R316: a descriptor at the head of a ring is executed: its status, number, tick and records are written back, the head advances modulo the ring, it is counted,
and a failure is counted as an error; an operation that the table does not have, or that is none of R315, fails with ST_BAD_VALUE, one that modifies a table that another
master has locked with ST_LOCKED, and one whose buffer faults at its first record with ST_INTEGRITY, and none of these, nor READ and SEARCH, changes a table. A fault at a
later record fails that record. A descriptor of another operation is not the command's. R315: of descriptors that no lock and no fault stops, a FLUSH removes exactly the
non-static bridging entries with the override of its index word; a READ answers the entry at a bridging position and ST_BAD_INDEX outside the table; a WRITE of a valid
bridging record with a new key puts it at the lowest free position, or answers ST_NO_ROOM; a DELETE removes the key's entry; a SEARCH answers the key's entry with its
position. -/
def Obligations.RingDescriptors : Prop := Rules.DescriptorsComplete ∧ Rules.BridgingDescriptors

/-- R320, R322: an INSERT_BEFORE of one record moves nothing and answers ST_NO_ROOM where the run of its width holds no invalid entry behind the position; otherwise the
record is the entry at the position. -/
def Rules.InsertBeforeOpens : Prop :=
  ∀ (r : Fin 16) (x : Desc) (w v m k : Nat) (s : State), nextRing s.cfg s.dev = some r.val → x.table = 3 → x.fault = none → lockedFor s.dev r 3 = false →
    descOp x = some .insertBefore →
    x.count = 1 → x.recs = [.asc v m k] → ascPos s.cfg x.index = some w →
    (ascChain s.cfg s.dev w (2 ^ 20) x.index [x.index] = none →
      RunsTo (.insertBefore r x) s (fun d => d.asc = s.dev.asc ∧
        d.outbox = .descDone r (descAddr s.cfg s.dev r) (doneWords x .noRoom 0 s.dev.sfc) x.buf [] :: s.dev.outbox)) ∧
    (∀ chain, ascChain s.cfg s.dev w (2 ^ 20) x.index [x.index] = some chain →
      RunsTo (.insertBefore r x) s (fun d => d.ascAt w x.index = ascOf w v m k ∧ EntriesKept s.dev.asc d.asc chain ∧
        d.outbox = .descDone r (descAddr s.cfg s.dev r) (doneWords x .ok 1 s.dev.sfc) x.buf [] :: s.dev.outbox))

/-- R326: while the device runs and the cascade ring is up and not off, a key from another device is answered over CAS_MO with the best match of the shared banks, or the better result
that came with it, and goes on around the ring over Plaxon east with that result; nothing else happens. -/
def Rules.CascadeKeyAnswered : Prop :=
  ∀ (k : RingKey) (s : State), s.dev.running = true → s.dev.flag Fields.ASC_CAS_STATUS_cas_down 0 = false → s.cfg.get Fields.ASC_CAS_CTRL_cas_size 0 ≠ 0 →
    RunsTo (.cascadeKeyRx k) s (fun d => d = (s.dev.emit
      (.ringKey { k with best := bestHit (ascFind s.cfg s.dev k.width (searchBanks k.base k.banks) (bankShared s.cfg) k.key) k.best })).emit
      (.ringResult (bestHit (ascFind s.cfg s.dev k.width (searchBanks k.base k.banks) (bankShared s.cfg) k.key) k.best)))

/-- R295, R296: when no packet stamped with the swapped-out bank remains the bank has drained; at the end of a copy every register of the standby rule-set bank reads as in
the active bank, and no other configuration changes. -/
def Obligations.RuleSetBanks : Prop :=
  ∀ s : State,
    (s.dev.flag Fields.PIPE_RS_STATUS_draining 0 = true → (∀ x ∈ s.dev.pipes, pipeHolds x.2 (1 - activeBank s.cfg) = false) →
      RunsTo .bankDrain s (fun d => d.flag Fields.PIPE_RS_STATUS_draining 0 = false ∧ StatusKept s.dev d [(Fields.PIPE_RS_STATUS_draining, 0)] ∧
        d = { s.dev with sts := d.sts })) ∧
    (s.dev.flag Fields.PIPE_RS_STATUS_copy_busy 0 = true → s.cfg.regs.canonical (cfgBase s.cfg.alone) →
      ∃ c d, exec .rsCopyDone s = .next { s with cfg := c, dev := d } ∧ d.flag Fields.PIPE_RS_STATUS_copy_busy 0 = false ∧
        StatusKept s.dev d [(Fields.PIPE_RS_STATUS_copy_busy, 0)] ∧ d = { s.dev with sts := d.sts } ∧
        (∀ r ∈ bankRegs, ∀ k, k < bankSize r →
          c.word r ((1 - activeBank s.cfg) * bankSize r + k) = s.cfg.word r (activeBank s.cfg * bankSize r + k)) ∧
        (∀ r i, i < 2 ^ 22 → (r ∉ bankRegs ∨ i / bankSize r ≠ 1 - activeBank s.cfg) → c.word r i = s.cfg.word r i) ∧
        c = { s.cfg with regs := c.regs })

/-- R320, R336: at its end a window write puts the value, mask and side word of the window registers into the entry at its position, unless another master has taken the table's lock, a window read puts the entry's side
word into the window and changes no entry, and one whose position is no entry of a configured width has the status ST_BAD_INDEX; the window is no longer busy. -/
def Rules.WindowCommandEnds : Prop :=
  ∀ (k : WinCmd) (s : State), s.dev.winCmd = some k →
    ∃ c d, exec .ascWinCommandDone s = .next { s with cfg := c, dev := d } ∧ d.winCmd = none ∧ d.flag Fields.ASC_WIN_STAT_busy 0 = false ∧
      StatusKept s.dev d [(Fields.ASC_WIN_STAT_busy, 0), (Fields.ASC_WIN_STAT_status, 0)] ∧
      d = { s.dev with sts := d.sts, asc := d.asc, winCmd := none } ∧
      (ascPos s.cfg k.addr = none → d.get Fields.ASC_WIN_STAT_status 0 = Status.badIndex.code ∧ c = s.cfg ∧ d.asc = s.dev.asc) ∧
      (∀ w, ascPos s.cfg k.addr = some w →
        (k.op ≠ 2 → lockedFor s.dev k.master 3 = true → d.get Fields.ASC_WIN_STAT_status 0 = Status.locked.code ∧ c = s.cfg ∧ d.asc = s.dev.asc) ∧
        (k.op = 1 → lockedFor s.dev k.master 3 = false → d.get Fields.ASC_WIN_STAT_status 0 = 0 ∧ c = s.cfg ∧ EntriesKept s.dev.asc d.asc [k.addr] ∧
          d.ascAt w k.addr = ascOf w (winBits s.cfg .ASC_WIN_VALUE w) (winBits s.cfg .ASC_WIN_MASK w) (s.cfg.word .ASC_WIN_SIDE 0)) ∧
        (k.op = 2 → d.get Fields.ASC_WIN_STAT_status 0 = 0 ∧ d.asc = s.dev.asc ∧ c.word .ASC_WIN_SIDE 0 = (s.dev.ascAt w k.addr).side ∧
          c = { s.cfg with regs := c.regs }))

/-- R320, R322: an INSERT_BEFORE of one record moves nothing and answers ST_NO_ROOM where the run of its width holds no invalid entry behind the position; otherwise the
record is the entry at the position. R320, R336: at its end a window write puts the value, mask and side word of the window registers into the entry at its position,
unless another master has taken the table's lock, a window read puts the entry's side word into the window and changes no entry, and one whose position is no entry of a
configured width has the status ST_BAD_INDEX; the window is no longer busy. -/
def Obligations.AssociativeMemory : Prop := Rules.InsertBeforeOpens ∧ Rules.WindowCommandEnds

/-- R522: a flash command that ends well has erased its 65,536 bytes to the erased value, or has programmed its bytes, and no other byte of the flash; a failed command has
a status other than ST_OK and is counted; busy is clear. -/
def Obligations.FlashOperationEnds : Prop :=
  ∀ (a : Nat) (bs : List Byte) (s : State),
    (s.dev.flashOp = some (.erase a) → ∃ d, exec (.flashOperationDone true) s = .next (s.withDev d) ∧
      d.flag Fields.CFG_FLASH_STAT_busy 0 = false ∧ d.flashOp = none ∧ d.get Fields.CFG_FLASH_STAT_status 0 = 0 ∧
      (∀ k, k < 65536 → flashAt d (a + k) = 0xFF#8) ∧ (∀ k, k < a ∨ a + 65536 ≤ k → flashAt d k = flashAt s.dev k) ∧
      d = { s.dev with sts := d.sts, flash := d.flash, flashOp := none }) ∧
    (s.dev.flashOp = some (.program a bs) → ∃ d, exec (.flashOperationDone true) s = .next (s.withDev d) ∧
      d.flag Fields.CFG_FLASH_STAT_busy 0 = false ∧ d.flashOp = none ∧ d.get Fields.CFG_FLASH_STAT_status 0 = 0 ∧
      (∀ k b, bs[k]? = some b → flashAt d (a + k) = b) ∧ (∀ k, k < a ∨ a + bs.length ≤ k → flashAt d k = flashAt s.dev k) ∧
      d = { s.dev with sts := d.sts, flash := d.flash, flashOp := none }) ∧
    (s.dev.flashOp = some (.program a bs) ∨ s.dev.flashOp = some (.erase a) → ∃ d, exec (.flashOperationDone false) s = .next (s.withDev d) ∧
      d.flag Fields.CFG_FLASH_STAT_busy 0 = false ∧ d.flashOp = none ∧ d.get Fields.CFG_FLASH_STAT_status 0 ≠ 0 ∧
      CountedOnly s.dev d [(.device, .flashErrors, 0)])

/-! ### Pipelines, the sampler and the uplink ports (R277 to R292, R326 to R328, R385, R534, R535, R593 to R597) -/

/-- A pass of R278 or R291: its command, pipeline, what the shared memories answered, and whether it is the second pass. -/
inductive PassOf : Instr → Fin 32 → PassIn → Bool → Prop
  | first (p : Fin 32) (inp : PassIn) : PassOf (.packetPass p inp) p inp false
  | second (p : Fin 32) (inp : PassIn) : PassOf (.recircPass p inp) p inp true

/-- The packets that wait for a pass of a pipeline. -/
def waitingFor (x : PipeSt) (second : Bool) : List PipePkt := if second then x.recirc else x.ingress

/-- A pass takes the packet `pkt` from the front, which is no fragment that the fragment table has a part in and no packet of a flow, and parses it as `x`: a first
pass takes one only while no second pass waits (R23). -/
def Takes (s : State) (p : Fin 32) (second : Bool) (pkt : PipePkt) (rest : List PipePkt) (x : Parsed) : Prop :=
  pipeRuns s.dev p = true ∧ (s.dev.pipe p).wait = none ∧ waitingFor (s.dev.pipe p) second = pkt :: rest ∧
    (second = false → flowOfPkt s.cfg pkt = none ∧ (s.dev.pipe p).recirc = []) ∧
    ∀ d, parsePass s.cfg p second (if second then pkt else { pkt with bank := activeBank s.cfg }) d = (x, false, d)

/-- R290 to R293, R302: a pass whose merged result has no destination, DROP, or RECIRC in a second pass is dropped and the drop is counted under its own name; RECIRC in a
first pass puts the packet without its strip bytes into the recirculation queue. A packet whose tag has failed ends as a wasted slot whatever its result, which is
discarded. Each pass counts its packet and its issue slot. -/
def Rules.PassesEnd : Prop :=
  ∀ (c : Instr) (p : Fin 32) (inp : PassIn) (second : Bool) (pkt : PipePkt) (rest : List PipePkt) (x : Parsed) (m : Merged) (s : State), PassOf c p inp second →
    Takes s p second pkt rest x → runSlots s.cfg s.dev x [0, 1, 2] [] Merged.init none 0 = .done m none 0 →
    (∀ r, (m.destKind = 0 ∧ r = Ctr.noDest ∨ m.destKind = 1 ∧ r = Ctr.actionDrop ∨ m.destKind = 7 ∧ second = true ∧ r = Ctr.recircExcess) → x.pkt.tagOk = true →
      RunsTo c s (fun d => waitingFor (d.pipe p) second = rest ∧ waitingFor (d.pipe p) (!second) = waitingFor (s.dev.pipe p) (!second) ∧
        Counted s.dev d .device r p 1 ∧ Counted s.dev d .device .wastedDrop p 1 ∧ Counted s.dev d .device .wastedReplay p inp.replays ∧
        Counted s.dev d .device (if second then Ctr.pktsSecond else Ctr.pktsFirst) p 1 ∧ EntriesKept s.dev.pipes d.pipes [p.val] ∧
        EntriesKept s.dev.samplers d.samplers [p.val] ∧ d = { s.dev with cnt := d.cnt, pipes := d.pipes, samplers := d.samplers })) ∧
    (x.pkt.tagOk = false →
      RunsTo c s (fun d => waitingFor (d.pipe p) second = rest ∧ waitingFor (d.pipe p) (!second) = waitingFor (s.dev.pipe p) (!second) ∧
        Counted s.dev d .device .wastedDrop p 1 ∧ d.counter .device .noDest p = s.dev.counter .device .noDest p ∧
        d.counter .device .destInvalid p = s.dev.counter .device .destInvalid p ∧ EntriesKept s.dev.pipes d.pipes [p.val] ∧
        EntriesKept s.dev.samplers d.samplers [p.val] ∧ d = { s.dev with cnt := d.cnt, pipes := d.pipes, samplers := d.samplers })) ∧
    (m.destKind = 7 → second = false → x.pkt.tagOk = true →
      RunsTo c s (fun d => (d.pipe p).ingress = rest ∧
        (d.pipe p).recirc = [{ x.pkt with bytes := x.pkt.bytes.take m.strip.1 ++ x.pkt.bytes.drop (m.strip.1 + m.strip.2) }] ∧
        Counted s.dev d .device .wastedRecirc p 1 ∧ Counted s.dev d .device .pktsFirst p 1 ∧ EntriesKept s.dev.pipes d.pipes [p.val] ∧
        EntriesKept s.dev.samplers d.samplers [p.val] ∧ d = { s.dev with cnt := d.cnt, pipes := d.pipes, samplers := d.samplers }))

/-- R292, R385: an upstream pass whose result is a PORT in use with its link up, within the limit of the packet's class and with a near buffer to take, puts the packet unchanged at
the end of that port's queue of the class, and retires its issue slot, where nothing edits or meters it. -/
def Rules.PassToPort : Prop :=
  ∀ (c : Instr) (p : Fin 32) (inp : PassIn) (second : Bool) (pkt : PipePkt) (rest : List PipePkt) (x : Parsed) (m : Merged) (q : Nat) (s : State),
    PassOf c p inp second → 16 ≤ p.val → Takes s p second pkt rest x → x.pkt.tagOk = true → runSlots s.cfg s.dev x [0, 1, 2] [] Merged.init none 0 = .done m none 0 →
    m.destKind = 3 → m.dest < 64 → portOn s.cfg s.dev m.dest = true → linkUp s.dev m.dest = true → m.edit = none → m.pcp = none → m.policer = none →
    q = upQueue m.dest (upClass s.cfg m.dest x.pkt.bytes) →
    (s.dev.queue q).depth + x.pkt.bytes.length ≤ 1024 * s.cfg.get Fields.SCH_UP_GLIM_g_limit (m.dest * 8 + upClass s.cfg m.dest x.pkt.bytes) →
    ∀ pool b gen e, takeBuf s.cfg 0 p (poolsFrom x.pkt.bytes.length) s.dev = (some (pool, b, gen), e) →
    RunsTo c s (fun d => (∃ k, d.queue q = (s.dev.queue q).push k ∧ k.bytes = x.pkt.bytes ∧ k.pool = pool ∧ k.buf = b ∧ k.gen = gen ∧ k.tick = s.dev.sfc) ∧
      waitingFor (d.pipe p) second = rest ∧ EntriesKept s.dev.queues d.queues [q] ∧ Counted s.dev d .device .retired p 1 ∧
      EntriesKept s.dev.pipes d.pipes [p.val] ∧
      d = { s.dev with cnt := d.cnt, pipes := d.pipes, samplers := d.samplers, queues := d.queues, bufs := d.bufs, caches := d.caches, used := d.used, uid := d.uid })

/-- R290 to R293, R302: a pass whose merged result has no destination, DROP, or RECIRC in a second pass is dropped and the drop is counted under its own name; RECIRC in a
first pass puts the packet without its strip bytes into the recirculation queue. A packet whose tag has failed ends as a wasted slot whatever its result, which is
discarded. Each pass counts its packet and its issue slot. R292, R385: an upstream pass whose result is a PORT in use with its link up, within the limit of the packet's
class and with a near buffer to take, puts the packet unchanged at the end of that port's queue of the class, and retires its issue slot, where nothing edits or meters
it. -/
def Obligations.PipelinePasses : Prop := Rules.PassesEnd ∧ Rules.PassToPort

/-- R326: a lookup of a shared bank sends its key around the ring and its pass waits. R328: a result that has not come back within cas_timeout core clocks is counted, and
the pass goes on with the local result: here it ends without a destination, or as a first pass that finds the recirculation queue full (R291). -/
def Rules.CascadeWaits : Prop :=
  ∀ (p : Fin 32) (s : State),
    (∀ pkt rest x k, Takes s p false pkt rest x → runSlots s.cfg s.dev x [0, 1, 2] [] Merged.init none 0 = .ring k →
      RunsTo (.packetPass p { replays := 0, ring := none }) s (fun d => d.outbox = .ringKey k :: s.dev.outbox ∧
        (d.pipe p).wait = some { pass := x, answers := [], since := s.dev.now } ∧ (d.pipe p).ingress = rest ∧ EntriesKept s.dev.pipes d.pipes [p.val] ∧
        d = { s.dev with cnt := d.cnt, pipes := d.pipes, samplers := d.samplers, outbox := d.outbox })) ∧
    (∀ w m r, pipeRuns s.dev p = true → (s.dev.pipe p).wait = some w → w.pass.pkt.tagOk = true → w.since + s.cfg.get Fields.ASC_CAS_TIMEOUT_cas_timeout 0 ≤ s.dev.now →
      runSlots s.cfg s.dev w.pass [0, 1, 2] (w.answers ++ [none]) Merged.init none 0 = .done m none 0 →
      (m.destKind = 0 ∧ r = Ctr.noDest ∨ m.destKind = 7 ∧ w.pass.second = false ∧ 8192 ≤ (s.dev.pipe p).recirc.length ∧ r = Ctr.recircFull) →
      RunsTo (.cascadeTimeout p) s (fun d => (d.pipe p).wait = none ∧ Counted s.dev d .device .casTimeout 0 1 ∧ Counted s.dev d .device r p 1 ∧
        Counted s.dev d .device .wastedDrop p 1 ∧ (d.pipe p).recirc = (s.dev.pipe p).recirc ∧ EntriesKept s.dev.pipes d.pipes [p.val] ∧
        d = { s.dev with cnt := d.cnt, pipes := d.pipes, samplers := d.samplers }))

/-- R326: while the device runs and the cascade ring is up and not off, a key from another device is answered over CAS_MO with the best match of the shared banks, or the
better result that came with it, and goes on around the ring over Plaxon east with that result; nothing else happens. R326: a lookup of a shared bank sends its key around
the ring and its pass waits. R328: a result that has not come back within cas_timeout core clocks is counted, and the pass goes on with the local result: here it ends
without a destination, or as a first pass that finds the recirculation queue full (R291). -/
def Obligations.CascadeRing : Prop := Rules.CascadeKeyAnswered ∧ Rules.CascadeWaits

/-- R596: an armed sampler with a pass to record writes its record behind those it holds and counts it; with 16 records it loses the record and counts that; either way it is
no longer armed and its sequence number goes on modulo 65,536. -/
def Obligations.SamplerRecords : Prop :=
  ∀ (p : Fin 32) (skid : Nat) (r : PassRec) (s : State), pipeRuns s.dev p = true → (s.dev.sampler p).armed = some skid → (s.dev.pipe p).last = some r →
    RunsTo (.sampleRecord p) s (fun d => (d.sampler p).armed = none ∧ (d.sampler p).seq = ((s.dev.sampler p).seq + 1) % 65536 ∧ (d.pipe p).last = none ∧
      ((s.dev.sampler p).recs.length < 16 → (∃ w, (d.sampler p).recs = (s.dev.sampler p).recs ++ [w]) ∧ CountedOnly s.dev d [(.device, .samplesTaken, p)]) ∧
      (16 ≤ (s.dev.sampler p).recs.length → (d.sampler p).recs = (s.dev.sampler p).recs ∧ CountedOnly s.dev d [(.device, .sampleLost, p)]) ∧
      EntriesKept s.dev.pipes d.pipes [p.val] ∧ EntriesKept s.dev.samplers d.samplers [p.val] ∧
      d = { s.dev with cnt := d.cnt, pipes := d.pipes, samplers := d.samplers })

/-- R534, R535, R17, R277: of a frame that arrives at a port in use, one too short, one too long, one with a wrong FCS and a pause frame are dropped and counted by their
lane; any other that is no PTP event message enters its pipeline's ingress buffer, or is dropped and counted where that is full. -/
def Rules.UplinkReceives : Prop :=
  ∀ (l : Fin 64) (bs : List Byte) (ok : Bool) (s : State), s.dev.running = true → portOn s.cfg s.dev l = true → linkUp s.dev l = true →
    (bs.length + 4 < 64 →
      RunsTo (.uplinkFrameRx l bs ok) s (fun d => CountedOnly s.dev d [(.device, .rxFramesRunt, l)] ∧ d = { s.dev with cnt := d.cnt })) ∧
    (16356 < bs.length + 4 →
      RunsTo (.uplinkFrameRx l bs ok) s (fun d => CountedOnly s.dev d [(.device, .rxFramesOversize, l)] ∧ d = { s.dev with cnt := d.cnt })) ∧
    (64 ≤ bs.length + 4 → bs.length + 4 ≤ 16356 →
      RunsTo (.uplinkFrameRx l bs false) s (fun d => CountedOnly s.dev d [(.device, .rxFcsErr, l)] ∧ d = { s.dev with cnt := d.cnt }) ∧
      (numAt bs 12 2 = 0x8808 → numAt bs 14 2 = 1 ∨ numAt bs 14 2 = 0x101 →
        RunsTo (.uplinkFrameRx l bs true) s (fun d => CountedOnly s.dev d [(.device, .pauseRx, l)] ∧ d = { s.dev with cnt := d.cnt })) ∧
      (numAt bs 12 2 ≠ 0x8808 → ptpEvent s.cfg bs = none →
        ((s.dev.pipe (ingressPipe s.cfg l bs)).ingress.length < 2048 →
          RunsTo (.uplinkFrameRx l bs true) s (fun d =>
            (∃ k, (d.pipe (ingressPipe s.cfg l bs)).ingress = (s.dev.pipe (ingressPipe s.cfg l bs)).ingress ++ [k] ∧ k.bytes = bs ∧ k.kind = .uplink ∧
              k.b = l.val ∧ k.tick = s.dev.sfc ∧ k.clock = s.dev.clock) ∧
            EntriesKept s.dev.pipes d.pipes [ingressPipe s.cfg l bs] ∧ d = { s.dev with pipes := d.pipes })) ∧
        (2048 ≤ (s.dev.pipe (ingressPipe s.cfg l bs)).ingress.length →
          RunsTo (.uplinkFrameRx l bs true) s (fun d => CountedOnly s.dev d [(.device, .ingressDrop, ingressPipe s.cfg l bs)] ∧
            d = { s.dev with cnt := d.cnt }))))

/-- R385, R267, R342, R276: a port sends the packets of flows before those of its queues, and of these the lowest class that holds one; the packet leaves with its FCS, and
its near buffer is freed. R550: from now on until its last byte has left it can be cut off. R466: an injected message whose port is down is discarded and counted. -/
def Rules.UplinkSends : Prop :=
  ∀ (l : Fin 64) (p : QPkt) (rest : List QPkt) (s : State), s.dev.running = true →
    (s.dev.txMsg.filter (fun m => m.port == l.val) = none → portOn s.cfg s.dev l = true → linkUp s.dev l = true →
      ((s.dev.queue (flowQueue l)).head = p :: rest →
        RunsTo (.uplinkPacketTx l) s (fun d => d.outbox = .uplink l (withFcs p.bytes) :: s.dev.outbox ∧ (d.queue (flowQueue l)).head = rest ∧
          (∀ f k j, p.flow = some (f, k, j) → CountedOnly s.dev d [(.flow, .pktsTx, f)]) ∧ (p.flow = none → d.cnt = s.dev.cnt) ∧
          d.outgoing.get? l = some (s.dev.now + sendClocks (2 ^ s.cfg.get Fields.LANE_UP_CFG_width l) (p.bytes.length + 4)) ∧
          EntriesKept s.dev.outgoing d.outgoing [l.val] ∧ EntriesKept s.dev.queues d.queues [flowQueue l] ∧
          d = { s.dev with sts := d.sts, cnt := d.cnt, queues := d.queues, outbox := d.outbox, outgoing := d.outgoing })) ∧
      (∀ k, (s.dev.queue (flowQueue l)).head = [] → firstClass s.dev l = some k → (s.dev.queue (upQueue l k)).head = p :: rest → p.stamp = none →
        RunsTo (.uplinkPacketTx l) s (fun d => d.outbox = .uplink l (withFcs p.bytes) :: s.dev.outbox ∧
          d.outgoing.get? l = some (s.dev.now + sendClocks (2 ^ s.cfg.get Fields.LANE_UP_CFG_width l) (p.bytes.length + 4)) ∧
          d.queue (upQueue l k) = { s.dev.queue (upQueue l k) with head := rest }.join ∧ EntriesKept s.dev.queues d.queues [upQueue l k] ∧
          ((s.dev.buf 0 p.pool p.buf).alloc = true → (s.dev.buf 0 p.pool p.buf).gen = p.gen → (d.buf 0 p.pool p.buf).alloc = false) ∧
          EntriesKept s.dev.outgoing d.outgoing [l.val] ∧
          d = { s.dev with sts := d.sts, cnt := d.cnt, bufs := d.bufs, used := d.used, queues := d.queues, outbox := d.outbox, outgoing := d.outgoing }))) ∧
    (∀ m, s.dev.txMsg = some m → m.port = l → (portOn s.cfg s.dev l = false ∨ linkUp s.dev l = false) →
      RunsTo (.uplinkPacketTx l) s (fun d => CountedOnly s.dev d [(.device, .txLost, 0)] ∧ d = { s.dev with cnt := d.cnt, txMsg := none }))

/-- R534, R535, R17, R277: of a frame that arrives at a port in use, one too short, one too long, one with a wrong FCS and a pause frame are dropped and counted by their
lane; any other that is no PTP event message enters its pipeline's ingress buffer, or is dropped and counted where that is full. R385, R267, R342, R276: a port sends the
packets of flows before those of its queues, and of these the lowest class that holds one; the packet leaves with its FCS, and its near buffer is freed. R550: from now on
until its last byte has left it can be cut off. R466: an injected message whose port is down is discarded and counted. -/
def Obligations.UplinkPorts : Prop := Rules.UplinkReceives ∧ Rules.UplinkSends

/-! ### The commit edge, bursts, the grant engine and service (R32 to R38, R49, R101, R112 to R116, R200 to R216, R541, R630) -/

/-- R32, R34, R40: at a commit edge of a running device the superframe number goes up by one, modulo 2^48, and the tick begins at core clock 0; the staged writes due by then
leave the staging area, and the others stay there. A write that is staged alone is in its register from the edge on; the binding of slices, the swap request and the power
request have rules of their own. -/
def Obligations.CommitEdgeAdvances : Prop :=
  ∀ (e : EdgeIn) (s : State), s.dev.running = true →
    ∃ t, exec (.commitEdge e) s = .next t ∧ t.dev.sfc = (s.dev.sfc + 1) % 2 ^ 48 ∧ t.dev.clock = 0 ∧ t.pending = s.pending ∧
      t.cfg.staged = s.cfg.staged.filter (fun w => !(w.dueBy ((s.dev.sfc + 1) % 2 ^ 48))) ∧
      (∀ w, s.cfg.staged = [w] → w.dueBy ((s.dev.sfc + 1) % 2 ^ 48) = true → w.reg ∉ [.BGH_CTRL, .BGH_FIXED, .SLC_PAGE_CTRL, .CLK_PWR] →
        t.cfg.word w.reg w.idx = s.cfg.word w.reg w.idx - (s.cfg.word w.reg w.idx &&& w.mask) + (w.value &&& w.mask)) ∧
      (s.cfg.staged = [] → ∀ r i, r ∉ [.BGH_CTRL, .BGH_FIXED, .SLC_PAGE_CTRL, .CLK_PWR] → t.cfg.word r i = s.cfg.word r i)

/-- R49: at map freeze the clock has reached 172,500; where one grove alone is in service and has no frame of the next tick yet, that grove has one, with as many messages as
wait, marks that wait beside a full queue among them, up to msg_max, and the slots of its slice region. Step 7 of the edge, if it is still to come, comes first (assumption log 88). -/
def Rules.MapFreezeFrame : Prop :=
  ∀ (g : Fin 64) (s : State) (e : Dev), s.dev.running = true → e = closeEdge s.cfg s.dev →
    ((∀ h ∈ e.groves.map Prod.fst, worksOn s.cfg e h (e.grove h).inService = false) →
      RunsTo .mapFreeze s (fun d => 172500 ≤ d.clock ∧ d.sfc = s.dev.sfc ∧ d.groves = s.dev.groves ∧ d.edgeOpen = false ∧ (s.dev.edgeOpen = false → e = s.dev) ∧
        StatusKept e d ((List.range 512).map (fun k => (Fields.SCH_BGH_LAST_bytes, mcBase + k))) ∧
        d = { e with clock := d.clock, cyc := d.cyc, domA := d.domA, domB := d.domB, sigma := d.sigma, flows := d.flows, sts := d.sts })) ∧
    (∀ x, s.dev.groves = [(g.val, x)] → x.inService = true → x.frame.map DsFrame.sfc ≠ some (s.dev.sfc + 1) →
      RunsTo .mapFreeze s (fun d => ∃ fr, (d.grove g).frame = some fr ∧ fr.sfc = s.dev.sfc + 1 ∧
        (compat s.cfg g = false → fr.slots = s.cfg.get Fields.SLC_GRV_REGION_slots g ∧
          fr.msgs.length = min (s.cfg.get Fields.GRV_DS_CTRL_msg_max g) (x.announce.toList.length + (x.waiting.filter isMark).length + x.msgQ.length))))

/-- R49, R42: map freeze of a running device completes: the clock has reached 172,500, the edge is closed, and every grove in service has the frame of the next tick. -/
def Rules.MapFreezeCompletes : Prop :=
  ∀ s : State, s.dev.running = true →
    RunsTo .mapFreeze s (fun d => 172500 ≤ d.clock ∧ d.sfc = s.dev.sfc ∧ d.edgeOpen = false ∧
      ∀ g : Fin 64, (s.dev.grove g).inService = true →
        (d.grove g).inService = true ∧ (d.grove g).frame.map DsFrame.sfc = some (s.dev.sfc + 1))

/-- R49: at map freeze the clock has reached 172,500; where one grove alone is in service and has no frame of the next tick yet, that grove has one, with as many messages
as wait, marks that wait beside a full queue among them, up to msg_max, and the slots of its slice region. Step 7 of the edge, if it is still to come, comes first
(assumption log 88). R49, R42: map freeze of a running device completes: the clock has reached 172,500, the edge is closed, and every grove in service has the frame of
the next tick. -/
def Obligations.MapFreezeBuilds : Prop := Rules.MapFreezeFrame ∧ Rules.MapFreezeCompletes

/-- The map of the frame that a grove now receives, whose own T_loop has run since its tick. -/
def mapHeard (s : State) (d : Dev) (g : Fin 64) : Option SealedMap := (d.grove g).maps.find? (fun m => m.frame + m.tloop == s.dev.sfc)

/-- The entry that a burst answers: the frame that the grove now receives, whose own T_loop has run since its tick, carries it in its map, it is of a stand, and no burst
has answered it yet. -/
def Due (s : State) (g : Fin 64) (n : Nat) (m : SealedMap) (e : MapEntry) : Prop :=
  s.dev.running = true ∧ groveParked s.dev g = false ∧
    mapHeard s s.dev g = some m ∧ m.entries[n]? = some e ∧ e.kind ≠ .discovery ∧
    (∀ x, e.kind ≠ .slice x) ∧ m.got.contains n = false ∧ e.stand < 256

/-- The entry is due, and those of earlier places are over. -/
def Awaited (s : State) (g : Fin 64) (n : Nat) (m : SealedMap) (e : MapEntry) : Prop :=
  Due s g n m e ∧ ∀ k x, m.entries[k]? = some x → x.start < e.start → x.kind = .discovery ∨ m.got.contains k = true

/-- R117: the stand has become SILENCED or ABSENT since the map of frame `k` was sealed. -/
def Voided (s : State) (i k : Nat) : Prop :=
  s.dev.st i = .silenced ∨ s.dev.st i = .absent ∨ ∃ f, (s.dev.mailOf i).voidTo = some f ∧ k ≤ f

/-- R112, R116, R117: a burst of a stand that has become SILENCED or ABSENT since its map was sealed is discarded, one without lock and one whose delimiter is not found within
16 symbols of its place is missed: each ends in that outcome, counted for the grove and the stand, and brings no packet, no message and no report. Entries of earlier places that no burst has answered are over with any burst that is due (R101,
R107; the order of bursts is the model's choice, assumption log 92). -/
def Rules.BurstsMissed : Prop :=
  ∀ (g : Fin 64) (n : Nat) (m : SealedMap) (e : MapEntry) (b : BurstIn) (rx : RxBurst) (o : Ctr) (s : State), rx = grantRx s.cfg s.dev g m e b →
    (Due s g n m e → RunsTo (.burstReceive g n b) s (fun d => ∃ y, mapHeard s d g = some y ∧ y.entries = m.entries ∧
      ∀ k x, m.entries[k]? = some x → k = n ∨ x.start < e.start → y.got.contains k = true)) ∧
    (Awaited s g n m e → ((Voided s (standId g e.stand) m.frame ∧ o = .silencedDiscard) ∨
      (¬ Voided s (standId g e.stand) m.frame ∧
        ((rx.locked = false ∧ o = .noLock) ∨ (rx.locked = true ∧ rx.pos = none ∧ o = .delimMiss) ∨
          (rx.locked = true ∧ e.kind = .ordinary ∧ wideFrame s.dev m.frame = false ∧
            (∃ p, rx.pos = some p ∧ 16 < (p - expectedPos s.dev g e).natAbs) ∧ o = .delimMiss)))) →
     RunsTo (.burstReceive g n b) s (fun d =>
      CountedOnly s.dev d [(.stand, o, standId g e.stand), (.grove, o, groveOf (standId g e.stand))] ∧
      EntriesKept s.dev.groves d.groves [g.val] ∧ EntriesKept s.dev.mail d.mail [standId g e.stand] ∧ EntriesKept s.dev.rng d.rng [standId g e.stand] ∧
      StatusKept s.dev d [(Fields.GRV_US_RSSI_CTRL_rssi_done, g)] ∧ (rx.locked = false → d.outbox = s.dev.outbox) ∧
      d = { s.dev with sts := d.sts, cnt := d.cnt, hits := d.hits, groves := d.groves, mail := d.mail, rng := d.rng, boughs := d.boughs, outbox := d.outbox }))

/-- R111, R116, R140: a burst of a ranging grant with a good header at its place is received and counted for the grove and the stand, its sequence is noted, and its phase
waits to be judged at the edge; where the stand has no bough of index 0 to take the burst's share (R99, R140), no packet comes of it. -/
def Rules.RangingBurstReceived : Prop :=
  ∀ (g : Fin 64) (n : Nat) (m : SealedMap) (e : MapEntry) (b : BurstIn) (rx : RxBurst) (p : Int) (h : List Byte) (s : State), Awaited s g n m e →
    rx = grantRx s.cfg s.dev g m e b → e.kind = .rangingGrant → compat s.cfg g = false → ¬ Voided s (standId g e.stand) m.frame → rx.locked = true → rx.pos = some p →
    (p - expectedPos s.dev g e).natAbs ≤ 2048 → rx.header = some h → headerGood h = true → ofBytesBE (h.take 2) / 128 = e.stand →
    RunsTo (.burstReceive g n b) s (fun d => Counted s.dev d .stand .burstsReceived (standId g e.stand) 1 ∧
      Counted s.dev d .grove .burstsReceived (groveOf (standId g e.stand)) 1 ∧
      (d.rngOf (standId g e.stand)).resNow = some (some (p - expectedPos s.dev g e)) ∧ (d.mailOf (standId g e.stand)).prevSeq = some (byteAt h 2) ∧
      (e.msg = false → (∀ r ∈ e.runs, 65536 ≤ r.bough ∧ boughAt s.cfg (standId g e.stand) r.idx = none) →
        d = { s.dev with sts := d.sts, cnt := d.cnt, hits := d.hits, groves := d.groves, mail := d.mail, rng := d.rng, boughs := d.boughs,
                         timers := d.timers, mate := d.mate, outbox := d.outbox }))

/-- R112, R116, R117: a burst of a stand that has become SILENCED or ABSENT since its map was sealed is discarded, one without lock and one whose delimiter is not found
within 16 symbols of its place is missed: each ends in that outcome, counted for the grove and the stand, and brings no packet, no message and no report. Entries of
earlier places that no burst has answered are over with any burst that is due (R101, R107; the order of bursts is the model's choice, assumption log 92). R111, R116,
R140: a burst of a ranging grant with a good header at its place is received and counted for the grove and the stand, its sequence is noted, and its phase waits to be
judged at the edge; where the stand has no bough of index 0 to take the burst's share (R99, R140), no packet comes of it. -/
def Rules.GrantedBursts : Prop := Rules.BurstsMissed ∧ Rules.RangingBurstReceived

/-- R99, R101, R116: a burst of an ordinary twig of one run with a good header at its place is received and counted for the grove and the stand, its sequence and phase are
noted and its reports wait for the edge; where its share is one fragment that ends no packet and its bough has no partial packet, the fragment is the bough's partial packet
from then on, and the reassembly timer starts. -/
def Rules.DataBurstReceived : Prop :=
  ∀ (g : Fin 64) (n : Nat) (m : SealedMap) (e : MapEntry) (b : BurstIn) (rx : RxBurst) (p : Int) (h : List Byte) (r : Run) (s : State), Awaited s g n m e →
    rx = grantRx s.cfg s.dev g m e b → e.kind = .ordinary → e.msg = false → e.runs = [r] → standOfBough s.cfg r.bough = some (standId g e.stand) →
    r.bough < 65536 → compat s.cfg g = false → ¬ Voided s (standId g e.stand) m.frame → rx.locked = true → rx.pos = some p →
    wideFrame s.dev m.frame = false → (p - expectedPos s.dev g e).natAbs ≤ 16 → rx.header = some h → headerGood h = true → ofBytesBE (h.take 2) / 128 = e.stand →
    (∃ d, exec (.burstReceive g n b) s = .next (s.withDev d) ∧ Counted s.dev d .stand .burstsReceived (standId g e.stand) 1 ∧
      Counted s.dev d .grove .burstsReceived g 1 ∧ (d.mailOf (standId g e.stand)).prevSeq = some (byteAt h 2) ∧
      (d.rngOf (standId g e.stand)).phases = (s.dev.rngOf (standId g e.stand)).phases ++ [p - expectedPos s.dev g e] ∧
      (e.rpt = true → (s.dev.mailOf (standId g e.stand)).reps = none →
        (d.mailOf (standId g e.stand)).reps = some (m.frame, e.start, headerReports h)) ∧
      (∀ hd pl, (readShare (58 * r.len / 8 + 1) false ((dataStream (cwSizes r.len) rx.cws).take (58 * r.len))).1 = [.frag hd pl] → hd.last = false →
        ((dataStream (cwSizes r.len) rx.cws).take (58 * r.len)).length = 58 * r.len → (s.dev.bough r.bough).part = none →
        (d.bough r.bough).part.map (fun q => (q.keyIndex, q.bytes, q.twig)) = some (hd.keyIndex, pl, (m.frame, e.start)) ∧
          d.armed .reasm r.bough = true ∧ d.pipes = s.dev.pipes))

/-- R112, R116, R117: a burst of a stand that has become SILENCED or ABSENT since its map was sealed is discarded, one without lock and one whose delimiter is not found
within 16 symbols of its place is missed: each ends in that outcome, counted for the grove and the stand, and brings no packet, no message and no report. Entries of
earlier places that no burst has answered are over with any burst that is due (R101, R107; the order of bursts is the model's choice, assumption log 92). R111, R116,
R140: a burst of a ranging grant with a good header at its place is received and counted for the grove and the stand, its sequence is noted, and its phase waits to be
judged at the edge; where the stand has no bough of index 0 to take the burst's share (R99, R140), no packet comes of it. R99, R101, R116: a burst of an ordinary twig of
one run with a good header at its place is received and counted for the grove and the stand, its sequence and phase are noted and its reports wait for the edge; where its
share is one fragment that ends no packet and its bough has no partial packet, the fragment is the bough's partial packet from then on, and the reassembly timer starts.
-/
def Obligations.UpstreamBursts : Prop := Rules.GrantedBursts ∧ Rules.DataBurstReceived

/-- R101: a partial packet whose timer expires is discarded, and that is counted for its stand and its grove. R115: eight consecutive ticks of light outside every grant set
the rogue flag. R204: a bough that is not FIXED and whose watchdog expires is due for a poll, R219: which a
report of the same edge holds back for the tick. R216: an uncorrectable error of an engine lane is flagged and counted, and a
computation that has not ended is abandoned. -/
def Obligations.EngineAndReceiverEvents : Prop :=
  ∀ (b : Fin 65536) (g : Fin 64) (s : State),
    (∀ i, standOfBough s.cfg b = some i → (s.dev.bough b).part.isSome = true → s.dev.expired .reasm b (s.cfg.get Fields.GRV_US_CTRL_reasm_ticks (groveOf i)) = true →
      RunsTo (.reasmTimeout b) s (fun d => (d.bough b).part = none ∧ d.armed .reasm b = false ∧
        CountedOnly s.dev d [(.stand, .reasmTimeout, i), (.grove, .reasmTimeout, groveOf i)] ∧ EntriesKept s.dev.boughs d.boughs [b.val] ∧
        EntriesKept s.dev.timers d.timers [timerKey .reasm b] ∧ d = { s.dev with cnt := d.cnt, boughs := d.boughs, timers := d.timers })) ∧
    (8 ≤ s.dev.run .light g → s.dev.flag Fields.GRV_US_STATUS_rogue g = false →
      RunsTo (.rogue g) s (fun d => d.flag Fields.GRV_US_STATUS_rogue g = true ∧ StatusKept s.dev d [(Fields.GRV_US_STATUS_rogue, g)] ∧
        d = { s.dev with sts := d.sts })) ∧
    ((standOfBough s.cfg b).isSome = true → boughType s.cfg b ≠ .fixed → s.cfg.get Fields.BGH_POLL_poll_int b ≠ 0 →
      s.dev.expired .poll b (s.cfg.get Fields.BGH_POLL_poll_int b) = true →
      RunsTo (.pollDue b) s (fun d => d.bough b =
          { s.dev.bough b with pollDue := true, pollHold := (s.dev.bough b).request == 0 && decide (0 < requestOf (s.dev.bough b)) } ∧ EntriesKept s.dev.boughs d.boughs [b.val] ∧
        d = { s.dev with boughs := d.boughs })) ∧
    RunsTo (.engEccFatal g) s (fun d => d.flag Fields.GNT_LANE_ECC_ecc_fatal (g / 4) = true ∧ CountedOnly s.dev d [(.grove, .engEccFatal, g)] ∧
      ((s.dev.grove g).computed = none → (d.grove g).abandoned = true) ∧ EntriesKept s.dev.groves d.groves [g.val] ∧
      StatusKept s.dev d [(Fields.GNT_LANE_ECC_ecc_fatal, g / 4)] ∧ d = { s.dev with sts := d.sts, cnt := d.cnt, groves := d.groves })

/-- R200, R208, R216: a computation that ends in its region for a grove in service gives the map of the next frame the entries that the engine makes of the grove's stands and
boughs, without the twigs of slices whose stand is not ACTIVE; the map and the clock at which the lane finished are recorded. One that the host forces to overrun
gives no map. Step 7 of the edge, if it is still to come, comes first (assumption log 88). -/
def Obligations.GrantComputationEnds : Prop :=
  ∀ (g : Fin 64) (clk : Fin 187500) (s : State) (e : Dev), e = closeEdge s.cfg s.dev →
    ((e.grove g).forceNow = true → RunsTo (.grantComputationDone g clk) s (fun d => (d.grove g).abandoned = true ∧ (d.grove g).forceNow = false ∧
      EntriesKept e.groves d.groves [g.val] ∧ d = { e with groves := d.groves })) ∧
    ((e.grove g).forceNow = false → e.running = true → (e.grove g).inService = true → (e.grove g).abandoned = false →
      (e.grove g).computed = none → clearingAt e g (e.sfc + 1) = none → 1024 ≤ clk.val → clk.val < 150000 →
      (e.grove g).frame.map DsFrame.sfc ≠ some (e.sfc + 1) →
      ∀ es, es = dropIdleSlices e g (engine (engFrame s.cfg e g (e.sfc + 1)) (engStands s.cfg e g (e.sfc + 1))).entries →
      RunsTo (.grantComputationDone g clk) s (fun d =>
        (d.grove g).computed = some { frame := e.sfc + 1, entries := es } ∧ Counted e d .grove .mapsBuilt g 1 ∧
        d.get Fields.GNT_LANE_FINISH_last (g / 4) = clk ∧ EntriesKept e.groves d.groves [g.val] ∧ d.sfc = s.dev.sfc ∧
        d = { e with clock := d.clock, cyc := d.cyc, domA := d.domA, domB := d.domB, sigma := d.sigma, sts := d.sts, cnt := d.cnt, hits := d.hits,
                         groves := d.groves, boughs := d.boughs, timers := d.timers }))

/-- R541, R630: at an edge a grove whose transmitter is on enters service and sends its first frame, which carries the number of the tick, no map, no
message and no packet; a native one is counted (R90). R541: a grove whose transmitter goes
off for another cause than tx_en or parking leaves service, drops a continuation that it owed, which is counted (R84), and its replicas of multicast packets (R379), and its stands keep their states; where it leaves because tx_en is off or its quadrant is parked, every stand of
it is ABSENT. -/
def Obligations.ServiceBeginsAndEnds : Prop :=
  ∀ (g : Fin 64) (s : State),
    ((s.dev.grove g).inService = false → txOn s.cfg s.dev g = true → s.dev.clock = 0 →
      RunsTo (.groveEnterService g) s (fun d => (d.grove g).inService = true ∧ (d.grove g).since = s.dev.sfc ∧
        (∃ fr, d.outbox = .frame g fr (downOfs s.dev g) :: s.dev.outbox ∧ (d.grove g).onAir = some fr ∧ fr.sfc = s.dev.sfc ∧ fr.map = [] ∧ fr.msgs = [] ∧
          fr.frags = []) ∧
        (compat s.cfg g = false → Counted s.dev d .grove .framesSent g 1) ∧
        (compat s.cfg g = true → d.counter .grove .framesSent g = s.dev.counter .grove .framesSent g) ∧ (d.grove g).cont = none ∧ EntriesKept s.dev.groves d.groves [g.val] ∧
        d = { s.dev with sts := d.sts, cnt := d.cnt, groves := d.groves, slices := d.slices, outbox := d.outbox })) ∧
    ((s.dev.grove g).inService = true →
      (∀ k, causeHolds s.cfg s.dev g k = true → k = .safe ∨ k = .quiet ∨ k = .laneLost →
        RunsTo (.groveLeaveService g k) s (fun d => (d.grove g).inService = false ∧ (d.grove g).frame = none ∧ (d.grove g).onAir = none ∧ (d.grove g).cont = none ∧
          Counted s.dev d .grove .contDiscarded g (s.dev.grove g).cont.toList.length ∧ EntriesKept s.dev.groves d.groves [g.val] ∧
          (k = .laneLost → d.flag Fields.LANE_PON_STATUS_tx_ready g = false) ∧ noReplicas d g ∧ d.life = s.dev.life ∧
          (noReplicas s.dev g → StatusKept s.dev d [(Fields.LANE_PON_STATUS_tx_ready, g)] ∧
            d = { s.dev with sts := d.sts, cnt := d.cnt, groves := d.groves, reps := d.reps }))) ∧
      (∀ k, causeHolds s.cfg s.dev g k = true → k = .txDisabled ∨ k = .parked →
        RunsTo (.groveLeaveService g k) s (fun d => ∀ i ∈ s.dev.standsOf g, d.st i = .absent)))

/-! ### The mate (R427 to R453) -/

/-- R428: pairing ends without a pair: the device is UNPAIRED, shows the code and holds no key of the failed pairing. -/
def PairingEnds (s : State) (code : Nat) (d : Dev) : Prop :=
  d.get Fields.MATE_STATUS_pair_state 0 = 0 ∧ d.get Fields.MATE_PAIR_STAT_pair_status 0 = code ∧ d.slots.get? 65282 = none ∧ d.slots.get? 65283 = none ∧
    d.mate.step = 0 ∧ d.armed .pairing 0 = false ∧ EntriesKept s.dev.timers d.timers [timerKey .pairing 0] ∧
    StatusKept s.dev d [(Fields.MATE_STATUS_pair_state, 0), (Fields.MATE_PAIR_STAT_pair_status, 0)] ∧
    d = { s.dev with sts := d.sts, timers := d.timers, mate := d.mate, slots := d.slots, slotMeta := d.slotMeta, ceil := d.ceil, outbox := d.outbox }

/-- R428: pairing fails here with the status, and the mate is told over a link that is up (assumption log 94). -/
def PairingFails (s : State) (st : Status) (d : Dev) : Prop :=
  PairingEnds s st.code d ∧ d.outbox = (if mateUp s.cfg s.dev then .plaxonPair (.fail st.code) :: s.dev.outbox else s.dev.outbox)

/-- The wait for the mate's next message starts afresh (assumption log 94). -/
def WaitsAgain (s : State) (d : Dev) : Prop := d.armed .pairing 0 = true ∧ EntriesKept s.dev.timers d.timers [timerKey .pairing 0]

/-- R428: while PAIRING over a Plaxon west link that is up, the mate's request is answered with the device's identity, grove mask and modes; an identity other than
MATE_PEER_ID fails with ST_INTEGRITY, one with another grove mask or other modes with ST_BAD_VALUE, and one that agrees is answered with a public value; the mate's public
value forms the keys and is answered with the confirmation; a confirmation whose tag fails fails with ST_INTEGRITY, and one that finds groves in service on both devices with
ST_WRONG_STATE. Pairing fails with ST_NOT_READY where the mate's request has not come within 8,000 ticks. A device that fails tells its mate, and one that is told is
UNPAIRED too (the message is the model's, assumption log 94). -/
def Rules.PairingSteps : Prop :=
  ∀ (s : State), s.dev.get Fields.MATE_STATUS_pair_state 0 = 1 →
    (mateUp s.cfg s.dev = true → s.dev.flag Fields.CLK_STRAP_mate_en 0 = true →
      (s.dev.mate.step = 1 → RunsTo (.pairingMessageRx .req) s (fun d => d.mate.step = 2 ∧ d.outbox = .plaxonPair (ownIdentity s.cfg s.dev) :: s.dev.outbox ∧
        WaitsAgain s d ∧ d = { s.dev with mate := d.mate, timers := d.timers, outbox := d.outbox })) ∧
      (∀ code, RunsTo (.pairingMessageRx (.fail code)) s (fun d => PairingEnds s code d ∧ d.outbox = s.dev.outbox)) ∧
      (∀ id lo hi modes, s.dev.mate.step = 2 →
        (id ≠ peerId s.cfg → RunsTo (.pairingMessageRx (.identity id lo hi modes)) s (PairingFails s .integrity)) ∧
        (id = peerId s.cfg → (lo ≠ s.cfg.get Fields.MATE_GRV_EN_LO_groves_lo 0 ∨ hi ≠ s.cfg.get Fields.MATE_GRV_EN_HI_groves_hi 0 ∨
            modes ≠ ((List.range 64).filter (fun g => (pairMask s.cfg).testBit g)).map (fun g => (g, s.cfg.word .GRV_MODE g % 4, tLoop s.dev g))) →
          RunsTo (.pairingMessageRx (.identity id lo hi modes)) s (PairingFails s .badValue)) ∧
        (id = peerId s.cfg → lo = s.cfg.get Fields.MATE_GRV_EN_LO_groves_lo 0 → hi = s.cfg.get Fields.MATE_GRV_EN_HI_groves_hi 0 →
          modes = ((List.range 64).filter (fun g => (pairMask s.cfg).testBit g)).map (fun g => (g, s.cfg.word .GRV_MODE g % 4, tLoop s.dev g)) →
          RunsTo (.pairingMessageRx (.identity id lo hi modes)) s (fun d => d.mate.step = 3 ∧ d.mate.peerGroves = hi * 2 ^ 32 + lo ∧
            d.outbox = .plaxonPair (.publicValue (publicOf d.mate.scalar)) :: s.dev.outbox ∧
            WaitsAgain s d ∧ d = { s.dev with mate := d.mate, timers := d.timers, outbox := d.outbox, free := d.free }))) ∧
      (∀ v, s.dev.mate.step = 3 → RunsTo (.pairingMessageRx (.publicValue v)) s (fun d => d.mate.step = 4 ∧ d.mate.peerPub = v ∧
        (d.slots.get? 65282).isSome = true ∧ (d.slots.get? 65283).isSome = true ∧ EntriesKept s.dev.slots d.slots [65282, 65283] ∧
        d.outbox = .plaxonPair (.confirm (confirmTag d deviceId (anyInService s.dev) s.dev.sfc) (anyInService s.dev) s.dev.sfc) :: s.dev.outbox ∧
        WaitsAgain s d ∧ d = { s.dev with mate := d.mate, timers := d.timers, outbox := d.outbox, slots := d.slots, slotMeta := d.slotMeta })) ∧
      (∀ tag up n, s.dev.mate.step = 4 →
        (tag ≠ confirmTag s.dev (peerId s.cfg) up n → RunsTo (.pairingMessageRx (.confirm tag up n)) s (PairingFails s .integrity)) ∧
        (tag = confirmTag s.dev (peerId s.cfg) up n → anyInService s.dev = true → up = true →
          RunsTo (.pairingMessageRx (.confirm tag up n)) s (PairingFails s .wrongState)))) ∧
    (s.dev.mate.step = 1 → s.dev.expired .pairing 0 8000 = true → RunsTo .pairTimeout s (PairingFails s .notReady))

/-- R428, steps 5 and 6, R429: at the confirmation a device with a grove in service is ACTIVE and the reference device, and one whose mate has a grove in service, or whose
identity is the higher where neither has, is STANDBY, takes the superframe number and has MATE as its phase source; the new keys take the places of the old ones. R157: the
stand positions of the standby's paired groves start ABSENT, whatever its own keep store held (assumption log 94). -/
def Rules.PairingDecides : Prop :=
  ∀ (tag : Nat) (up : Bool) (n : Nat) (s : State), tag = confirmTag s.dev (peerId s.cfg) up n → s.dev.get Fields.MATE_STATUS_pair_state 0 = 1 → mateUp s.cfg s.dev = true → s.dev.flag Fields.CLK_STRAP_mate_en 0 = true →
    s.dev.mate.step = 4 →
    ((anyInService s.dev = true ∧ up = false ∨ anyInService s.dev = false ∧ up = false ∧ deviceId < peerId s.cfg) →
      RunsTo (.pairingMessageRx (.confirm tag up n)) s (fun d => d.get Fields.MATE_STATUS_pair_state 0 = 2 ∧ d.get Fields.MATE_STATUS_role 0 = 1 ∧
        d.flag Fields.MATE_STATUS_reference 0 = true ∧ d.get Fields.MATE_LAST_CAUSE_cause 0 = 5 ∧ d.sfc = s.dev.sfc ∧
        d.slots.get? 65280 = some (s.dev.slots.getD 65282 0) ∧ d.slots.get? 65281 = some (s.dev.slots.getD 65283 0) ∧ d.slots.get? 65282 = none ∧
        EntriesKept s.dev.slots d.slots [65280, 65281, 65282, 65283])) ∧
    (anyInService s.dev = false → (up = true ∨ ¬ deviceId < peerId s.cfg) →
      ∃ c d, exec (.pairingMessageRx (.confirm tag up n)) s = .next { s with cfg := c, dev := d } ∧ d.get Fields.MATE_STATUS_pair_state 0 = 2 ∧
        d.get Fields.MATE_STATUS_role 0 = 2 ∧ d.flag Fields.MATE_STATUS_reference 0 = false ∧ d.sfc = n ∧ c.get Fields.TICK_CTRL_phase_src 0 = 2 ∧
        WordsKept s.cfg c [(.TICK_CTRL, 0)] ∧ (∀ i, pairedGrove c d (groveOf i) = true → (s.dev.life.get? i).isSome = true → d.st i = .absent))

/-- R428: while PAIRING over a Plaxon west link that is up, the mate's request is answered with the device's identity, grove mask and modes; an identity other than
MATE_PEER_ID fails with ST_INTEGRITY, one with another grove mask or other modes with ST_BAD_VALUE, and one that agrees is answered with a public value; the mate's public
value forms the keys and is answered with the confirmation; a confirmation whose tag fails fails with ST_INTEGRITY, and one that finds groves in service on both devices
with ST_WRONG_STATE. Pairing fails with ST_NOT_READY where the mate's request has not come within 8,000 ticks. A device that fails tells its mate, and one that is told is
UNPAIRED too (the message is the model's, assumption log 94). R428, steps 5 and 6, R429: at the confirmation a device with a grove in service is ACTIVE and the reference
device, and one whose mate has a grove in service, or whose identity is the higher where neither has, is STANDBY, takes the superframe number and has MATE as its phase
source; the new keys take the places of the old ones. R157: the stand positions of the standby's paired groves start ABSENT, whatever its own keep store held (assumption
log 94). -/
def Obligations.MatePairing : Prop := Rules.PairingSteps ∧ Rules.PairingDecides

/-- R430, R441: a mirror frame with a good tag is counted, is a heartbeat for the Plaxon path and waits for the edge; one whose tag fails is counted and discarded; an edge on
HB_IN is a heartbeat for the pin path. A path whose watchdog of 3 ticks expires is silent. -/
def Rules.MateHeartbeats : Prop :=
  ∀ (m : MirrorFrame) (s : State), s.dev.isPaired = true →
    (mateUp s.cfg s.dev = true → m.tag = mirrorTag s.dev m →
      RunsTo (.mirrorFrameRx m) s (fun d => d.mate = { s.dev.mate with frames := s.dev.mate.frames ++ [m] } ∧
        (∀ t, s.dev.timers.get? (timerKey .plaxonSilent 0) = some t → d.timers.get? (timerKey .plaxonSilent 0) = some { t with arr := true }) ∧
        CountedOnly s.dev d [(.device, .mirrorRx, 0)] ∧ EntriesKept s.dev.timers d.timers [timerKey .plaxonSilent 0, timerKey .alignSrc 0] ∧
        d = { s.dev with cnt := d.cnt, timers := d.timers, mate := d.mate })) ∧
    (mateUp s.cfg s.dev = true → m.tag ≠ mirrorTag s.dev m →
      RunsTo (.mirrorFrameRx m) s (fun d => CountedOnly s.dev d [(.device, .mirrorAuthFail, 0)] ∧ d = { s.dev with cnt := d.cnt })) ∧
    (∀ t, s.dev.timers.get? (timerKey .pinSilent 0) = some t →
      RunsTo .hbInEdge s (fun d => d.timers.get? (timerKey .pinSilent 0) = some { t with arr := true } ∧
        EntriesKept s.dev.timers d.timers [timerKey .pinSilent 0] ∧ d = { s.dev with timers := d.timers })) ∧
    (s.dev.expired .plaxonSilent 0 3 = true → s.dev.flag Fields.MATE_STATUS_plaxon_silent 0 = false →
      RunsTo .plaxonSilent s (fun d => d.flag Fields.MATE_STATUS_plaxon_silent 0 = true ∧ CountedOnly s.dev d [(.device, .plaxonSilentEvents, 0)] ∧
        StatusKept s.dev d [(Fields.MATE_STATUS_plaxon_silent, 0)] ∧ d = { s.dev with sts := d.sts, cnt := d.cnt })) ∧
    (s.dev.expired .pinSilent 0 3 = true → s.dev.flag Fields.MATE_STATUS_pin_silent 0 = false →
      RunsTo .pinSilent s (fun d => d.flag Fields.MATE_STATUS_pin_silent 0 = true ∧ CountedOnly s.dev d [(.device, .pinSilentEvents, 0)] ∧
        StatusKept s.dev d [(Fields.MATE_STATUS_pin_silent, 0)] ∧ d = { s.dev with sts := d.sts, cnt := d.cnt }))

/-- R432: a device that has applied the whole transfer sets sync_done. R439: at the edge that judges frame t + 7 a new active adds to w of each paired grove the mean of the
phases that it has summed up, clamped to ofs_max, and has learned it. -/
def Rules.SyncAndOffsets : Prop :=
  ∀ s : State,
    (s.dev.isPaired = true → s.dev.mate.bulkEnd = true →
      RunsTo .syncDone s (fun d => d.flag Fields.MATE_STATUS_sync_done 0 = true ∧ StatusKept s.dev d [(Fields.MATE_STATUS_sync_done, 0)] ∧
        d = { s.dev with sts := d.sts })) ∧
    (∀ t, s.dev.mate.learnFrom = some t → s.dev.role = 1 → t + 8 + pairedLoop s.cfg s.dev ≤ s.dev.sfc →
      RunsTo .offsetLearn s (fun d => d.mate.learnFrom = none ∧ EntriesKept s.dev.mate.ofs d.mate.ofs (pairedGroves s.cfg s.dev) ∧
        (∀ g ∈ pairedGroves s.cfg s.dev, d.ofs g =
          { s.dev.ofs g with w := clampOfs s.cfg ((s.dev.ofs g).w + (s.dev.ofs g).sum.tdiv (s.dev.ofs g).num), learned := true, sum := 0, num := 0 }) ∧
        d = { s.dev with mate := d.mate }))

/-- R430, R441: a mirror frame with a good tag is counted, is a heartbeat for the Plaxon path and waits for the edge; one whose tag fails is counted and discarded; an
edge on HB_IN is a heartbeat for the pin path. A path whose watchdog of 3 ticks expires is silent. R432: a device that has applied the whole transfer sets sync_done.
R439: at the edge that judges frame t + 7 a new active adds to w of each paired grove the mean of the phases that it has summed up, clamped to ofs_max, and has learned
it. -/
def Obligations.MateFollowing : Prop := Rules.MateHeartbeats ∧ Rules.SyncAndOffsets

/-- A device stands down: no grove is in service, each drops a continuation that it owed, which is counted (R84), and its replicas (R379); where no grove holds a replica,
beside these only the listed counters have gone up and nothing else changes. -/
def StandsDown (s : State) (cs : List (Fam × Ctr × Nat)) (d : Dev) : Prop :=
  (∀ g, (d.grove g).inService = false ∧ (d.grove g).cont = none) ∧ (∀ g, (s.dev.groves.get? g).isSome = true → noReplicas d g) ∧
    (∀ p ∈ cs, Counted s.dev d p.1 p.2.1 p.2.2 1) ∧
    ((∀ g, noReplicas s.dev g) →
      EntriesKept s.dev.cnt d.cnt (cs.map (fun p => ctrKey p.1 p.2.1 p.2.2) ++ s.dev.groves.map (fun x => ctrKey .grove .contDiscarded x.1)) ∧
      d = { s.dev with sts := d.sts, cnt := d.cnt, groves := d.groves, timers := d.timers, mate := d.mate, reps := d.reps })

/-- R442, R443: a standby with sync_done and auto_takeover whose two paths are silent and that sees no active master becomes ACTIVE at the edge, and the takeover is counted;
R444: one that a witness frame shows an active master goes back to STANDBY, raises split_alarm, counts the withdrawal and has no grove in service. -/
def Obligations.TakeoverAndWithdrawal : Prop :=
  ∀ s : State,
    (s.dev.running = true → s.dev.isStandby = true → s.dev.flag Fields.MATE_STATUS_sync_done 0 = true → s.cfg.flag Fields.MATE_CTRL_auto_takeover 0 = true →
      s.dev.expired .plaxonSilent 0 3 = true → s.dev.expired .pinSilent 0 3 = true → s.dev.flag Fields.MATE_STATUS_fibre_master 0 = false →
      s.dev.clock = 0 →
      ¬ (s.dev.get Fields.MATE_LAST_CAUSE_cause 0 = 2 ∧
        s.dev.get Fields.MATE_LAST_SFC_HI_sfc_hi 0 * 2 ^ 32 + s.dev.get Fields.MATE_LAST_SFC_LO_sfc_lo 0 = s.dev.sfc) →
      RunsTo .takeover s (fun d => d.get Fields.MATE_STATUS_role 0 = 1 ∧ d.get Fields.MATE_LAST_CAUSE_cause 0 = 1 ∧ d.mate.tookAt = some s.dev.sfc ∧
        d.mate.witness = true ∧ d.mate.held = [] ∧ Counted s.dev d .device .takeovers 0 1)) ∧
    (∀ t, s.dev.mate.tookAt = some t → s.dev.role = 1 → s.dev.mate.witness = true → s.dev.flag Fields.MATE_STATUS_fibre_master 0 = true → t < s.dev.sfc →
      s.dev.sfc ≤ t + pairedLoop s.cfg s.dev →
      RunsTo .takeoverWithdraw s (fun d => d.get Fields.MATE_STATUS_role 0 = 2 ∧ d.get Fields.MATE_LAST_CAUSE_cause 0 = 2 ∧
        d.flag Fields.MATE_STATUS_split_alarm 0 = true ∧ StandsDown s [(.device, .splitAlarms, 0), (.device, .takeoverWithdrawn, 0)] d ∧ d.mate.tookAt = none))

/-- R446, R447, R448, R449, R451: a due do-si-do is proposed for the edge 64 on, unless one waits already; the standby answers it; at the swap edge the ACTIVE becomes STANDBY
and the STANDBY becomes ACTIVE, and the do-si-do is counted, unless the mate has died; a new active that finds a fault in its first frames gives the role back, counts it and
stops with dsd_fault, and keeps the role where its mate is dead; the old one takes the role again at the failing edge, or once the mate's mirror frame shows it (how it learns
of the fault is the model's choice, assumption log 94). -/
def Obligations.DoSiDo : Prop :=
  ∀ s : State,
    (s.cfg.flag Fields.MATE_CTRL_dsd_en 0 = true → dsdDue s.cfg s.dev = true → mayPropose s.dev = true → s.dev.mate.swapAt = none →
      RunsTo .dsdPropose s (fun d => d = { s.dev with mate := { s.dev.mate with swapAt := some (s.dev.sfc + 64), swapOk := none } })) ∧
    (s.dev.isPaired = true → s.dev.isStandby = true → s.dev.mate.swapAt.isSome = true → s.dev.mate.swapOk = none →
      RunsTo .dsdAnswer s (fun d => ∃ b, d = { s.dev with mate := { s.dev.mate with swapOk := some b } } ∧
        (b = true ↔ s.dev.flag Fields.MATE_STATUS_sync_done 0 = true ∧ s.dev.flag Fields.MATE_STATUS_path_alarm 0 = false ∧ s.dev.mate.differ = [] ∧
          s.dev.rngGood = true ∧ s.dev.flag Fields.MATE_STATUS_dsd_fault 0 = false ∧
          (∀ g ∈ pairedGroves s.cfg s.dev, s.dev.flag Fields.LANE_PON_STATUS_tx_ready g = true) ∧
          ((∃ p ∈ s.cfg.listed .BUF_Q_CFG, s.cfg.flag Fields.BUF_Q_CFG_shadow_en p.1 = true ∧
            ((p.1 / 8 < mcBase ∧ ∃ i, standOfQueue s.cfg p.1 = some i ∧ groveOf i ∈ pairedGroves s.cfg s.dev) ∨
              (mcBase ≤ p.1 / 8 ∧ ∃ g ∈ groupGroves s.cfg s.dev (p.1 / 8 - mcBase), g ∈ pairedGroves s.cfg s.dev))) → s.dev.deepState = 1) ∧
          (s.cfg.get Fields.BUF_HOLD_CTRL_replay_mib 0 ≠ 0 → s.dev.holdUp = true)))) ∧
    (mateDead s.dev = true → RunsTo .dsdSwap s (fun d => d = s.dev)) ∧
    (s.dev.isPaired = true → mateDead s.dev = false → s.dev.mate.swapOk = some true → s.dev.mate.swapAt = some s.dev.sfc →
      (s.dev.isStandby = false → RunsTo .dsdSwap s (fun d => d.get Fields.MATE_STATUS_role 0 = 2 ∧ d.get Fields.MATE_LAST_CAUSE_cause 0 = 3 ∧
        StandsDown s [(.device, .dsdDone, 0)] d ∧ d.mate.swapAt = none ∧ d.mate.lastDsd = some s.dev.sfc ∧ d.mate.revert = some s.dev.sfc)) ∧
      (s.dev.isStandby = true → RunsTo .dsdSwap s (fun d => d.get Fields.MATE_STATUS_role 0 = 1 ∧ d.get Fields.MATE_LAST_CAUSE_cause 0 = 3 ∧
        Counted s.dev d .device .dsdDone 0 1 ∧ d.mate.swapAt = none ∧ d.mate.held = [] ∧ d.mate.revert = some s.dev.sfc))) ∧
    (s.dev.role = 1 → mateDead s.dev = true → RunsTo .dsdRevert s (fun d => d = s.dev)) ∧
    (∀ n g, s.dev.mate.revert = some n → s.dev.role = 1 → mateDead s.dev = false → g ∈ pairedGroves s.cfg s.dev → revertCause s.cfg s.dev n g = true →
      RunsTo .dsdRevert s (fun d => d.get Fields.MATE_STATUS_role 0 = 2 ∧ d.get Fields.MATE_LAST_CAUSE_cause 0 = 4 ∧
        d.flag Fields.MATE_STATUS_dsd_fault 0 = true ∧ StandsDown s [(.device, .dsdRevert, 0)] d ∧ d.mate.revert = none)) ∧
    (∀ n, s.dev.mate.revert = some n → s.dev.role = 2 →
      s.dev.mate.peerActive = false ∨ (s.dev.edgeOpen = true ∧ ∃ g ∈ pairedGroves s.cfg s.dev, inRevert s.dev n g = true) →
      RunsTo .dsdRevert s (fun d => d.get Fields.MATE_STATUS_role 0 = 1 ∧ d.get Fields.MATE_LAST_CAUSE_cause 0 = 4 ∧ d.mate.revert = none ∧ d.mate.held = []))

/-! ### Register accesses of the masters (R9 to R13, R34 to R37, R557 to R574, R607) -/

/-- A command completes: it leads to a next state as `P` says. -/
def LeadsTo (c : Instr) (s : State) (P : State → Prop) : Prop := ∃ t, exec c s = .next t ∧ P t

/-- The commands that are a master's write of a whole register: the master, the register with its index, and the word written. -/
inductive Writes (s : State) : Instr → Nat → Reg → Nat → Nat → Prop
  | registerWrite (m : Fin 20) (a : Fin 536870912) (v : Word) (x : RegDesc) (i : Nat) (h : decodeAddr (a.val / 4 * 4) = some (x, i))
      (hp : x.reg = .CLK_PWR → s.dev.isPaired = false) : Writes s (.registerWrite m .bar0 a v 15) m x.reg i v.toNat
  | accWrite (m : Fin 20) (o : Fin 2048) (v : Word) (x : RegDesc) (i : Nat) (h : decodeAddr (accAddr o) = some (x, i)) :
      Writes s (.accWrite m o v) m x.reg i v.toNat
  | alignReq (m : Fin 20) (src : Fin 4) : Writes s (.alignReq m src) m .TICK_CTRL 0 (4 + src)
  | stageHold (m : Fin 20) : Writes s (.stageHold m) m .TICK_STAGE_CTL m 1
  | stageRelease (m : Fin 20) : Writes s (.stageRelease m) m .TICK_STAGE_CTL m 0
  | loopDelay (m : Fin 20) (g : Fin 64) (t : Fin 16) : Writes s (.loopDelayWrite m g t) m .TICK_LOOP_DELAY g t
  | clockSelect (m : Fin 20) (k : Fin 3) (v : Word) : Writes s (.clockSelect m k v) m (selectReg k) 0 v.toNat
  | resume (m : Fin 20) : Writes s (.resume m) m .CLK_CTRL 0 (2 ^ 31)
  | reqState (m : Fin 20) (st : Fin 4) (h : s.dev.isPaired = false) : Writes s (.reqStateWrite m st) m .CLK_PWR 0 (setBits (cfgShown s.cfg .CLK_PWR 0) 0 2 st)
  | parkMask (m : Fin 20) (k : Fin 16) : Writes s (.parkMaskWrite m k) m .CLK_PWR 0 (setBits (cfgShown s.cfg .CLK_PWR 0) 4 4 k)
  | intComplete (m : Fin 20) (f : Fin 16) (v : Fin 64) (n : Fin 4096) : Writes s (.intComplete m f v n) m .INT_COMPLETE (f * 64 + v) n
  | intSrc (m : Fin 20) (n : Fin 4096) (v : Word) : Writes s (.intSrcWrite m n v) m .INT_SRC n v.toNat
  | flashRead (m : Fin 20) (n : Fin 512) : Writes s (.flashRead m n) m .CFG_FLASH_CMD 0 (2 ^ 31 + 2 ^ 28 + n)
  | flashProgram (m : Fin 20) (n : Fin 512) : Writes s (.flashProgram m n) m .CFG_FLASH_CMD 0 (2 ^ 31 + 2 * 2 ^ 28 + n)
  | flashErase (m : Fin 20) : Writes s (.flashErase m) m .CFG_FLASH_CMD 0 (2 ^ 31 + 3 * 2 ^ 28)
  | cfgCheck (m : Fin 20) (k : Fin 2) : Writes s (.cfgCheck m k) m .CFG_CHECK 0 (2 ^ 31 + 256 * k)
  | timeSet (m : Fin 20) (x : Fin 2) : Writes s (.timeSet m x) m .TIME_X_CMD x (2 ^ 31 + 1)
  | timeAdj (m : Fin 20) (x : Fin 2) : Writes s (.timeAdj m x) m .TIME_X_CMD x (2 ^ 31 + 2)
  | freq (m : Fin 20) (x : Fin 2) (v : Word) : Writes s (.freqWrite m x v) m .TIME_X_FREQ x v.toNat
  | timeTx (m : Fin 20) (v : Word) : Writes s (.timeTxInject m v) m .TIME_TX_CTRL 0 (v.toNat ||| 2 ^ 31)
  | capPop (m : Fin 20) : Writes s (.capPop m) m .TIME_CAP_STAT 0 (2 ^ 31)
  | rekey (m : Fin 20) (i : Fin 16384) : Writes s (.rekey m i) m .KEY_CMD 0 (2 ^ 31 + 1 * 2 ^ 24 + i % 65536)
  | unwrap (m : Fin 20) (v : Word) : Writes s (.unwrap m v) m .KEY_CMD 0 (2 ^ 31 + 2 * 2 ^ 24 + v.toNat % 65536)
  | erase (m : Fin 20) (v : Word) : Writes s (.erase m v) m .KEY_CMD 0 (2 ^ 31 + 3 * 2 ^ 24 + v.toNat % 65536)
  | seal (m : Fin 20) (v : Word) : Writes s (.seal m v) m .KEY_CMD 0 (2 ^ 31 + 4 * 2 ^ 24 + v.toNat % 65536)
  | openCmd (m : Fin 20) (v : Word) : Writes s (.openCmd m v) m .KEY_CMD 0 (2 ^ 31 + 5 * 2 ^ 24 + v.toNat % 65536)
  | hmac (m : Fin 20) (v : Word) : Writes s (.hmac m v) m .KEY_CMD 0 (2 ^ 31 + 6 * 2 ^ 24 + v.toNat % 65536)
  | pub (m : Fin 20) (v : Word) : Writes s (.pub m v) m .KEY_CMD 0 (2 ^ 31 + 7 * 2 ^ 24 + v.toNat % 65536)
  | groupRekey (m : Fin 20) (v : Word) : Writes s (.groupRekey m v) m .KEY_CMD 0 (2 ^ 31 + 8 * 2 ^ 24 + v.toNat % 65536)
  | pairReq (m : Fin 20) : Writes s (.pairReq m) m .MATE_CTRL 0 (cfgShown s.cfg .MATE_CTRL 0 ||| 2 ^ 31)
  | unpair (m : Fin 20) : Writes s (.unpair m) m .MATE_CTRL 0 (cfgShown s.cfg .MATE_CTRL 0 ||| 2 ^ 30)
  | dsdNow (m : Fin 20) : Writes s (.dsdNow m) m .MATE_CTRL 0 (cfgShown s.cfg .MATE_CTRL 0 ||| 2 ^ 29)
  | cntWinSel (m : Fin 20) (v : Word) : Writes s (.cntWinSel m v) m .CNT_WIN_SEL m v.toNat
  | smpPop (m : Fin 20) (p : Fin 32) : Writes s (.smpPop m p) m .CNT_SMP_POP p (2 ^ 31)
  | portEnable (m : Fin 20) (l : Fin 64) (v : Word) : Writes s (.portEnable m l v) m .LANE_UP_CFG l v.toNat
  | txEq (m : Fin 20) (l : Fin 64) (v : Word) : Writes s (.txEqWrite m l v) m .LANE_TX_EQ l v.toNat
  | loopback (m : Fin 20) (l : Fin 64) (v : Word) : Writes s (.loopbackTestWrite m l v) m .LANE_TEST l v.toNat
  | txEn (m : Fin 20) (g : Fin 64) (v : Word) : Writes s (.txEnWrite m g v) m .LANE_PON_CTRL g v.toNat
  | plaxonEnable (m : Fin 20) (p : Fin 2) (v : Word) : Writes s (.plaxonEnable m p v) m .LANE_PLX_CTRL p v.toNat
  | precoder (m : Fin 20) (g : Fin 64) (v : Word) : Writes s (.precoderEnable m g v) m .GRV_DS_CTRL g v.toNat
  | rssiArm (m : Fin 20) (g : Fin 64) (v : Word) : Writes s (.rssiArm m g v) m .GRV_US_RSSI_CTRL g (v.toNat ||| 2 ^ 31)
  | capArm (m : Fin 20) (g : Fin 64) (v : Word) : Writes s (.capArm m g v) m .GRV_US_CAP_CTRL g (v.toNat ||| 2 ^ 31)
  | clearNow (m : Fin 20) (g : Fin 64) (v : Word) : Writes s (.clearNow m g v) m .GRV_CLEARING_CTRL g (v.toNat ||| 2)
  | reRange (m : Fin 20) (g : Fin 64) (k : Fin 256) : Writes s (.reRange m g k) m .GRV_RNG_CMD g (2 ^ 31 + 2 ^ 16 + k)
  | forget (m : Fin 20) (g : Fin 64) (k : Fin 256) : Writes s (.forget m g k) m .GRV_RNG_CMD g (2 ^ 31 + 2 * 2 ^ 16 + k)
  | relearn (m : Fin 20) (g : Fin 64) (k : Fin 256) : Writes s (.relearn m g k) m .GRV_RNG_CMD g (2 ^ 31 + 3 * 2 ^ 16 + k)
  | admitCmd (m : Fin 20) (i : Fin 16384) : Writes s (.admitCmd m i) m .STD_CMD i (2 ^ 31 + 1)
  | silence (m : Fin 20) (i : Fin 16384) : Writes s (.silence m i) m .STD_CMD i (2 ^ 31 + 2)
  | unsilence (m : Fin 20) (i : Fin 16384) : Writes s (.unsilence m i) m .STD_CMD i (2 ^ 31 + 3)
  | deregister (m : Fin 20) (i : Fin 16384) : Writes s (.deregister m i) m .STD_CMD i (2 ^ 31 + 4)
  | hostMsgTx (m : Fin 20) (g : Fin 64) (k : Fin 256) : Writes s (.hostMsgTx m g k) m .GRV_MSG_TX_CMD g (2 ^ 31 + k)
  | msgRxPop (m : Fin 20) (g : Fin 64) : Writes s (.msgRxPop m g) m .GRV_MSG_RX_STAT g (2 ^ 31)
  | modeSwitch (m : Fin 20) (g : Fin 64) (v : Word) : Writes s (.modeSwitch m g v) m .GRV_MODE g v.toNat
  | omciTx (m : Fin 20) (g : Fin 64) (v : Word) : Writes s (.omciTx m g v) m .GRV_CPT_OMCI_TXCTL g (v.toNat ||| 2 ^ 31)
  | omciRxPop (m : Fin 20) (g : Fin 64) : Writes s (.omciRxPop m g) m .GRV_CPT_OMCI_RXSTAT g (2 ^ 31)
  | boughBind (m : Fin 20) (b : Fin 65536) (v : Word) : Writes s (.boughBind m b v) m .BGH_BIND b v.toNat
  | forceOvr (m : Fin 20) (g : Fin 64) : Writes s (.forceOvr m g) m .GNT_GRV_CTRL g (cfgShown s.cfg .GNT_GRV_CTRL g ||| 2 ^ 31)
  | sliceEnable (m : Fin 20) (k : Fin 2048) (v : Word) : Writes s (.sliceEnable m k v) m .SLC_SL_CTRL k v.toNat
  | connect (m : Fin 20) (v : Word) : Writes s (.sliceConnect m v) m .SLC_CONN_CMD 0 (2 ^ 31 + 2 ^ 28 + v.toNat % 2 ^ 28)
  | disconnect (m : Fin 20) (v : Word) : Writes s (.sliceDisconnect m v) m .SLC_CONN_CMD 0 (2 ^ 31 + 2 * 2 ^ 28 + v.toNat % 2 ^ 28)
  | swapReq (m : Fin 20) : Writes s (.swapReq m) m .SLC_PAGE_CTRL 0 (2 ^ 31)
  | lockout (m : Fin 20) (p : Fin 1024) : Writes s (.lockout m p) m .SLC_PG_CMD p (2 ^ 31 + 1)
  | force (m : Fin 20) (p : Fin 1024) : Writes s (.force m p) m .SLC_PG_CMD p (2 ^ 31 + 2)
  | manual (m : Fin 20) (p : Fin 1024) : Writes s (.manual m p) m .SLC_PG_CMD p (2 ^ 31 + 3)
  | clear (m : Fin 20) (p : Fin 1024) : Writes s (.clear m p) m .SLC_PG_CMD p (2 ^ 31 + 4)
  | rsCopy (m : Fin 20) : Writes s (.rsCopy m) m .PIPE_RS_CTRL 0 (cfgShown s.cfg .PIPE_RS_CTRL 0 ||| 2 ^ 31)
  | rsSwap (m : Fin 20) (b : Fin 2) : Writes s (.rsSwap m b) m .PIPE_RS_CTRL 0 b
  | ringTail (m : Fin 20) (r : Fin 16) (n : Fin 65536) : Writes s (.ringTailWrite m r n) m .TBL_RING_TAIL r n
  | lockAcquire (m : Fin 20) (k : Fin 4) : Writes s (.lockAcquire m k) m .TBL_LOCK k 1
  | lockRelease (m : Fin 20) (k : Fin 4) : Writes s (.lockRelease m k) m .TBL_LOCK k 0
  | forceRelease (m : Fin 20) (k : Fin 4) : Writes s (.forceRelease m k) m .TBL_LOCK k 2
  | winWrite (m : Fin 20) (a : Fin 1048576) : Writes s (.winWrite m a) m .ASC_WIN_CMD 0 (2 ^ 31 + 2 ^ 28 + a)
  | winRead (m : Fin 20) (a : Fin 1048576) : Writes s (.winRead m a) m .ASC_WIN_CMD 0 (2 ^ 31 + 2 * 2 ^ 28 + a)
  | winInsert (m : Fin 20) (a : Fin 1048576) : Writes s (.winInsertBefore m a) m .ASC_WIN_CMD 0 (2 ^ 31 + 3 * 2 ^ 28 + a)
  | bankWidth (m : Fin 20) (b : Fin 256) (v : Word) : Writes s (.bankWidthSet m b v) m .ASC_BANK_CFG b v.toNat
  | casCtrl (m : Fin 20) (v : Word) : Writes s (.casCtrlWrite m v) m .ASC_CAS_CTRL 0 v.toNat
  | poolNear (m : Fin 20) (p : Fin 4) (v : Word) : Writes s (.poolPartition m false p v) m .BUF_POOL_NEAR p v.toNat
  | poolDeep (m : Fin 20) (p : Fin 4) (v : Word) : Writes s (.poolPartition m true p v) m .BUF_POOL_DEEP p v.toNat
  | retrain (m : Fin 20) : Writes s (.retrain m) m .BUF_DEEP_CTRL 0 (2 ^ 31)
  | replayMib (m : Fin 20) (v : Word) : Writes s (.replayMibWrite m v) m .BUF_HOLD_CTRL 0 v.toNat

/-- R10, R34, R37, R561: an accepted write has the status ST_OK in its master's last-status entry; its RW bits are the register's from then on; where the register holds staged
fields the write joins the staging area for the edge that R34 gives, or under the master's hold for none, and until then its staged bits stay as they were; no other register
of the configuration changes. A restart and the tap bounds of R552 have rules of their own. -/
def Obligations.AcceptedWrites : Prop :=
  ∀ (c : Instr) (m : Nat) (r : Reg) (i w : Nat) (s : State), Writes s c m r i w → WriteAccepted s m r i w → ¬ (r = .CLK_CTRL ∧ w.testBit 30 = true) →
    LeadsTo c s (fun t => t.pending = s.pending ∧ (ownEntry m r i = false → t.dev.lastStatus m = Status.ok.code) ∧
      t.cfg.word r i &&& r.rwMask = w &&& r.rwMask ∧
      t.cfg.word r i - (t.cfg.word r i &&& r.rwMask) = s.cfg.word r i - (s.cfg.word r i &&& r.rwMask) ∧
      (r ≠ .LANE_TX_BOUND → WordsKept s.cfg t.cfg [(r, i)]) ∧
      (r ≠ .TICK_STAGE_CTL → r.staged = false → t.cfg.staged = s.cfg.staged) ∧
      (r.staged = true → t.cfg.staged = s.cfg.staged ++ [(
        { master := m, reg := r, idx := i, mask := r.rwsMask, value := w, cyc := s.dev.cyc
          due := if holding s.cfg m then none else some (dueEdge s.dev) } : Staged)]) ∧
      (s.dev.running = true → dueEdge s.dev = if s.dev.clock < 165000 then s.dev.sfc + 1 else s.dev.sfc + 2))

/-- R13, R560, R607: a write that a check rejects changes no register of the configuration and nothing in the staging area, and its status is recorded; so it is with a write
that the start-up state, the access table or the scope stops, where a denied one is also counted and shown as a violation. R493: a paired device rejects a write of the whole of CLK_PWR, and REQ_STATE_WRITE, with ST_MODE whatever the
value. -/
def Obligations.RejectedWrites : Prop :=
  (∀ (m : Fin 20) (s : State), s.dev.isPaired = true → makesAccess m = true →
    (∀ (a : Fin 536870912) (v : Word) (x : RegDesc) (i : Nat), decodeAddr (a.val / 4 * 4) = some (x, i) → x.reg = .CLK_PWR →
      judgeReg s.cfg s.dev m .CLK_PWR i (some v.toNat) = none →
      LeadsTo (.registerWrite m .bar0 a v 15) s (fun t => t.cfg = s.cfg ∧ t.dev.lastStatus m = Status.mode.code)) ∧
    (∀ st : Fin 4, judgeReg s.cfg s.dev m .CLK_PWR 0 (some (setBits (cfgShown s.cfg .CLK_PWR 0) 0 2 st)) = none →
      LeadsTo (.reqStateWrite m st) s (fun t => t.cfg = s.cfg ∧ t.dev.lastStatus m = Status.mode.code))) ∧
  ∀ (c : Instr) (m : Nat) (r : Reg) (i w : Nat) (st : Status) (s : State), Writes s c m r i w → makesAccess m = true → m < 20 →
    (judgeReg s.cfg s.dev m r i (some w) = none → checkReg s.cfg s.looked.dev m r i w = st → st ≠ .ok → ownEntry m r i = false →
      LeadsTo c s (fun t => t.cfg = s.cfg ∧ t.dev.lastStatus m = st.code ∧ t.dev.flag Fields.TOP_LAST_STAT_err_seen m = true)) ∧
    (judgeReg s.cfg s.dev m r i (some w) = some st →
      LeadsTo c s (fun t => t.cfg = s.cfg ∧ t.dev.lastStatus m = st.code ∧
        (st = .denied → (t.dev.get Fields.ACC_VIOL_viol 0).testBit m = true ∧ Counted s.dev t.dev .device .accDenied m 1)))

/-- R37: a master that sets hold accumulates its staged writes: each takes an entry of the staging area, has no edge, and no commit edge takes it out; clearing hold puts all
of them, and no other write, at the edge that R34 gives for that write, as one set. -/
def Obligations.HoldAndRelease : Prop :=
  ∀ (m : Fin 20) (s : State),
    (WriteAccepted s m .TICK_STAGE_CTL m 1 → LeadsTo (.stageHold m) s (fun t => holding t.cfg m = true ∧ t.cfg.staged = s.cfg.staged)) ∧
    (holding s.cfg m = true → ∀ c r i w, Writes s c m r i w → WriteAccepted s m r i w → r.staged = true →
      LeadsTo c s (fun t => ∃ x, t.cfg.staged = s.cfg.staged ++ [x] ∧ x.master = m.val ∧ x.due = none ∧ x.reg = r ∧ x.idx = i ∧
        (m.val ≠ 18 → t.cfg.fill = s.cfg.fill + 1))) ∧
    (s.dev.running = true → ∀ e, LeadsTo (.commitEdge e) s (fun t => (∀ x ∈ s.cfg.staged, x.due = none → x ∈ t.cfg.staged) ∧
      ∀ x ∈ t.cfg.staged, x.dueBy ((s.dev.sfc + 1) % 2 ^ 48) = false)) ∧
    (WriteAccepted s m .TICK_STAGE_CTL m 0 → holding s.cfg m = true →
      LeadsTo (.stageRelease m) s (fun t => holding t.cfg m = false ∧
        t.cfg.staged = s.cfg.staged.map (fun x => if x.master = m.val ∧ x.due = none then { x with due := some (dueEdge s.dev) } else x)))

/-- R179, R114, R123, R132, R148, R152, R154, R186, R223, R237: what the accepted commands of a grove and of a stand do: a trigger or a capture is armed, a clearing is put at
frame n + 2, a ranging twig is due, a keep-store record is forgotten, a preset is unlearned, a stand command waits for the edge, a host message joins its grove's queue, an
OMCI message waits for its frame, an overrun is forced, and a pop removes the oldest entry of its FIFO. -/
def Obligations.LineCommands : Prop :=
  ∀ (m : Fin 20) (g : Fin 64) (k : Fin 256) (i : Fin 16384) (v : Word) (s : State),
    (WriteAccepted s m .GRV_US_RSSI_CTRL g (v.toNat ||| 2 ^ 31) → LeadsTo (.rssiArm m g v) s (fun t => (t.dev.grove g).rssiArm = some (bitsOf v.toNat 0 9) ∧
      EntriesKept s.dev.groves t.dev.groves [g.val])) ∧
    (WriteAccepted s m .GRV_US_CAP_CTRL g (v.toNat ||| 2 ^ 31) → LeadsTo (.capArm m g v) s (fun t => (t.dev.grove g).capArm = true ∧
      t.dev.flag Fields.GRV_US_CAP_CTRL_cap_done g = false ∧ EntriesKept s.dev.groves t.dev.groves [g.val])) ∧
    (WriteAccepted s m .GRV_CLEARING_CTRL g (v.toNat ||| 2) → LeadsTo (.clearNow m g v) s (fun t => (t.dev.grove g).clearAt = (s.dev.grove g).clearAt ++ [s.dev.sfc + 2] ∧
      EntriesKept s.dev.groves t.dev.groves [g.val])) ∧
    (WriteAccepted s m .GRV_RNG_CMD g (2 ^ 31 + 2 ^ 16 + k) → LeadsTo (.reRange m g k) s (fun t =>
      t.dev.rngOf (standId g k) = { s.dev.rngOf (standId g k) with twigDue := true } ∧ EntriesKept s.dev.rng t.dev.rng [standId g k])) ∧
    (WriteAccepted s m .GRV_RNG_CMD g (2 ^ 31 + 2 * 2 ^ 16 + k) → LeadsTo (.forget m g k) s (fun t => t.dev.keep.get? (standId g k) = none ∧
      EntriesKept s.dev.keep t.dev.keep [standId g k])) ∧
    (WriteAccepted s m .GRV_RNG_CMD g (2 ^ 31 + 3 * 2 ^ 16 + k) → LeadsTo (.relearn m g k) s (fun t => (t.dev.rngOf (standId g k)).learned = false ∧
      EntriesKept s.dev.rng t.dev.rng [standId g k])) ∧
    (WriteAccepted s m .STD_CMD i (2 ^ 31 + 1) → LeadsTo (.admitCmd m i) s (fun t => (t.dev.lifeOf i).cmds = (s.dev.lifeOf i).cmds ++ [.admitCmd] ∧
      t.dev.st i = s.dev.st i ∧ EntriesKept s.dev.life t.dev.life [i.val])) ∧
    (WriteAccepted s m .STD_CMD i (2 ^ 31 + 2) → LeadsTo (.silence m i) s (fun t => (t.dev.lifeOf i).cmds = (s.dev.lifeOf i).cmds ++ [.silence] ∧
      t.dev.st i = s.dev.st i ∧ EntriesKept s.dev.life t.dev.life [i.val])) ∧
    (WriteAccepted s m .STD_CMD i (2 ^ 31 + 3) → LeadsTo (.unsilence m i) s (fun t => (t.dev.lifeOf i).cmds = (s.dev.lifeOf i).cmds ++ [.unsilence] ∧
      t.dev.st i = s.dev.st i ∧ EntriesKept s.dev.life t.dev.life [i.val])) ∧
    (WriteAccepted s m .STD_CMD i (2 ^ 31 + 4) → LeadsTo (.deregister m i) s (fun t => (t.dev.lifeOf i).cmds = (s.dev.lifeOf i).cmds ++ [.deregister] ∧
      t.dev.st i = s.dev.st i ∧ EntriesKept s.dev.life t.dev.life [i.val])) ∧
    (WriteAccepted s m .GRV_MSG_TX_CMD g (2 ^ 31 + k) → LeadsTo (.hostMsgTx m g k) s (fun t =>
      (∃ x, (t.dev.grove g).msgQ = (s.dev.grove g).msgQ ++ [x] ∧ x.ty = 0x12 ∧ x.stand = k.val ∧ x.host = true) ∧ EntriesKept s.dev.groves t.dev.groves [g.val])) ∧
    (WriteAccepted s m .GRV_CPT_OMCI_TXCTL g (v.toNat ||| 2 ^ 31) → LeadsTo (.omciTx m g v) s (fun t =>
      ((t.dev.grove g).omciTx.map Prod.fst) = some (standId g (bitsOf v.toNat 0 9)) ∧ EntriesKept s.dev.groves t.dev.groves [g.val])) ∧
    (WriteAccepted s m .GNT_GRV_CTRL g (cfgShown s.cfg .GNT_GRV_CTRL g ||| 2 ^ 31) → LeadsTo (.forceOvr m g) s (fun t =>
      (s.dev.clock < 1024 → (t.dev.grove g).forceNow = true) ∧ (1024 ≤ s.dev.clock → (t.dev.grove g).forceNext = true) ∧
      EntriesKept s.dev.groves t.dev.groves [g.val])) ∧
    (WriteAccepted s m .GRV_MSG_RX_STAT g (2 ^ 31) → LeadsTo (.msgRxPop m g) s (fun t => (t.dev.grove g).rxFifo = (s.dev.grove g).rxFifo.drop 1 ∧
      EntriesKept s.dev.groves t.dev.groves [g.val])) ∧
    (WriteAccepted s m .GRV_CPT_OMCI_RXSTAT g (2 ^ 31) → LeadsTo (.omciRxPop m g) s (fun t => (t.dev.grove g).omciRx = (s.dev.grove g).omciRx.drop 1 ∧
      EntriesKept s.dev.groves t.dev.groves [g.val]))

/-- R51, R424, R428, R446, R456 to R466, R489, R502, R522, R596: what the accepted commands of the clocks, the flash, the time domains, the key engine, the mate and the sampler
do: the device is aligned, or restarts, or is to resume; a flash operation, an image check or a key operation runs; a domain takes its set value or its adjustment; a message
waits to be injected; a stand's agreement is queued, or its Key_Control request on a compatibility grove; the device pairs, is to unpair, or proposes a swap; and a pop removes the oldest record. -/
def Obligations.DeviceCommands : Prop :=
  ∀ (m : Fin 20) (v : Word) (s : State),
    (∀ src : Fin 4, WriteAccepted s m .TICK_CTRL 0 (4 + src) → LeadsTo (.alignReq m src) s (fun t => t.dev.flag Fields.TICK_STATUS_aligned 0 = true ∧
      t.cfg.get Fields.TICK_CTRL_phase_src 0 = src ∧ (s.dev.running = false → t.dev.clock = s.dev.clock) ∧ (s.dev.running = true → t.dev.clock < 187500) ∧
      (s.dev.running = true → (phaseSrc s.cfg = src ∨ (phaseSrc s.cfg ≠ 2 ∧ src.val ≠ 2)) → ∀ p, s.dev.srcEdge = some p →
        t.dev.clock = (s.dev.clock + (187500 - (p + if src.val = 1 then s.cfg.get Fields.TICK_TICKIN_OFFSET_tick_in_offset 0 else 0) % 187500)) % 187500))) ∧
    (WriteAccepted s m .CLK_CTRL 0 (2 ^ 31) → LeadsTo (.resume m) s (fun t => t.dev.resumeReq = true)) ∧
    (WriteAccepted s m .CLK_CTRL 0 (2 ^ 30) → LeadsTo (.restart m) s (fun t => t.cfg = Cfg.reset ∧ t.dev.phase = .held ∧ t.dev.slots = s.dev.slots ∧
      t.dev.keep = s.dev.keep ∧ t.dev.get Fields.CLK_BOOT_boot_cause 0 = 1 ∧ t.dev.queues = [] ∧ t.dev.life = [])) ∧
    (∀ n : Fin 512, WriteAccepted s m .CFG_FLASH_CMD 0 (2 ^ 31 + 2 ^ 28 + n) → LeadsTo (.flashRead m n) s (fun t =>
      t.dev.flashOp = some (.read (s.cfg.get Fields.CFG_FLASH_ADDR_addr 0) n) ∧ t.dev.flag Fields.CFG_FLASH_STAT_busy 0 = true ∧ t.dev.flash = s.dev.flash)) ∧
    (∀ n : Fin 512, WriteAccepted s m .CFG_FLASH_CMD 0 (2 ^ 31 + 2 * 2 ^ 28 + n) → LeadsTo (.flashProgram m n) s (fun t =>
      t.dev.flashOp = some (.program (s.cfg.get Fields.CFG_FLASH_ADDR_addr 0) ((wordBytes (s.cfg.words .CFG_FLASH_BUF 64)).take n)) ∧
      t.dev.flag Fields.CFG_FLASH_STAT_busy 0 = true ∧ t.dev.flash = s.dev.flash)) ∧
    (WriteAccepted s m .CFG_FLASH_CMD 0 (2 ^ 31 + 3 * 2 ^ 28) → LeadsTo (.flashErase m) s (fun t =>
      t.dev.flashOp = some (.erase (s.cfg.get Fields.CFG_FLASH_ADDR_addr 0)) ∧ t.dev.flag Fields.CFG_FLASH_STAT_busy 0 = true ∧ t.dev.flash = s.dev.flash)) ∧
    (∀ k : Fin 2, WriteAccepted s m .CFG_CHECK 0 (2 ^ 31 + 256 * k) → LeadsTo (.cfgCheck m k) s (fun t =>
      t.dev.flashOp = some (.check k) ∧ t.dev.flag Fields.CFG_CHECK_busy 0 = true)) ∧
    (∀ x : Fin 2, (WriteAccepted s m .TIME_X_CMD x (2 ^ 31 + 1) → LeadsTo (.timeSet m x) s (fun t =>
        t.dev.dom x = { set := true, t := setValue s.cfg x, left := 0 } ∧ t.dev.dom (1 - x) = s.dev.dom (1 - x))) ∧
      (WriteAccepted s m .TIME_X_CMD x (2 ^ 31 + 2) → LeadsTo (.timeAdj m x) s (fun t =>
        t.dev.dom x = { s.dev.dom x with left := signed 32 (s.cfg.get Fields.TIME_X_ADJ_adj x) * (nsUnits : Int) } ∧ t.dev.dom (1 - x) = s.dev.dom (1 - x)))) ∧
    (WriteAccepted s m .TIME_TX_CTRL 0 (v.toNat ||| 2 ^ 31) → LeadsTo (.timeTxInject m v) s (fun t => t.dev.txMsg = some
      { port := bitsOf v.toNat 24 6, onestep := bitsOf v.toNat 30 1 == 1, bytes := (wordBytes (s.cfg.words .TIME_TX_BUF 256)).take (bitsOf v.toNat 0 11) })) ∧
    (WriteAccepted s m .TIME_CAP_STAT 0 (2 ^ 31) → LeadsTo (.capPop m) s (fun t => t.dev.caps = s.dev.caps.drop 1)) ∧
    (∀ i : Fin 16384, WriteAccepted s m .KEY_CMD 0 (2 ^ 31 + 1 * 2 ^ 24 + i % 65536) → compat s.cfg (groveOf i) = true →
      LeadsTo (.rekey m i) s (fun t => (t.dev.grove (groveOf i)).ploamQ = (s.dev.grove (groveOf i)).ploamQ ++
        [{ kind := .keyControl, onu := inGrove i, args := [0, if (s.dev.keysOf i).dataKey = some 1 then 2 else 1] }] ∧
        EntriesKept s.dev.groves t.dev.groves [groveOf i])) ∧
    (∀ i : Fin 16384, WriteAccepted s m .KEY_CMD 0 (2 ^ 31 + 1 * 2 ^ 24 + i % 65536) → compat s.cfg (groveOf i) = false → (s.dev.keysOf i).queued = false → (s.dev.keysOf i).agree = .idle →
      (s.dev.keysOf i).retiring = none → LeadsTo (.rekey m i) s (fun t => (t.dev.keysOf i).queued = true ∧ (t.dev.keysOf i).isRekey = true ∧
        t.dev.keng.queue = s.dev.keng.queue ++ [i.val] ∧ EntriesKept s.dev.keys t.dev.keys [i.val])) ∧
    (∀ c n, (c, n) ∈ [(Instr.unwrap m v, 2), (.erase m v, 3), (.seal m v, 4), (.openCmd m v, 5), (.hmac m v, 6), (.pub m v, 7), (.groupRekey m v, 8)] →
      WriteAccepted s m .KEY_CMD 0 (2 ^ 31 + n * 2 ^ 24 + v.toNat % 65536) → LeadsTo c s (fun t => t.dev.flag Fields.KEY_CMD_STAT_busy 0 = true ∧
        t.dev.keyCmd.map (fun x => (x.op, x.target, x.master)) = some (n, v.toNat % 65536, m.val) ∧ t.dev.slots = s.dev.slots)) ∧
    (WriteAccepted s m .MATE_CTRL 0 (cfgShown s.cfg .MATE_CTRL 0 ||| 2 ^ 31) → cfgShown s.cfg .MATE_CTRL 0 / 2 ^ 29 = 0 → LeadsTo (.pairReq m) s (fun t =>
      t.dev.get Fields.MATE_STATUS_pair_state 0 = 1)) ∧
    (WriteAccepted s m .MATE_CTRL 0 (cfgShown s.cfg .MATE_CTRL 0 ||| 2 ^ 30) → LeadsTo (.unpair m) s (fun t => t.dev.mate.unpairReq = true)) ∧
    (WriteAccepted s m .MATE_CTRL 0 (cfgShown s.cfg .MATE_CTRL 0 ||| 2 ^ 29) → cfgShown s.cfg .MATE_CTRL 0 / 2 ^ 29 = 0 → mayPropose s.dev = true →
      LeadsTo (.dsdNow m) s (fun t => t.dev.mate.swapAt = some (s.dev.sfc + 64))) ∧
    (∀ p : Fin 32, WriteAccepted s m .CNT_SMP_POP p (2 ^ 31) → LeadsTo (.smpPop m p) s (fun t => (t.dev.sampler p).recs = (s.dev.sampler p).recs.drop 1 ∧
      EntriesKept s.dev.samplers t.dev.samplers [p.val]))

/-- R255, R262, R265, R296, R316, R336, R359: what the accepted commands of slices, protection groups, rule-set banks, tables, the associative memory and the deep tier do: a
connection of the standby page is set or cleared, a protection command waits for the edge, a copy runs, a lock is held or free, a window command runs, and the deep tier trains. -/
def Obligations.TrafficCommands : Prop :=
  ∀ (m : Fin 20) (v : Word) (p : Fin 1024) (k : Fin 4) (a : Fin 1048576) (s : State),
    (WriteAccepted s m .SLC_CONN_CMD 0 (2 ^ 31 + 2 ^ 28 + v.toNat % 2 ^ 28) → LeadsTo (.sliceConnect m v) s (fun t =>
      ({ src := bitsOf v.toNat 0 11, leg := bitsOf v.toNat 27 1, dst := bitsOf v.toNat 16 11 } : Conn) ∈
        t.dev.conns.getD (1 - s.dev.get Fields.SLC_PAGE_CTRL_active 0) [] ∧
      EntriesKept s.dev.conns t.dev.conns [1 - s.dev.get Fields.SLC_PAGE_CTRL_active 0])) ∧
    (WriteAccepted s m .SLC_CONN_CMD 0 (2 ^ 31 + 2 * 2 ^ 28 + v.toNat % 2 ^ 28) → LeadsTo (.sliceDisconnect m v) s (fun t =>
      (∀ x ∈ t.dev.conns.getD (1 - s.dev.get Fields.SLC_PAGE_CTRL_active 0) [], ¬ (x.src = bitsOf v.toNat 0 11 ∧ x.leg = bitsOf v.toNat 27 1)) ∧
      EntriesKept s.dev.conns t.dev.conns [1 - s.dev.get Fields.SLC_PAGE_CTRL_active 0])) ∧
    (∀ c n code, (c, n, code) ∈ [(Instr.lockout m p, 1, 0xF), (.force m p, 2, 0xD), (.manual m p, 3, 7), (.clear m p, 4, 0)] →
      WriteAccepted s m .SLC_PG_CMD p (2 ^ 31 + n) → LeadsTo c s (fun t => t.dev.pg p = { s.dev.pg p with cmd := some code } ∧
        EntriesKept s.dev.pgs t.dev.pgs [p.val])) ∧
    (WriteAccepted s m .PIPE_RS_CTRL 0 (cfgShown s.cfg .PIPE_RS_CTRL 0 ||| 2 ^ 31) → LeadsTo (.rsCopy m) s (fun t =>
      t.dev.flag Fields.PIPE_RS_STATUS_copy_busy 0 = true)) ∧
    (WriteAccepted s m .TBL_LOCK k 1 → LeadsTo (.lockAcquire m k) s (fun t => t.dev.lockOf k = some m.val ∧ EntriesKept s.dev.locks t.dev.locks [k.val])) ∧
    (WriteAccepted s m .TBL_LOCK k 0 → LeadsTo (.lockRelease m k) s (fun t => t.dev.lockOf k = none ∧ EntriesKept s.dev.locks t.dev.locks [k.val])) ∧
    (WriteAccepted s m .TBL_LOCK k 2 → LeadsTo (.forceRelease m k) s (fun t => t.dev.lockOf k = none ∧ EntriesKept s.dev.locks t.dev.locks [k.val])) ∧
    (∀ c n, (c, n) ∈ [(Instr.winWrite m a, 1), (.winRead m a, 2), (.winInsertBefore m a, 3)] → WriteAccepted s m .ASC_WIN_CMD 0 (2 ^ 31 + n * 2 ^ 28 + a) →
      LeadsTo c s (fun t => t.dev.winCmd = some { op := n, addr := a, master := m } ∧ t.dev.flag Fields.ASC_WIN_STAT_busy 0 = true ∧ t.dev.asc = s.dev.asc)) ∧
    (WriteAccepted s m .BUF_DEEP_CTRL 0 (2 ^ 31) → LeadsTo (.retrain m) s (fun t => t.dev.training = true))

/-- R9 to R11, R561, R607: a read that passes returns the register and, where the register is the low word of a group, latches the others, and changes nothing else; a read
that the access rules stop returns all ones; a read of an unassigned offset returns zero and is counted; a write there, and a write with some byte enables clear, change
no register and record ST_BAD_INDEX and ST_BAD_VALUE. R179: a read of the third word of a finished message removes it. -/
def Rules.ReadsReturn : Prop :=
  ∀ (m : Fin 20) (a : Fin 536870912) (be : Fin 16) (v : Word) (s : State), makesAccess m = true → be ≠ 0 →
    (∀ x i, decodeAddr (a.val / 4 * 4) = some (x, i) →
      (judgeReg s.cfg s.dev m x.reg i none = none → lowWord x.reg i = none → x.reg ≠ .INT_CLAIM → x.reg ≠ .GRV_MSG_TX_DONE2 →
        RunsTo (.latchedRead m a be) s (fun d => d.outbox = .readData m (addrOf x.reg i) (readReg s.cfg s.dev m x.reg i) :: s.dev.outbox ∧
          (otherWords x.reg = [] → d.latches = s.dev.latches) ∧ d = { s.dev with latches := d.latches, outbox := d.outbox })) ∧
      (∀ st, judgeReg s.cfg s.dev m x.reg i none = some st →
        RunsTo (.latchedRead m a be) s (fun d => d.outbox = .readData m (addrOf x.reg i) 0xFFFFFFFF :: s.dev.outbox ∧ d.lastStatus m = st.code ∧
          d = { s.dev with sts := d.sts, cnt := d.cnt, outbox := d.outbox })) ∧
      (be ≠ 15 → ownEntry m x.reg i = false → judgeAddr s.cfg s.dev m (a.val / 4 * 4) (some v.toNat) = none →
        RunsTo (.registerWrite m .bar0 a v be) s (fun d => d.lastStatus m = Status.badValue.code ∧ d = { s.dev with sts := d.sts }))) ∧
    (decodeAddr (a.val / 4 * 4) = none →
      (judgeAddr s.cfg s.dev m (a.val / 4 * 4) none = none →
        RunsTo (.latchedRead m a be) s (fun d => d.outbox = .readData m (a.val / 4 * 4) 0 :: s.dev.outbox ∧
          CountedOnly s.dev d [(.device, .unassignedAccess, m)] ∧ d = { s.dev with cnt := d.cnt, outbox := d.outbox })) ∧
      (judgeAddr s.cfg s.dev m (a.val / 4 * 4) (some v.toNat) = none →
        RunsTo (.registerWrite m .bar0 a v be) s (fun d => d.lastStatus m = Status.badIndex.code ∧
          CountedOnly s.dev d [(.device, .unassignedAccess, m)] ∧ d = { s.dev with sts := d.sts, cnt := d.cnt }))) ∧
    (∀ g : Fin 64, judgeReg s.cfg s.dev m .GRV_MSG_TX_DONE2 g none = none →
      RunsTo (.msgTxDonePop m g) s (fun d => (d.grove g).done = (s.dev.grove g).done.drop 1 ∧ EntriesKept s.dev.groves d.groves [g.val] ∧
        d = { s.dev with groves := d.groves, outbox := d.outbox }))

/-- R9, R179: every read that the access rules let pass completes, whatever the register: LATCHED_READ returns one word and changes no configuration and no queue. A read of a low
word returns the register, names its group in the master's latch and holds every other word of the group there as it reads now; a read of another word returns what the master's
latch holds of it where the latch names that group, and zero where it does not, and has no other effect; neither touches another master's latch. A read of any other register
leaves every latch as it was. MSG_TX_DONE_POP returns the ticket of the head entry and takes the entry out. -/
def Rules.ReadsComplete : Prop :=
  ∀ (m : Fin 20) (s : State), makesAccess m = true →
    (∀ (a : Fin 536870912) (be : Fin 16) (x : RegDesc) (i : Nat), be ≠ 0 → decodeAddr (a.val / 4 * 4) = some (x, i) → judgeReg s.cfg s.dev m x.reg i none = none →
      ∃ t v, exec (.latchedRead m a be) s = .next t ∧ t.cfg = s.cfg ∧ t.pending = s.pending ∧ t.dev.outbox = .readData m (addrOf x.reg i) v :: s.dev.outbox ∧
        (∀ k, k / 2 ^ 32 ≠ m → t.dev.latches.get? k = s.dev.latches.get? k) ∧
        (lowWord x.reg i = none → x.reg ≠ .INT_CLAIM → v = readReg s.cfg s.dev m x.reg i) ∧
        (lowWord x.reg i = none → otherWords x.reg ≠ [] →
          t.dev.latches.get? (latchKey m 0) = some (regKey x.reg i + 1) ∧
          (∀ w ∈ otherWords x.reg, ∀ k < w.2, t.dev.latches.get? (latchKey m (regKey w.1 (if w.2 = 1 then i else k) + 1)) =
            some (readReg s.cfg s.dev m w.1 (if w.2 = 1 then i else k)))) ∧
        (∀ low j, lowWord x.reg i = some (low, j) →
          v = (if s.dev.latches.getD (latchKey m 0) 0 = regKey low j + 1 then s.dev.latches.getD (latchKey m (regKey x.reg i + 1)) 0 else 0) ∧
          t.dev = { s.dev with outbox := t.dev.outbox }) ∧
        (lowWord x.reg i = none → otherWords x.reg = [] → t.dev.latches = s.dev.latches)) ∧
    (∀ g : Fin 64, judgeReg s.cfg s.dev m .GRV_MSG_TX_DONE2 g none = none →
      ∃ t, exec (.msgTxDonePop m g) s = .next t ∧ t.cfg = s.cfg ∧ t.pending = s.pending ∧
        t.dev.outbox = .readData m (addrOf .GRV_MSG_TX_DONE2 g) (readReg s.cfg s.dev m .GRV_MSG_TX_DONE2 g) :: s.dev.outbox ∧
        (t.dev.grove g).done = (s.dev.grove g).done.drop 1 ∧ EntriesKept s.dev.groves t.dev.groves [g.val] ∧
        t.dev = { s.dev with groves := t.dev.groves, outbox := t.dev.outbox })

/-- R9 to R11, R561, R607: a read that passes returns the register and, where the register is the low word of a group, latches the others, and changes nothing else; a
read that the access rules stop returns all ones; a read of an unassigned offset returns zero and is counted; a write there, and a write with some byte enables clear,
change no register and record ST_BAD_INDEX and ST_BAD_VALUE. R179: a read of the third word of a finished message removes it. R9, R179: every read that the access rules
let pass completes, whatever the register: LATCHED_READ returns one word and changes no configuration and no queue. A read of a low word returns the register, names its
group in the master's latch and holds every other word of the group there as it reads now; a read of another word returns what the master's latch holds of it where the
latch names that group, and zero where it does not, and has no other effect; neither touches another master's latch. A read of any other register leaves every latch as it
was. MSG_TX_DONE_POP returns the ticket of the head entry and takes the entry out. -/
def Obligations.ReadsAndStrays : Prop := Rules.ReadsReturn ∧ Rules.ReadsComplete

/-- R571 to R574: a claim returns the pending source of the highest priority and puts it in service, or returns zero and lets the vector send again; a completion takes its
source out of service; a vector with a pending source and no message outstanding sends its message, or sets its pending bit while it is masked, and that is counted. R557: a
write to the endpoint sets the mask or the enable that it names. -/
def Obligations.InterruptsAndEndpoint : Prop :=
  ∀ (m : Fin 20) (f : Fin 16) (v : Fin 64) (n : Fin 4096) (s : State),
    (makesAccess m = true → judgeReg s.cfg s.dev m .INT_CLAIM (f * 64 + v) none = none →
      (∀ src, claimable s.cfg s.dev (f * 64 + v) = some src →
        RunsTo (.intClaim m f v) s (fun d => inService d src = true ∧ EntriesKept s.dev.inServ d.inServ [src] ∧ (d.vec (f * 64 + v)).claimed = true ∧
          d.outbox = .readData m (addrOf .INT_CLAIM (f * 64 + v)) (2 ^ 31 + srcPriority s.cfg src * 2 ^ 24 + src) :: s.dev.outbox ∧
          CountedOnly s.dev d [(.vector, .claims, f * 64 + v)])) ∧
      (claimable s.cfg s.dev (f * 64 + v) = none →
        RunsTo (.intClaim m f v) s (fun d => (d.vec (f * 64 + v)).out = false ∧ d.inServ = s.dev.inServ ∧
          d.outbox = .readData m (addrOf .INT_CLAIM (f * 64 + v)) 0 :: s.dev.outbox))) ∧
    (WriteAccepted s m .INT_COMPLETE (f * 64 + v) n → LeadsTo (.intComplete m f v n) s (fun t => inService t.dev n = false ∧ (t.dev.vec (f * 64 + v)).out = false)) ∧
    (s.dev.phase ≠ .standby → functionUp s.dev f = true → s.dev.msixEn.contains f.val = true → (s.dev.vec (f * 64 + v)).out = false →
      pendingOn s.cfg s.dev (f * 64 + v) ≠ [] →
      ((s.dev.vec (f * 64 + v)).masked = false → s.dev.funcMask.contains f.val = false →
        RunsTo (.msixMessage f v) s (fun d => d.outbox = .msix f v :: s.dev.outbox ∧ (d.vec (f * 64 + v)).out = true ∧
          CountedOnly s.dev d [(.vector, .msixSent, f * 64 + v)] ∧ EntriesKept s.dev.vecs d.vecs [f * 64 + v] ∧
          d = { s.dev with cnt := d.cnt, vecs := d.vecs, outbox := d.outbox })) ∧
      ((s.dev.vec (f * 64 + v)).masked = true ∨ s.dev.funcMask.contains f.val = true → (s.dev.vec (f * 64 + v)).pba = false →
        RunsTo (.msixMessage f v) s (fun d => (d.vec (f * 64 + v)).pba = true ∧ CountedOnly s.dev d [(.vector, .msixMasked, f * 64 + v)] ∧
          EntriesKept s.dev.vecs d.vecs [f * 64 + v] ∧ d = { s.dev with cnt := d.cnt, vecs := d.vecs }))) ∧
    (∀ (a : Fin 536870912) (w : Word) (be : Fin 16), m.val < 16 →
      RunsTo (.registerWrite m (.vecMask v) a w be) s (fun d => (d.vec (m * 64 + v)).masked = (w.toNat % 2 == 1) ∧
        EntriesKept s.dev.vecs d.vecs [m * 64 + v] ∧ d = { s.dev with vecs := d.vecs }) ∧
      RunsTo (.registerWrite m .funcMask a w be) s (fun d => d.funcMask.contains m.val = (w.toNat % 2 == 1) ∧ d = { s.dev with funcMask := d.funcMask }) ∧
      RunsTo (.registerWrite m .msixEnable a w be) s (fun d => d.msixEn.contains m.val = (w.toNat % 2 == 1) ∧ d = { s.dev with msixEn := d.msixEn }) ∧
      (m.val = 0 → RunsTo (.registerWrite m .vfEnable a w be) s (fun d => d = { s.dev with vfEn := (w.toNat % 2 == 1) })))

/-- A source is pending on a vector (R568). -/
def pendsOn (s : State) (vec x : Nat) : Prop := srcPending s.cfg s.dev x = true ∧ srcVector s.cfg x = vec

/-- R572: a claim of a vector returns the pending source of the highest priority that targets it, and among equal priorities the lowest number, puts it in service and ends
its being pending; with no source pending it returns valid = 0 and takes nothing into service. -/
def Obligations.SourceClaimed : Prop :=
  ∀ (m : Fin 20) (f : Fin 16) (v : Fin 64) (s : State), makesAccess m = true → judgeReg s.cfg s.dev m .INT_CLAIM (f * 64 + v) none = none →
    (∀ src, pendsOn s (f * 64 + v) src →
      (∀ x, pendsOn s (f * 64 + v) x → srcPriority s.cfg x < srcPriority s.cfg src ∨ (srcPriority s.cfg x = srcPriority s.cfg src ∧ src ≤ x)) →
      RunsTo (.intClaim m f v) s (fun d => inService d src = true ∧ srcPending s.cfg d src = false ∧ EntriesKept s.dev.inServ d.inServ [src] ∧
        d.outbox = .readData m (addrOf .INT_CLAIM (f * 64 + v)) (2 ^ 31 + srcPriority s.cfg src * 2 ^ 24 + src) :: s.dev.outbox ∧
        d = { s.dev with inServ := d.inServ, savedPend := d.savedPend, vecs := d.vecs, cnt := d.cnt, outbox := d.outbox })) ∧
    ((∀ x, ¬ pendsOn s (f * 64 + v) x) →
      RunsTo (.intClaim m f v) s (fun d => d.outbox = .readData m (addrOf .INT_CLAIM (f * 64 + v)) 0 :: s.dev.outbox ∧
        d = { s.dev with vecs := d.vecs, cnt := d.cnt, outbox := d.outbox }))

/-- R573: a source in service on the vector is taken out of service, and is pending again at once where it is still asserted, on and listed; a source that is not in service on
it is ignored: the write records ST_WRONG_STATE, no source enters or leaves service and no vector changes, and complete_stray is counted for the function. -/
def Obligations.SourceCompleted : Prop :=
  ∀ (m : Fin 20) (f : Fin 16) (v : Fin 64) (n : Fin 4096) (s : State), makesAccess m = true → judgeReg s.cfg s.dev m .INT_COMPLETE (f * 64 + v) (some n) = none →
    (∀ x, s.dev.inServ.get? n = some x → x.vec = f * 64 + v →
      LeadsTo (.intComplete m f v n) s (fun t => t.cfg = s.cfg ∧ t.dev.lastStatus m = Status.ok.code ∧ (∀ k, inService t.dev k = (inService s.dev k && k != n.val)) ∧
        (sourceListed n = true → asserted t.dev n = true → srcPriority s.cfg n ≠ 0 → srcPending t.cfg t.dev n = true))) ∧
    ((∀ x, s.dev.inServ.get? n = some x → x.vec ≠ f * 64 + v) →
      LeadsTo (.intComplete m f v n) s (fun t => t.cfg = s.cfg ∧ t.dev.lastStatus m = Status.wrongState.code ∧ (∀ k, inService t.dev k = inService s.dev k) ∧
        t.dev.vecs = s.dev.vecs ∧ Counted s.dev t.dev .device .completeStray f 1))

/-! ### What every step keeps, and what reset leaves -/

/-- The configuration keeps its canonical form: registers in rising order, none listed at its reset word. The form is the model's (assumption log 1). -/
def Obligations.ConfigurationCanonical : Prop :=
  ∀ s t : State, s.cfg.regs.canonical (cfgBase s.cfg.alone) → step s = .next t → t.cfg.regs.canonical (cfgBase t.cfg.alone)

/-- R30, R36, R179, R237, R465, R597: the staging area, the FIFOs of the groves, the capture ring, the sample buffers and the core clock keep their bounds. -/
def Obligations.BoundsKept : Prop := ∀ s t : State, s.bounded → step s = .next t → t.bounded

/-- The state after reset meets both invariants, and nothing is staged or waits. -/
def Obligations.ResetMeetsInvariants : Prop :=
  State.reset.cfg.regs.canonical (cfgBase State.reset.cfg.alone) ∧ State.reset.bounded ∧ State.reset.cfg.staged = [] ∧ State.reset.pending = []

/-- R564, R339, R165: after reset PF0 has READ_WRITE in every region and master 18 in every region but CFG, where it has READ; the VFs, and masters 16 and 17, have NONE;
master 19 has READ in TOP and NONE elsewhere; the pools have the partitions of the table; and every stand is ABSENT. -/
def Obligations.ResetValues : Prop :=
  (∀ rg < 21, accEntry State.reset.cfg 0 rg = 2 ∧ accEntry State.reset.cfg 18 rg = (if rg = 5 then 1 else 2) ∧
    (∀ m, 1 ≤ m → m < 18 → accEntry State.reset.cfg m rg = 0) ∧ accEntry State.reset.cfg 19 rg = (if rg = 0 then 1 else 0)) ∧
  (∀ p < 4, cfgShown State.reset.cfg .BUF_POOL_NEAR p = [8, 16, 16, 24].getD p 0 ∧ cfgShown State.reset.cfg .BUF_POOL_DEEP p = [4, 12, 16, 23].getD p 0) ∧
  (∀ i, State.reset.dev.st i = .absent)

/-- R36: at most 4,096 staged writes are pending, those of the loader apart (R517); a write of a register with staged fields takes one entry; one that finds the area full
changes no register of the configuration and nothing in the area, executes no command, sets staging_full and is counted for its master, with ST_NO_ROOM where no other
check rejects it. -/
def Obligations.StagingFull : Prop :=
  (∀ s t : State, s.cfg.fill ≤ 4096 → step s = .next t → t.cfg.fill ≤ 4096) ∧
  ∀ (c : Instr) (m : Nat) (r : Reg) (i w : Nat) (s : State), Writes s c m r i w → makesAccess m = true → m < 20 → m ≠ 18 → r.staged = true →
    judgeReg s.cfg s.dev m r i (some w) = none →
    (WriteAccepted s m r i w → LeadsTo c s (fun t => t.cfg.fill = s.cfg.fill + 1)) ∧
    (s.cfg.fill = 4096 →
      ∃ st : Status, st ≠ .ok ∧ LeadsTo c s (fun t => t.cfg = s.cfg ∧ t.dev.lastStatus m = st.code ∧
        (modeCheck s.cfg s.looked.dev r i w = .ok → inRange r w = true →
          checkBlock s.cfg (s.cfg.judged m) ((s.cfg.accept s.looked.dev m r i w).judged m) s.looked.dev m r i w = .ok →
          st = .noRoom ∧ t.dev.flag Fields.TICK_STATUS_staging_full 0 = true ∧ Counted s.dev t.dev .device .stagingFull m 1 ∧
            t.dev = { s.dev with sts := t.dev.sts, cnt := t.dev.cnt, inServ := t.dev.inServ })))
end

