-- ==== Sys2Proof/Laws/Maps.lean ====
section
/-!
SUPPORT. What a sparse map reads after each of its operations, and that every operation keeps its keys in rising order.
-/

namespace Sys2Proof.Machine

variable {α : Type}

/-! ### Reading back -/

@[simp] theorem SMap.get?_nil (q : Nat) : SMap.get? ([] : SMap α) q = none := rfl

@[simp] theorem SMap.get?_put_same (m : SMap α) (q : Nat) (v : α) : (m.put q v).get? q = some v := by
  induction m with
  | nil => simp [SMap.put, SMap.get?]
  | cons p t ih =>
    obtain ⟨k, w⟩ := p
    unfold SMap.put
    split
    · simp [SMap.get?]
    · split
      · simp [SMap.get?]
      · have : k ≠ q := by omega
        simp [SMap.get?, this, ih]

@[simp] theorem SMap.get?_put_other (m : SMap α) {q r : Nat} (v : α) (h : r ≠ q) : (m.put q v).get? r = m.get? r := by
  induction m with
  | nil => simp [SMap.put, SMap.get?, Ne.symm h]
  | cons p t ih =>
    obtain ⟨k, w⟩ := p
    unfold SMap.put
    split
    · simp [SMap.get?, Ne.symm h]
    · split
      · subst_vars; simp [SMap.get?, Ne.symm h]
      · simp [SMap.get?, ih]

@[simp] theorem SMap.get?_erase_same (m : SMap α) (q : Nat) : (m.erase q).get? q = none := by
  induction m with
  | nil => rfl
  | cons p t ih =>
    obtain ⟨k, w⟩ := p
    by_cases h : k = q
    · subst h; simpa [SMap.erase] using ih
    · simp only [SMap.erase] at ih
      simp [SMap.erase, h, SMap.get?, ih]

@[simp] theorem SMap.get?_erase_other (m : SMap α) {q r : Nat} (h : r ≠ q) : (m.erase q).get? r = m.get? r := by
  induction m with
  | nil => rfl
  | cons p t ih =>
    obtain ⟨k, w⟩ := p
    simp only [SMap.erase] at ih
    by_cases hk : k = q
    · subst hk; simp [SMap.erase, SMap.get?, Ne.symm h, ih]
    · simp [SMap.erase, hk, SMap.get?, ih]

@[simp] theorem SMap.getD_put_same (m : SMap α) (q : Nat) (v d : α) : (m.put q v).getD q d = v := by
  simp [SMap.getD]

@[simp] theorem SMap.getD_put_other (m : SMap α) {q r : Nat} (v d : α) (h : r ≠ q) : (m.put q v).getD r d = m.getD r d := by
  simp [SMap.getD, h]

@[simp] theorem SMap.getD_setD_same [DecidableEq α] (m : SMap α) (q : Nat) (v d : α) : (m.setD q v d).getD q d = v := by
  unfold SMap.setD
  split
  · simp [SMap.getD, *]
  · simp

@[simp] theorem SMap.getD_setD_other [DecidableEq α] (m : SMap α) {q r : Nat} (v d e : α) (h : r ≠ q) :
    (m.setD q v d).getD r e = m.getD r e := by
  unfold SMap.setD
  split
  · simp [SMap.getD, h]
  · simp [h]

@[simp] theorem SMap.getD_upd_same (m : SMap α) (q : Nat) (d : α) (f : α → α) : (m.upd q d f).getD q d = f (m.getD q d) := by
  simp [SMap.upd]

@[simp] theorem SMap.getD_upd_other (m : SMap α) {q r : Nat} (d e : α) (f : α → α) (h : r ≠ q) :
    (m.upd q d f).getD r e = m.getD r e := by
  simp [SMap.upd, h]

@[simp] theorem SMap.getD_erase_same (m : SMap α) (q : Nat) (d : α) : (m.erase q).getD q d = d := by
  simp [SMap.getD]

@[simp] theorem SMap.getD_erase_other (m : SMap α) {q r : Nat} (d : α) (h : r ≠ q) : (m.erase q).getD r d = m.getD r d := by
  simp [SMap.getD, h]

/-! ### Rising keys -/

theorem SMap.sorted_tail {p : Nat × α} {t : SMap α} (h : SMap.sorted (p :: t) = true) : SMap.sorted t = true := by
  cases t with
  | nil => rfl
  | cons q u => simp [SMap.sorted] at h; exact h.2

theorem SMap.sorted_iff_pairwise (m : SMap α) : SMap.sorted m = true ↔ m.Pairwise (fun a b => a.1 < b.1) := by
  induction m with
  | nil => simp [SMap.sorted]
  | cons p t ih =>
    cases t with
    | nil => simp [SMap.sorted]
    | cons q u =>
      simp only [SMap.sorted, Bool.and_eq_true, decide_eq_true_eq, ih, List.pairwise_cons]
      constructor
      · rintro ⟨h1, h2, h3⟩
        refine ⟨fun a ha => ?_, h2, h3⟩
        rcases List.mem_cons.1 ha with rfl | ha
        · exact h1
        · exact Nat.lt_trans h1 (h2 a ha)
      · rintro ⟨h1, h2, h3⟩
        exact ⟨h1 q (List.mem_cons_self ..), h2, h3⟩

theorem SMap.sorted_filter {m : SMap α} (p : Nat × α → Bool) (h : SMap.sorted m = true) : SMap.sorted (m.filter p) = true := by
  rw [SMap.sorted_iff_pairwise] at *
  exact h.filter p

theorem SMap.sorted_erase {m : SMap α} (q : Nat) (h : SMap.sorted m = true) : SMap.sorted (m.erase q) = true := SMap.sorted_filter _ h

theorem SMap.mem_put {m : SMap α} {q : Nat} {v : α} {x : Nat × α} (h : x ∈ m.put q v) : x = (q, v) ∨ x ∈ m := by
  induction m with
  | nil => simpa [SMap.put] using h
  | cons p t ih =>
    obtain ⟨k, w⟩ := p
    unfold SMap.put at h
    split at h
    · simpa using h
    · split at h
      · rcases List.mem_cons.1 h with h | h
        · exact .inl h
        · exact .inr (List.mem_cons_of_mem _ h)
      · rcases List.mem_cons.1 h with h | h
        · exact .inr (by simp [h])
        · rcases ih h with h | h
          · exact .inl h
          · exact .inr (List.mem_cons_of_mem _ h)

theorem SMap.sorted_put {m : SMap α} (q : Nat) (v : α) (h : SMap.sorted m = true) : SMap.sorted (m.put q v) = true := by
  rw [SMap.sorted_iff_pairwise] at *
  induction m with
  | nil => simp [SMap.put]
  | cons p t ih =>
    obtain ⟨k, w⟩ := p
    rw [List.pairwise_cons] at h
    unfold SMap.put
    split
    · rename_i hq
      rw [List.pairwise_cons, List.pairwise_cons]
      refine ⟨fun a ha => ?_, h⟩
      rcases List.mem_cons.1 ha with rfl | ha
      · exact hq
      · exact Nat.lt_trans hq (h.1 a ha)
    · split
      · rename_i hq; subst hq; rw [List.pairwise_cons]; exact h
      · rename_i h1 h2
        rw [List.pairwise_cons]
        refine ⟨fun a ha => ?_, ih h.2⟩
        rcases SMap.mem_put ha with rfl | ha
        · exact Nat.lt_of_le_of_ne (Nat.not_lt.1 h1) (fun e => h2 e.symm)
        · exact h.1 a ha

theorem SMap.sorted_setD [DecidableEq α] {m : SMap α} (q : Nat) (v d : α) (h : SMap.sorted m = true) : SMap.sorted (m.setD q v d) = true := by
  unfold SMap.setD
  split
  · exact SMap.sorted_erase q h
  · exact SMap.sorted_put q v h

theorem SMap.sorted_upd {m : SMap α} (q : Nat) (d : α) (f : α → α) (h : SMap.sorted m = true) : SMap.sorted (m.upd q d f) = true :=
  SMap.sorted_put q _ h

end Sys2Proof.Machine
end

