-- ==== Sys2Proof/Laws/RegFile.lean ====
section
/-!
SUPPORT. What bit fields, registers and register files read after they are written, and that a register file keeps its canonical form: its keys in
rising order, and no word listed that equals the reset word of its register.
-/

namespace Sys2Proof.Machine

/-! ### Bit fields -/

theorem bitsOf_lt (w lo width : Nat) : bitsOf w lo width < 2 ^ width := Nat.mod_lt _ (by positivity)

/-- A number is what lies above a field, the field, and what lies below it. -/
theorem bits_split (w lo width : Nat) :
    w = w / 2 ^ (lo + width) * 2 ^ (lo + width) + bitsOf w lo width * 2 ^ lo + w % 2 ^ lo := by
  have h1 := Nat.div_add_mod w (2 ^ lo)
  have h2 := Nat.div_add_mod (w / 2 ^ lo) (2 ^ width)
  rw [Nat.div_div_eq_div_mul, ← pow_add] at h2
  unfold bitsOf
  calc w = 2 ^ lo * (w / 2 ^ lo) + w % 2 ^ lo := h1.symm
    _ = 2 ^ lo * (2 ^ width * (w / 2 ^ (lo + width)) + w / 2 ^ lo % 2 ^ width) + w % 2 ^ lo := by rw [h2]
    _ = _ := by rw [pow_add]; ring

/-- A write of a field keeps what lies above and below it. -/
theorem setBits_split (w lo width v : Nat) :
    setBits w lo width v = w / 2 ^ (lo + width) * 2 ^ (lo + width) + v % 2 ^ width * 2 ^ lo + w % 2 ^ lo := by
  have h := bits_split w lo width
  unfold setBits
  omega

theorem testBit_setBits (w lo width v k : Nat) :
    (setBits w lo width v).testBit k = if lo ≤ k ∧ k < lo + width then v.testBit (k - lo) else w.testBit k := by
  rw [setBits_split]
  have e : w / 2 ^ (lo + width) * 2 ^ (lo + width) + v % 2 ^ width * 2 ^ lo + w % 2 ^ lo
      = 2 ^ lo * (2 ^ width * (w / 2 ^ (lo + width)) + v % 2 ^ width) + w % 2 ^ lo := by rw [pow_add]; ring
  rw [e, Nat.testBit_two_pow_mul_add _ (Nat.mod_lt _ (by positivity))]
  by_cases h1 : k < lo
  · simp [h1, Nat.testBit_mod_two_pow, show ¬ (lo ≤ k) by omega]
  · rw [if_neg h1, Nat.testBit_two_pow_mul_add _ (Nat.mod_lt _ (by positivity))]
    by_cases h2 : k < lo + width
    · simp [show k - lo < width by omega, show lo ≤ k by omega, h2, Nat.testBit_mod_two_pow]
    · rw [if_neg (by omega), if_neg (by omega), Nat.testBit_div_two_pow]
      congr 1; omega

theorem testBit_bitsOf (w lo width k : Nat) : (bitsOf w lo width).testBit k = (decide (k < width) && w.testBit (k + lo)) := by
  unfold bitsOf
  rw [Nat.testBit_mod_two_pow, Nat.testBit_div_two_pow]

@[simp] theorem bitsOf_setBits_same (w lo width v : Nat) : bitsOf (setBits w lo width v) lo width = v % 2 ^ width := by
  apply Nat.eq_of_testBit_eq; intro k
  rw [testBit_bitsOf, testBit_setBits, Nat.testBit_mod_two_pow]
  by_cases h : k < width
  · simp [h, show lo ≤ k + lo ∧ k + lo < lo + width by omega]
  · simp [h]

theorem bitsOf_setBits_other (w v : Nat) {lo width lo' width' : Nat} (h : lo + width ≤ lo' ∨ lo' + width' ≤ lo) :
    bitsOf (setBits w lo width v) lo' width' = bitsOf w lo' width' := by
  apply Nat.eq_of_testBit_eq; intro k
  rw [testBit_bitsOf, testBit_bitsOf, testBit_setBits]
  by_cases h' : k < width'
  · rw [if_neg (by omega)]
  · simp [h']

/-! ### Registers of a file -/

theorem Reg.id_inj {r q : Reg} (h : r.id = q.id) : r = q := by
  have e := congrArg Reg.ofNat h
  simpa [Reg.id, Reg.ofNat_ctorIdx] using e

theorem regKey_inj {r q : Reg} {i j : Nat} (h : regKey r i = regKey q j) : r = q ∧ i % 2 ^ 22 = j % 2 ^ 22 := by
  unfold regKey at h
  have hi := Nat.mod_lt i (show 0 < 2 ^ 22 by positivity)
  have hj := Nat.mod_lt j (show 0 < 2 ^ 22 by positivity)
  constructor
  · apply Reg.id_inj; omega
  · omega

theorem RegFile.word_setWord_same (f : RegFile) (d : Reg → Nat → Nat) (r : Reg) (i v : Nat) : (f.setWord d r i v).word d r i = v := by
  simp [RegFile.word, RegFile.setWord]

theorem RegFile.word_setWord_other (f : RegFile) (d : Reg → Nat → Nat) {r q : Reg} {i j : Nat} (v : Nat) (h : q ≠ r ∨ j % 2 ^ 22 ≠ i % 2 ^ 22) :
    (f.setWord d r i v).word d q j = f.word d q j := by
  have hk : regKey q j ≠ regKey r i := fun e => by have := regKey_inj e; tauto
  simp [RegFile.word, RegFile.setWord, SMap.getD_setD_other _ _ _ _ hk]

/-- A written field reads as the value's low bits. -/
theorem RegFile.fld_setFld_same (f : RegFile) (d : Reg → Nat → Nat) (x : Fld) (i v : Nat) :
    (f.setFld d x i v).fld d x i = v % 2 ^ x.width := by
  simp [RegFile.fld, RegFile.setFld, RegFile.word_setWord_same]

theorem RegFile.word_setWord_key (f : RegFile) (d : Reg → Nat → Nat) {r : Reg} {i j : Nat} (v : Nat) (h : j % 2 ^ 22 = i % 2 ^ 22) :
    (f.setWord d r i v).word d r j = v ∨ (f.setWord d r i v).word d r j = d r j := by
  have hk : regKey r j = regKey r i := by unfold regKey; omega
  unfold RegFile.word RegFile.setWord SMap.setD
  rw [hk]
  split
  · right; simp [SMap.getD]
  · left; simp

/-- A field that does not overlap the written one reads as before, where the reset word does not depend on the index. -/
theorem RegFile.fld_setFld_other (f : RegFile) {d : Reg → Nat → Nat} (hd : ∀ r i j, d r i = d r j) {x y : Fld} {i j : Nat} (v : Nat)
    (h : y.reg ≠ x.reg ∨ j % 2 ^ 22 ≠ i % 2 ^ 22 ∨ x.lo + x.width ≤ y.lo ∨ y.lo + y.width ≤ x.lo) :
    (f.setFld d x i v).fld d y j = f.fld d y j := by
  by_cases hr : y.reg = x.reg ∧ j % 2 ^ 22 = i % 2 ^ 22
  · have h' : x.lo + x.width ≤ y.lo ∨ y.lo + y.width ≤ x.lo := by tauto
    have hk : regKey y.reg j = regKey x.reg i := by unfold regKey; rw [hr.1]; omega
    unfold RegFile.fld RegFile.setFld RegFile.setWord RegFile.word
    rw [hk, hr.1, hd x.reg j i, SMap.getD_setD_same, bitsOf_setBits_other _ _ h']
  · unfold RegFile.fld RegFile.setFld
    rw [RegFile.word_setWord_other _ _ _ (by tauto)]

/-- A field that does not overlap the written one, at an index of the register file, reads as before. -/
theorem RegFile.fld_setFld_ne (f : RegFile) (d : Reg → Nat → Nat) {x y : Fld} {i j : Nat} (v : Nat)
    (h : y.reg ≠ x.reg ∨ j % 2 ^ 22 ≠ i % 2 ^ 22 ∨ j = i ∧ (x.lo + x.width ≤ y.lo ∨ y.lo + y.width ≤ x.lo)) :
    (f.setFld d x i v).fld d y j = f.fld d y j := by
  by_cases hr : y.reg = x.reg ∧ j % 2 ^ 22 = i % 2 ^ 22
  · obtain ⟨hj, h'⟩ : j = i ∧ (x.lo + x.width ≤ y.lo ∨ y.lo + y.width ≤ x.lo) := by tauto
    subst hj
    unfold RegFile.fld RegFile.setFld
    rw [hr.1, RegFile.word_setWord_same, bitsOf_setBits_other _ _ h']
  · unfold RegFile.fld RegFile.setFld
    rw [RegFile.word_setWord_other _ _ _ (by tauto)]

/-! ### The canonical form -/

/-- The register that a key names, and its index. -/
theorem regKey_index (r : Reg) (i : Nat) : regKey r i % 2 ^ 22 = i % 2 ^ 22 ∧ regKey r i / 2 ^ 22 = r.id := by
  unfold regKey
  have hi := Nat.mod_lt i (show 0 < 2 ^ 22 by positivity)
  omega

theorem RegFile.sorted_setWord (f : RegFile) (d : Reg → Nat → Nat) (r : Reg) (i v : Nat) (h : f.cells.sorted = true) :
    (f.setWord d r i v).cells.sorted = true := SMap.sorted_setD _ _ _ h

/-- A listed word after a write is the written one, and differs from the reset word, or was listed before. -/
theorem RegFile.mem_setWord (f : RegFile) (d : Reg → Nat → Nat) (r : Reg) (i v : Nat) {p : Nat × Nat} (h : p ∈ (f.setWord d r i v).cells) :
    (p = (regKey r i, v) ∧ v ≠ d r i) ∨ p ∈ f.cells := by
  unfold RegFile.setWord SMap.setD at h
  split at h
  · right; exact (List.mem_filter.mp h).1
  · rcases SMap.mem_put h with h | h
    · left; exact ⟨h, by assumption⟩
    · right; exact h

end Sys2Proof.Machine
end

