-- ==== Sys2Proof/Laws/State.lean ====
section
/-!
SUPPORT. What each field of the state reads after each update of the shared operations: one lemma per field and update, true by the definition of the
update.
-/

namespace Sys2Proof.Machine

variable (s : State) (d : Dev)

@[simp] theorem State.withDev_pending (e : Dev) : (s.withDev e).pending = s.pending := rfl
@[simp] theorem State.withDev_cfg (e : Dev) : (s.withDev e).cfg = s.cfg := rfl
@[simp] theorem State.withDev_dev (e : Dev) : (s.withDev e).dev = e := rfl
@[simp] theorem State.withCfg_pending (c : Cfg) : (s.withCfg c).pending = s.pending := rfl
@[simp] theorem State.withCfg_cfg (c : Cfg) : (s.withCfg c).cfg = c := rfl
@[simp] theorem State.withCfg_dev (c : Cfg) : (s.withCfg c).dev = s.dev := rfl

/-! ### Dev.set -/

@[simp] theorem Dev.set_phase (x : Fld) (i v : Nat) : (d.set x i v).phase = d.phase := rfl
@[simp] theorem Dev.set_sfc (x : Fld) (i v : Nat) : (d.set x i v).sfc = d.sfc := rfl
@[simp] theorem Dev.set_clock (x : Fld) (i v : Nat) : (d.set x i v).clock = d.clock := rfl
@[simp] theorem Dev.set_cnt (x : Fld) (i v : Nat) : (d.set x i v).cnt = d.cnt := rfl
@[simp] theorem Dev.set_amb (x : Fld) (i v : Nat) : (d.set x i v).amb = d.amb := rfl
@[simp] theorem Dev.set_free (x : Fld) (i v : Nat) : (d.set x i v).free = d.free := rfl
@[simp] theorem Dev.set_timers (x : Fld) (i v : Nat) : (d.set x i v).timers = d.timers := rfl
@[simp] theorem Dev.set_runs (x : Fld) (i v : Nat) : (d.set x i v).runs = d.runs := rfl
@[simp] theorem Dev.set_hits (x : Fld) (i v : Nat) : (d.set x i v).hits = d.hits := rfl
@[simp] theorem Dev.set_latches (x : Fld) (i v : Nat) : (d.set x i v).latches = d.latches := rfl
@[simp] theorem Dev.set_outbox (x : Fld) (i v : Nat) : (d.set x i v).outbox = d.outbox := rfl
@[simp] theorem Dev.set_life (x : Fld) (i v : Nat) : (d.set x i v).life = d.life := rfl
@[simp] theorem Dev.set_rng (x : Fld) (i v : Nat) : (d.set x i v).rng = d.rng := rfl
@[simp] theorem Dev.set_mail (x : Fld) (i v : Nat) : (d.set x i v).mail = d.mail := rfl
@[simp] theorem Dev.set_keys (x : Fld) (i v : Nat) : (d.set x i v).keys = d.keys := rfl
@[simp] theorem Dev.set_boughs (x : Fld) (i v : Nat) : (d.set x i v).boughs = d.boughs := rfl
@[simp] theorem Dev.set_groves (x : Fld) (i v : Nat) : (d.set x i v).groves = d.groves := rfl
@[simp] theorem Dev.set_keep (x : Fld) (i v : Nat) : (d.set x i v).keep = d.keep := rfl
@[simp] theorem Dev.set_keepSfc (x : Fld) (i v : Nat) : (d.set x i v).keepSfc = d.keepSfc := rfl
@[simp] theorem Dev.set_keepHmac (x : Fld) (i v : Nat) : (d.set x i v).keepHmac = d.keepHmac := rfl
@[simp] theorem Dev.set_slots (x : Fld) (i v : Nat) : (d.set x i v).slots = d.slots := rfl
@[simp] theorem Dev.set_slotMeta (x : Fld) (i v : Nat) : (d.set x i v).slotMeta = d.slotMeta := rfl
@[simp] theorem Dev.set_ceil (x : Fld) (i v : Nat) : (d.set x i v).ceil = d.ceil := rfl
@[simp] theorem Dev.set_lastCtr (x : Fld) (i v : Nat) : (d.set x i v).lastCtr = d.lastCtr := rfl
@[simp] theorem Dev.set_keng (x : Fld) (i v : Nat) : (d.set x i v).keng = d.keng := rfl
@[simp] theorem Dev.set_keyCmd (x : Fld) (i v : Nat) : (d.set x i v).keyCmd = d.keyCmd := rfl
@[simp] theorem Dev.set_shared (x : Fld) (i v : Nat) : (d.set x i v).shared = d.shared := rfl
@[simp] theorem Dev.set_slices (x : Fld) (i v : Nat) : (d.set x i v).slices = d.slices := rfl
@[simp] theorem Dev.set_conns (x : Fld) (i v : Nat) : (d.set x i v).conns = d.conns := rfl
@[simp] theorem Dev.set_slcSwap (x : Fld) (i v : Nat) : (d.set x i v).slcSwap = d.slcSwap := rfl
@[simp] theorem Dev.set_pgs (x : Fld) (i v : Nat) : (d.set x i v).pgs = d.pgs := rfl
@[simp] theorem Dev.set_flows (x : Fld) (i v : Nat) : (d.set x i v).flows = d.flows := rfl
@[simp] theorem Dev.set_pipes (x : Fld) (i v : Nat) : (d.set x i v).pipes = d.pipes := rfl
@[simp] theorem Dev.set_frag (x : Fld) (i v : Nat) : (d.set x i v).frag = d.frag := rfl
@[simp] theorem Dev.set_bridge (x : Fld) (i v : Nat) : (d.set x i v).bridge = d.bridge := rfl
@[simp] theorem Dev.set_deferred (x : Fld) (i v : Nat) : (d.set x i v).deferred = d.deferred := rfl
@[simp] theorem Dev.set_learnPtr (x : Fld) (i v : Nat) : (d.set x i v).learnPtr = d.learnPtr := rfl
@[simp] theorem Dev.set_lpm4 (x : Fld) (i v : Nat) : (d.set x i v).lpm4 = d.lpm4 := rfl
@[simp] theorem Dev.set_lpm6 (x : Fld) (i v : Nat) : (d.set x i v).lpm6 = d.lpm6 := rfl
@[simp] theorem Dev.set_asc (x : Fld) (i v : Nat) : (d.set x i v).asc = d.asc := rfl
@[simp] theorem Dev.set_ringPtr (x : Fld) (i v : Nat) : (d.set x i v).ringPtr = d.ringPtr := rfl
@[simp] theorem Dev.set_locks (x : Fld) (i v : Nat) : (d.set x i v).locks = d.locks := rfl
@[simp] theorem Dev.set_winCmd (x : Fld) (i v : Nat) : (d.set x i v).winCmd = d.winCmd := rfl
@[simp] theorem Dev.set_casMi (x : Fld) (i v : Nat) : (d.set x i v).casMi = d.casMi := rfl
@[simp] theorem Dev.set_bufs (x : Fld) (i v : Nat) : (d.set x i v).bufs = d.bufs := rfl
@[simp] theorem Dev.set_caches (x : Fld) (i v : Nat) : (d.set x i v).caches = d.caches := rfl
@[simp] theorem Dev.set_queues (x : Fld) (i v : Nat) : (d.set x i v).queues = d.queues := rfl
@[simp] theorem Dev.set_uid (x : Fld) (i v : Nat) : (d.set x i v).uid = d.uid := rfl
@[simp] theorem Dev.set_reps (x : Fld) (i v : Nat) : (d.set x i v).reps = d.reps := rfl
@[simp] theorem Dev.set_hold (x : Fld) (i v : Nat) : (d.set x i v).hold = d.hold := rfl
@[simp] theorem Dev.set_heldAt (x : Fld) (i v : Nat) : (d.set x i v).heldAt = d.heldAt := rfl
@[simp] theorem Dev.set_holdFell (x : Fld) (i v : Nat) : (d.set x i v).holdFell = d.holdFell := rfl
@[simp] theorem Dev.set_spillPtr (x : Fld) (i v : Nat) : (d.set x i v).spillPtr = d.spillPtr := rfl
@[simp] theorem Dev.set_holdPtr (x : Fld) (i v : Nat) : (d.set x i v).holdPtr = d.holdPtr := rfl
@[simp] theorem Dev.set_tierKeys (x : Fld) (i v : Nat) : (d.set x i v).tierKeys = d.tierKeys := rfl
@[simp] theorem Dev.set_hbm (x : Fld) (i v : Nat) : (d.set x i v).hbm = d.hbm := rfl
@[simp] theorem Dev.set_cxl (x : Fld) (i v : Nat) : (d.set x i v).cxl = d.cxl := rfl
@[simp] theorem Dev.set_used (x : Fld) (i v : Nat) : (d.set x i v).used = d.used := rfl
@[simp] theorem Dev.set_training (x : Fld) (i v : Nat) : (d.set x i v).training = d.training := rfl
@[simp] theorem Dev.set_trained (x : Fld) (i v : Nat) : (d.set x i v).trained = d.trained := rfl
@[simp] theorem Dev.set_shadow (x : Fld) (i v : Nat) : (d.set x i v).shadow = d.shadow := rfl
@[simp] theorem Dev.set_replay (x : Fld) (i v : Nat) : (d.set x i v).replay = d.replay := rfl
@[simp] theorem Dev.set_bkts (x : Fld) (i v : Nat) : (d.set x i v).bkts = d.bkts := rfl
@[simp] theorem Dev.set_restAcc (x : Fld) (i v : Nat) : (d.set x i v).restAcc = d.restAcc := rfl
@[simp] theorem Dev.set_meters (x : Fld) (i v : Nat) : (d.set x i v).meters = d.meters := rfl
@[simp] theorem Dev.set_wheels (x : Fld) (i v : Nat) : (d.set x i v).wheels = d.wheels := rfl
@[simp] theorem Dev.set_samplers (x : Fld) (i v : Nat) : (d.set x i v).samplers = d.samplers := rfl
@[simp] theorem Dev.set_mate (x : Fld) (i v : Nat) : (d.set x i v).mate = d.mate := rfl
@[simp] theorem Dev.set_domA (x : Fld) (i v : Nat) : (d.set x i v).domA = d.domA := rfl
@[simp] theorem Dev.set_cyc (x : Fld) (i v : Nat) : (d.set x i v).cyc = d.cyc := rfl
@[simp] theorem Dev.set_ageHold (x : Fld) (i v : Nat) : (d.set x i v).ageHold = d.ageHold := rfl
@[simp] theorem Dev.set_replayWait (x : Fld) (i v : Nat) : (d.set x i v).replayWait = d.replayWait := rfl
@[simp] theorem Dev.set_edgeSet (x : Fld) (i v : Nat) : (d.set x i v).edgeSet = d.edgeSet := rfl
@[simp] theorem Dev.set_bases (x : Fld) (i v : Nat) : (d.set x i v).bases = d.bases := rfl
@[simp] theorem Dev.set_selBack (x : Fld) (i v : Nat) : (d.set x i v).selBack = d.selBack := rfl
@[simp] theorem Dev.set_domB (x : Fld) (i v : Nat) : (d.set x i v).domB = d.domB := rfl
@[simp] theorem Dev.set_sigma (x : Fld) (i v : Nat) : (d.set x i v).sigma = d.sigma := rfl
@[simp] theorem Dev.set_edgeTime (x : Fld) (i v : Nat) : (d.set x i v).edgeTime = d.edgeTime := rfl
@[simp] theorem Dev.set_prevEdge (x : Fld) (i v : Nat) : (d.set x i v).prevEdge = d.prevEdge := rfl
@[simp] theorem Dev.set_srcEdge (x : Fld) (i v : Nat) : (d.set x i v).srcEdge = d.srcEdge := rfl
@[simp] theorem Dev.set_edgeOpen (x : Fld) (i v : Nat) : (d.set x i v).edgeOpen = d.edgeOpen := rfl
@[simp] theorem Dev.set_caps (x : Fld) (i v : Nat) : (d.set x i v).caps = d.caps := rfl
@[simp] theorem Dev.set_txMsg (x : Fld) (i v : Nat) : (d.set x i v).txMsg = d.txMsg := rfl
@[simp] theorem Dev.set_outgoing (x : Fld) (i v : Nat) : (d.set x i v).outgoing = d.outgoing := rfl
@[simp] theorem Dev.set_srcLost (x : Fld) (i v : Nat) : (d.set x i v).srcLost = d.srcLost := rfl
@[simp] theorem Dev.set_safeOut (x : Fld) (i v : Nat) : (d.set x i v).safeOut = d.safeOut := rfl
@[simp] theorem Dev.set_muxWait (x : Fld) (i v : Nat) : (d.set x i v).muxWait = d.muxWait := rfl
@[simp] theorem Dev.set_resumeReq (x : Fld) (i v : Nat) : (d.set x i v).resumeReq = d.resumeReq := rfl
@[simp] theorem Dev.set_board (x : Fld) (i v : Nat) : (d.set x i v).board = d.board := rfl
@[simp] theorem Dev.set_flash (x : Fld) (i v : Nat) : (d.set x i v).flash = d.flash := rfl
@[simp] theorem Dev.set_flashOp (x : Fld) (i v : Nat) : (d.set x i v).flashOp = d.flashOp := rfl
@[simp] theorem Dev.set_inServ (x : Fld) (i v : Nat) : (d.set x i v).inServ = d.inServ := rfl
@[simp] theorem Dev.set_savedPend (x : Fld) (i v : Nat) : (d.set x i v).savedPend = d.savedPend := rfl
@[simp] theorem Dev.set_vecs (x : Fld) (i v : Nat) : (d.set x i v).vecs = d.vecs := rfl
@[simp] theorem Dev.set_msixEn (x : Fld) (i v : Nat) : (d.set x i v).msixEn = d.msixEn := rfl
@[simp] theorem Dev.set_funcMask (x : Fld) (i v : Nat) : (d.set x i v).funcMask = d.funcMask := rfl
@[simp] theorem Dev.set_vfEn (x : Fld) (i v : Nat) : (d.set x i v).vfEn = d.vfEn := rfl

/-! ### Dev.raise -/

@[simp] theorem Dev.raise_phase (x : Fld) (i : Nat) : (d.raise x i).phase = d.phase := rfl
@[simp] theorem Dev.raise_sfc (x : Fld) (i : Nat) : (d.raise x i).sfc = d.sfc := rfl
@[simp] theorem Dev.raise_clock (x : Fld) (i : Nat) : (d.raise x i).clock = d.clock := rfl
@[simp] theorem Dev.raise_cnt (x : Fld) (i : Nat) : (d.raise x i).cnt = d.cnt := rfl
@[simp] theorem Dev.raise_amb (x : Fld) (i : Nat) : (d.raise x i).amb = d.amb := rfl
@[simp] theorem Dev.raise_free (x : Fld) (i : Nat) : (d.raise x i).free = d.free := rfl
@[simp] theorem Dev.raise_timers (x : Fld) (i : Nat) : (d.raise x i).timers = d.timers := rfl
@[simp] theorem Dev.raise_runs (x : Fld) (i : Nat) : (d.raise x i).runs = d.runs := rfl
@[simp] theorem Dev.raise_hits (x : Fld) (i : Nat) : (d.raise x i).hits = d.hits := rfl
@[simp] theorem Dev.raise_latches (x : Fld) (i : Nat) : (d.raise x i).latches = d.latches := rfl
@[simp] theorem Dev.raise_outbox (x : Fld) (i : Nat) : (d.raise x i).outbox = d.outbox := rfl
@[simp] theorem Dev.raise_life (x : Fld) (i : Nat) : (d.raise x i).life = d.life := rfl
@[simp] theorem Dev.raise_rng (x : Fld) (i : Nat) : (d.raise x i).rng = d.rng := rfl
@[simp] theorem Dev.raise_mail (x : Fld) (i : Nat) : (d.raise x i).mail = d.mail := rfl
@[simp] theorem Dev.raise_keys (x : Fld) (i : Nat) : (d.raise x i).keys = d.keys := rfl
@[simp] theorem Dev.raise_boughs (x : Fld) (i : Nat) : (d.raise x i).boughs = d.boughs := rfl
@[simp] theorem Dev.raise_groves (x : Fld) (i : Nat) : (d.raise x i).groves = d.groves := rfl
@[simp] theorem Dev.raise_keep (x : Fld) (i : Nat) : (d.raise x i).keep = d.keep := rfl
@[simp] theorem Dev.raise_keepSfc (x : Fld) (i : Nat) : (d.raise x i).keepSfc = d.keepSfc := rfl
@[simp] theorem Dev.raise_keepHmac (x : Fld) (i : Nat) : (d.raise x i).keepHmac = d.keepHmac := rfl
@[simp] theorem Dev.raise_slots (x : Fld) (i : Nat) : (d.raise x i).slots = d.slots := rfl
@[simp] theorem Dev.raise_slotMeta (x : Fld) (i : Nat) : (d.raise x i).slotMeta = d.slotMeta := rfl
@[simp] theorem Dev.raise_ceil (x : Fld) (i : Nat) : (d.raise x i).ceil = d.ceil := rfl
@[simp] theorem Dev.raise_lastCtr (x : Fld) (i : Nat) : (d.raise x i).lastCtr = d.lastCtr := rfl
@[simp] theorem Dev.raise_keng (x : Fld) (i : Nat) : (d.raise x i).keng = d.keng := rfl
@[simp] theorem Dev.raise_keyCmd (x : Fld) (i : Nat) : (d.raise x i).keyCmd = d.keyCmd := rfl
@[simp] theorem Dev.raise_shared (x : Fld) (i : Nat) : (d.raise x i).shared = d.shared := rfl
@[simp] theorem Dev.raise_slices (x : Fld) (i : Nat) : (d.raise x i).slices = d.slices := rfl
@[simp] theorem Dev.raise_conns (x : Fld) (i : Nat) : (d.raise x i).conns = d.conns := rfl
@[simp] theorem Dev.raise_slcSwap (x : Fld) (i : Nat) : (d.raise x i).slcSwap = d.slcSwap := rfl
@[simp] theorem Dev.raise_pgs (x : Fld) (i : Nat) : (d.raise x i).pgs = d.pgs := rfl
@[simp] theorem Dev.raise_flows (x : Fld) (i : Nat) : (d.raise x i).flows = d.flows := rfl
@[simp] theorem Dev.raise_pipes (x : Fld) (i : Nat) : (d.raise x i).pipes = d.pipes := rfl
@[simp] theorem Dev.raise_frag (x : Fld) (i : Nat) : (d.raise x i).frag = d.frag := rfl
@[simp] theorem Dev.raise_bridge (x : Fld) (i : Nat) : (d.raise x i).bridge = d.bridge := rfl
@[simp] theorem Dev.raise_deferred (x : Fld) (i : Nat) : (d.raise x i).deferred = d.deferred := rfl
@[simp] theorem Dev.raise_learnPtr (x : Fld) (i : Nat) : (d.raise x i).learnPtr = d.learnPtr := rfl
@[simp] theorem Dev.raise_lpm4 (x : Fld) (i : Nat) : (d.raise x i).lpm4 = d.lpm4 := rfl
@[simp] theorem Dev.raise_lpm6 (x : Fld) (i : Nat) : (d.raise x i).lpm6 = d.lpm6 := rfl
@[simp] theorem Dev.raise_asc (x : Fld) (i : Nat) : (d.raise x i).asc = d.asc := rfl
@[simp] theorem Dev.raise_ringPtr (x : Fld) (i : Nat) : (d.raise x i).ringPtr = d.ringPtr := rfl
@[simp] theorem Dev.raise_locks (x : Fld) (i : Nat) : (d.raise x i).locks = d.locks := rfl
@[simp] theorem Dev.raise_winCmd (x : Fld) (i : Nat) : (d.raise x i).winCmd = d.winCmd := rfl
@[simp] theorem Dev.raise_casMi (x : Fld) (i : Nat) : (d.raise x i).casMi = d.casMi := rfl
@[simp] theorem Dev.raise_bufs (x : Fld) (i : Nat) : (d.raise x i).bufs = d.bufs := rfl
@[simp] theorem Dev.raise_caches (x : Fld) (i : Nat) : (d.raise x i).caches = d.caches := rfl
@[simp] theorem Dev.raise_queues (x : Fld) (i : Nat) : (d.raise x i).queues = d.queues := rfl
@[simp] theorem Dev.raise_uid (x : Fld) (i : Nat) : (d.raise x i).uid = d.uid := rfl
@[simp] theorem Dev.raise_reps (x : Fld) (i : Nat) : (d.raise x i).reps = d.reps := rfl
@[simp] theorem Dev.raise_hold (x : Fld) (i : Nat) : (d.raise x i).hold = d.hold := rfl
@[simp] theorem Dev.raise_heldAt (x : Fld) (i : Nat) : (d.raise x i).heldAt = d.heldAt := rfl
@[simp] theorem Dev.raise_holdFell (x : Fld) (i : Nat) : (d.raise x i).holdFell = d.holdFell := rfl
@[simp] theorem Dev.raise_spillPtr (x : Fld) (i : Nat) : (d.raise x i).spillPtr = d.spillPtr := rfl
@[simp] theorem Dev.raise_holdPtr (x : Fld) (i : Nat) : (d.raise x i).holdPtr = d.holdPtr := rfl
@[simp] theorem Dev.raise_tierKeys (x : Fld) (i : Nat) : (d.raise x i).tierKeys = d.tierKeys := rfl
@[simp] theorem Dev.raise_hbm (x : Fld) (i : Nat) : (d.raise x i).hbm = d.hbm := rfl
@[simp] theorem Dev.raise_cxl (x : Fld) (i : Nat) : (d.raise x i).cxl = d.cxl := rfl
@[simp] theorem Dev.raise_used (x : Fld) (i : Nat) : (d.raise x i).used = d.used := rfl
@[simp] theorem Dev.raise_training (x : Fld) (i : Nat) : (d.raise x i).training = d.training := rfl
@[simp] theorem Dev.raise_trained (x : Fld) (i : Nat) : (d.raise x i).trained = d.trained := rfl
@[simp] theorem Dev.raise_shadow (x : Fld) (i : Nat) : (d.raise x i).shadow = d.shadow := rfl
@[simp] theorem Dev.raise_replay (x : Fld) (i : Nat) : (d.raise x i).replay = d.replay := rfl
@[simp] theorem Dev.raise_bkts (x : Fld) (i : Nat) : (d.raise x i).bkts = d.bkts := rfl
@[simp] theorem Dev.raise_restAcc (x : Fld) (i : Nat) : (d.raise x i).restAcc = d.restAcc := rfl
@[simp] theorem Dev.raise_meters (x : Fld) (i : Nat) : (d.raise x i).meters = d.meters := rfl
@[simp] theorem Dev.raise_wheels (x : Fld) (i : Nat) : (d.raise x i).wheels = d.wheels := rfl
@[simp] theorem Dev.raise_samplers (x : Fld) (i : Nat) : (d.raise x i).samplers = d.samplers := rfl
@[simp] theorem Dev.raise_mate (x : Fld) (i : Nat) : (d.raise x i).mate = d.mate := rfl
@[simp] theorem Dev.raise_domA (x : Fld) (i : Nat) : (d.raise x i).domA = d.domA := rfl
@[simp] theorem Dev.raise_cyc (x : Fld) (i : Nat) : (d.raise x i).cyc = d.cyc := rfl
@[simp] theorem Dev.raise_ageHold (x : Fld) (i : Nat) : (d.raise x i).ageHold = d.ageHold := rfl
@[simp] theorem Dev.raise_replayWait (x : Fld) (i : Nat) : (d.raise x i).replayWait = d.replayWait := rfl
@[simp] theorem Dev.raise_edgeSet (x : Fld) (i : Nat) : (d.raise x i).edgeSet = d.edgeSet := rfl
@[simp] theorem Dev.raise_bases (x : Fld) (i : Nat) : (d.raise x i).bases = d.bases := rfl
@[simp] theorem Dev.raise_selBack (x : Fld) (i : Nat) : (d.raise x i).selBack = d.selBack := rfl
@[simp] theorem Dev.raise_domB (x : Fld) (i : Nat) : (d.raise x i).domB = d.domB := rfl
@[simp] theorem Dev.raise_sigma (x : Fld) (i : Nat) : (d.raise x i).sigma = d.sigma := rfl
@[simp] theorem Dev.raise_edgeTime (x : Fld) (i : Nat) : (d.raise x i).edgeTime = d.edgeTime := rfl
@[simp] theorem Dev.raise_prevEdge (x : Fld) (i : Nat) : (d.raise x i).prevEdge = d.prevEdge := rfl
@[simp] theorem Dev.raise_srcEdge (x : Fld) (i : Nat) : (d.raise x i).srcEdge = d.srcEdge := rfl
@[simp] theorem Dev.raise_edgeOpen (x : Fld) (i : Nat) : (d.raise x i).edgeOpen = d.edgeOpen := rfl
@[simp] theorem Dev.raise_caps (x : Fld) (i : Nat) : (d.raise x i).caps = d.caps := rfl
@[simp] theorem Dev.raise_txMsg (x : Fld) (i : Nat) : (d.raise x i).txMsg = d.txMsg := rfl
@[simp] theorem Dev.raise_outgoing (x : Fld) (i : Nat) : (d.raise x i).outgoing = d.outgoing := rfl
@[simp] theorem Dev.raise_srcLost (x : Fld) (i : Nat) : (d.raise x i).srcLost = d.srcLost := rfl
@[simp] theorem Dev.raise_safeOut (x : Fld) (i : Nat) : (d.raise x i).safeOut = d.safeOut := rfl
@[simp] theorem Dev.raise_muxWait (x : Fld) (i : Nat) : (d.raise x i).muxWait = d.muxWait := rfl
@[simp] theorem Dev.raise_resumeReq (x : Fld) (i : Nat) : (d.raise x i).resumeReq = d.resumeReq := rfl
@[simp] theorem Dev.raise_board (x : Fld) (i : Nat) : (d.raise x i).board = d.board := rfl
@[simp] theorem Dev.raise_flash (x : Fld) (i : Nat) : (d.raise x i).flash = d.flash := rfl
@[simp] theorem Dev.raise_flashOp (x : Fld) (i : Nat) : (d.raise x i).flashOp = d.flashOp := rfl
@[simp] theorem Dev.raise_inServ (x : Fld) (i : Nat) : (d.raise x i).inServ = d.inServ := rfl
@[simp] theorem Dev.raise_savedPend (x : Fld) (i : Nat) : (d.raise x i).savedPend = d.savedPend := rfl
@[simp] theorem Dev.raise_vecs (x : Fld) (i : Nat) : (d.raise x i).vecs = d.vecs := rfl
@[simp] theorem Dev.raise_msixEn (x : Fld) (i : Nat) : (d.raise x i).msixEn = d.msixEn := rfl
@[simp] theorem Dev.raise_funcMask (x : Fld) (i : Nat) : (d.raise x i).funcMask = d.funcMask := rfl
@[simp] theorem Dev.raise_vfEn (x : Fld) (i : Nat) : (d.raise x i).vfEn = d.vfEn := rfl

/-! ### Dev.raiseBit -/

@[simp] theorem Dev.raiseBit_phase (x : Fld) (i b : Nat) : (d.raiseBit x i b).phase = d.phase := rfl
@[simp] theorem Dev.raiseBit_sfc (x : Fld) (i b : Nat) : (d.raiseBit x i b).sfc = d.sfc := rfl
@[simp] theorem Dev.raiseBit_clock (x : Fld) (i b : Nat) : (d.raiseBit x i b).clock = d.clock := rfl
@[simp] theorem Dev.raiseBit_cnt (x : Fld) (i b : Nat) : (d.raiseBit x i b).cnt = d.cnt := rfl
@[simp] theorem Dev.raiseBit_amb (x : Fld) (i b : Nat) : (d.raiseBit x i b).amb = d.amb := rfl
@[simp] theorem Dev.raiseBit_free (x : Fld) (i b : Nat) : (d.raiseBit x i b).free = d.free := rfl
@[simp] theorem Dev.raiseBit_timers (x : Fld) (i b : Nat) : (d.raiseBit x i b).timers = d.timers := rfl
@[simp] theorem Dev.raiseBit_runs (x : Fld) (i b : Nat) : (d.raiseBit x i b).runs = d.runs := rfl
@[simp] theorem Dev.raiseBit_hits (x : Fld) (i b : Nat) : (d.raiseBit x i b).hits = d.hits := rfl
@[simp] theorem Dev.raiseBit_latches (x : Fld) (i b : Nat) : (d.raiseBit x i b).latches = d.latches := rfl
@[simp] theorem Dev.raiseBit_outbox (x : Fld) (i b : Nat) : (d.raiseBit x i b).outbox = d.outbox := rfl
@[simp] theorem Dev.raiseBit_life (x : Fld) (i b : Nat) : (d.raiseBit x i b).life = d.life := rfl
@[simp] theorem Dev.raiseBit_rng (x : Fld) (i b : Nat) : (d.raiseBit x i b).rng = d.rng := rfl
@[simp] theorem Dev.raiseBit_mail (x : Fld) (i b : Nat) : (d.raiseBit x i b).mail = d.mail := rfl
@[simp] theorem Dev.raiseBit_keys (x : Fld) (i b : Nat) : (d.raiseBit x i b).keys = d.keys := rfl
@[simp] theorem Dev.raiseBit_boughs (x : Fld) (i b : Nat) : (d.raiseBit x i b).boughs = d.boughs := rfl
@[simp] theorem Dev.raiseBit_groves (x : Fld) (i b : Nat) : (d.raiseBit x i b).groves = d.groves := rfl
@[simp] theorem Dev.raiseBit_keep (x : Fld) (i b : Nat) : (d.raiseBit x i b).keep = d.keep := rfl
@[simp] theorem Dev.raiseBit_keepSfc (x : Fld) (i b : Nat) : (d.raiseBit x i b).keepSfc = d.keepSfc := rfl
@[simp] theorem Dev.raiseBit_keepHmac (x : Fld) (i b : Nat) : (d.raiseBit x i b).keepHmac = d.keepHmac := rfl
@[simp] theorem Dev.raiseBit_slots (x : Fld) (i b : Nat) : (d.raiseBit x i b).slots = d.slots := rfl
@[simp] theorem Dev.raiseBit_slotMeta (x : Fld) (i b : Nat) : (d.raiseBit x i b).slotMeta = d.slotMeta := rfl
@[simp] theorem Dev.raiseBit_ceil (x : Fld) (i b : Nat) : (d.raiseBit x i b).ceil = d.ceil := rfl
@[simp] theorem Dev.raiseBit_lastCtr (x : Fld) (i b : Nat) : (d.raiseBit x i b).lastCtr = d.lastCtr := rfl
@[simp] theorem Dev.raiseBit_keng (x : Fld) (i b : Nat) : (d.raiseBit x i b).keng = d.keng := rfl
@[simp] theorem Dev.raiseBit_keyCmd (x : Fld) (i b : Nat) : (d.raiseBit x i b).keyCmd = d.keyCmd := rfl
@[simp] theorem Dev.raiseBit_shared (x : Fld) (i b : Nat) : (d.raiseBit x i b).shared = d.shared := rfl
@[simp] theorem Dev.raiseBit_slices (x : Fld) (i b : Nat) : (d.raiseBit x i b).slices = d.slices := rfl
@[simp] theorem Dev.raiseBit_conns (x : Fld) (i b : Nat) : (d.raiseBit x i b).conns = d.conns := rfl
@[simp] theorem Dev.raiseBit_slcSwap (x : Fld) (i b : Nat) : (d.raiseBit x i b).slcSwap = d.slcSwap := rfl
@[simp] theorem Dev.raiseBit_pgs (x : Fld) (i b : Nat) : (d.raiseBit x i b).pgs = d.pgs := rfl
@[simp] theorem Dev.raiseBit_flows (x : Fld) (i b : Nat) : (d.raiseBit x i b).flows = d.flows := rfl
@[simp] theorem Dev.raiseBit_pipes (x : Fld) (i b : Nat) : (d.raiseBit x i b).pipes = d.pipes := rfl
@[simp] theorem Dev.raiseBit_frag (x : Fld) (i b : Nat) : (d.raiseBit x i b).frag = d.frag := rfl
@[simp] theorem Dev.raiseBit_bridge (x : Fld) (i b : Nat) : (d.raiseBit x i b).bridge = d.bridge := rfl
@[simp] theorem Dev.raiseBit_deferred (x : Fld) (i b : Nat) : (d.raiseBit x i b).deferred = d.deferred := rfl
@[simp] theorem Dev.raiseBit_learnPtr (x : Fld) (i b : Nat) : (d.raiseBit x i b).learnPtr = d.learnPtr := rfl
@[simp] theorem Dev.raiseBit_lpm4 (x : Fld) (i b : Nat) : (d.raiseBit x i b).lpm4 = d.lpm4 := rfl
@[simp] theorem Dev.raiseBit_lpm6 (x : Fld) (i b : Nat) : (d.raiseBit x i b).lpm6 = d.lpm6 := rfl
@[simp] theorem Dev.raiseBit_asc (x : Fld) (i b : Nat) : (d.raiseBit x i b).asc = d.asc := rfl
@[simp] theorem Dev.raiseBit_ringPtr (x : Fld) (i b : Nat) : (d.raiseBit x i b).ringPtr = d.ringPtr := rfl
@[simp] theorem Dev.raiseBit_locks (x : Fld) (i b : Nat) : (d.raiseBit x i b).locks = d.locks := rfl
@[simp] theorem Dev.raiseBit_winCmd (x : Fld) (i b : Nat) : (d.raiseBit x i b).winCmd = d.winCmd := rfl
@[simp] theorem Dev.raiseBit_casMi (x : Fld) (i b : Nat) : (d.raiseBit x i b).casMi = d.casMi := rfl
@[simp] theorem Dev.raiseBit_bufs (x : Fld) (i b : Nat) : (d.raiseBit x i b).bufs = d.bufs := rfl
@[simp] theorem Dev.raiseBit_caches (x : Fld) (i b : Nat) : (d.raiseBit x i b).caches = d.caches := rfl
@[simp] theorem Dev.raiseBit_queues (x : Fld) (i b : Nat) : (d.raiseBit x i b).queues = d.queues := rfl
@[simp] theorem Dev.raiseBit_uid (x : Fld) (i b : Nat) : (d.raiseBit x i b).uid = d.uid := rfl
@[simp] theorem Dev.raiseBit_reps (x : Fld) (i b : Nat) : (d.raiseBit x i b).reps = d.reps := rfl
@[simp] theorem Dev.raiseBit_hold (x : Fld) (i b : Nat) : (d.raiseBit x i b).hold = d.hold := rfl
@[simp] theorem Dev.raiseBit_heldAt (x : Fld) (i b : Nat) : (d.raiseBit x i b).heldAt = d.heldAt := rfl
@[simp] theorem Dev.raiseBit_holdFell (x : Fld) (i b : Nat) : (d.raiseBit x i b).holdFell = d.holdFell := rfl
@[simp] theorem Dev.raiseBit_spillPtr (x : Fld) (i b : Nat) : (d.raiseBit x i b).spillPtr = d.spillPtr := rfl
@[simp] theorem Dev.raiseBit_holdPtr (x : Fld) (i b : Nat) : (d.raiseBit x i b).holdPtr = d.holdPtr := rfl
@[simp] theorem Dev.raiseBit_tierKeys (x : Fld) (i b : Nat) : (d.raiseBit x i b).tierKeys = d.tierKeys := rfl
@[simp] theorem Dev.raiseBit_hbm (x : Fld) (i b : Nat) : (d.raiseBit x i b).hbm = d.hbm := rfl
@[simp] theorem Dev.raiseBit_cxl (x : Fld) (i b : Nat) : (d.raiseBit x i b).cxl = d.cxl := rfl
@[simp] theorem Dev.raiseBit_used (x : Fld) (i b : Nat) : (d.raiseBit x i b).used = d.used := rfl
@[simp] theorem Dev.raiseBit_training (x : Fld) (i b : Nat) : (d.raiseBit x i b).training = d.training := rfl
@[simp] theorem Dev.raiseBit_trained (x : Fld) (i b : Nat) : (d.raiseBit x i b).trained = d.trained := rfl
@[simp] theorem Dev.raiseBit_shadow (x : Fld) (i b : Nat) : (d.raiseBit x i b).shadow = d.shadow := rfl
@[simp] theorem Dev.raiseBit_replay (x : Fld) (i b : Nat) : (d.raiseBit x i b).replay = d.replay := rfl
@[simp] theorem Dev.raiseBit_bkts (x : Fld) (i b : Nat) : (d.raiseBit x i b).bkts = d.bkts := rfl
@[simp] theorem Dev.raiseBit_restAcc (x : Fld) (i b : Nat) : (d.raiseBit x i b).restAcc = d.restAcc := rfl
@[simp] theorem Dev.raiseBit_meters (x : Fld) (i b : Nat) : (d.raiseBit x i b).meters = d.meters := rfl
@[simp] theorem Dev.raiseBit_wheels (x : Fld) (i b : Nat) : (d.raiseBit x i b).wheels = d.wheels := rfl
@[simp] theorem Dev.raiseBit_samplers (x : Fld) (i b : Nat) : (d.raiseBit x i b).samplers = d.samplers := rfl
@[simp] theorem Dev.raiseBit_mate (x : Fld) (i b : Nat) : (d.raiseBit x i b).mate = d.mate := rfl
@[simp] theorem Dev.raiseBit_domA (x : Fld) (i b : Nat) : (d.raiseBit x i b).domA = d.domA := rfl
@[simp] theorem Dev.raiseBit_cyc (x : Fld) (i b : Nat) : (d.raiseBit x i b).cyc = d.cyc := rfl
@[simp] theorem Dev.raiseBit_ageHold (x : Fld) (i b : Nat) : (d.raiseBit x i b).ageHold = d.ageHold := rfl
@[simp] theorem Dev.raiseBit_replayWait (x : Fld) (i b : Nat) : (d.raiseBit x i b).replayWait = d.replayWait := rfl
@[simp] theorem Dev.raiseBit_edgeSet (x : Fld) (i b : Nat) : (d.raiseBit x i b).edgeSet = d.edgeSet := rfl
@[simp] theorem Dev.raiseBit_bases (x : Fld) (i b : Nat) : (d.raiseBit x i b).bases = d.bases := rfl
@[simp] theorem Dev.raiseBit_selBack (x : Fld) (i b : Nat) : (d.raiseBit x i b).selBack = d.selBack := rfl
@[simp] theorem Dev.raiseBit_domB (x : Fld) (i b : Nat) : (d.raiseBit x i b).domB = d.domB := rfl
@[simp] theorem Dev.raiseBit_sigma (x : Fld) (i b : Nat) : (d.raiseBit x i b).sigma = d.sigma := rfl
@[simp] theorem Dev.raiseBit_edgeTime (x : Fld) (i b : Nat) : (d.raiseBit x i b).edgeTime = d.edgeTime := rfl
@[simp] theorem Dev.raiseBit_prevEdge (x : Fld) (i b : Nat) : (d.raiseBit x i b).prevEdge = d.prevEdge := rfl
@[simp] theorem Dev.raiseBit_srcEdge (x : Fld) (i b : Nat) : (d.raiseBit x i b).srcEdge = d.srcEdge := rfl
@[simp] theorem Dev.raiseBit_edgeOpen (x : Fld) (i b : Nat) : (d.raiseBit x i b).edgeOpen = d.edgeOpen := rfl
@[simp] theorem Dev.raiseBit_caps (x : Fld) (i b : Nat) : (d.raiseBit x i b).caps = d.caps := rfl
@[simp] theorem Dev.raiseBit_txMsg (x : Fld) (i b : Nat) : (d.raiseBit x i b).txMsg = d.txMsg := rfl
@[simp] theorem Dev.raiseBit_outgoing (x : Fld) (i b : Nat) : (d.raiseBit x i b).outgoing = d.outgoing := rfl
@[simp] theorem Dev.raiseBit_srcLost (x : Fld) (i b : Nat) : (d.raiseBit x i b).srcLost = d.srcLost := rfl
@[simp] theorem Dev.raiseBit_safeOut (x : Fld) (i b : Nat) : (d.raiseBit x i b).safeOut = d.safeOut := rfl
@[simp] theorem Dev.raiseBit_muxWait (x : Fld) (i b : Nat) : (d.raiseBit x i b).muxWait = d.muxWait := rfl
@[simp] theorem Dev.raiseBit_resumeReq (x : Fld) (i b : Nat) : (d.raiseBit x i b).resumeReq = d.resumeReq := rfl
@[simp] theorem Dev.raiseBit_board (x : Fld) (i b : Nat) : (d.raiseBit x i b).board = d.board := rfl
@[simp] theorem Dev.raiseBit_flash (x : Fld) (i b : Nat) : (d.raiseBit x i b).flash = d.flash := rfl
@[simp] theorem Dev.raiseBit_flashOp (x : Fld) (i b : Nat) : (d.raiseBit x i b).flashOp = d.flashOp := rfl
@[simp] theorem Dev.raiseBit_inServ (x : Fld) (i b : Nat) : (d.raiseBit x i b).inServ = d.inServ := rfl
@[simp] theorem Dev.raiseBit_savedPend (x : Fld) (i b : Nat) : (d.raiseBit x i b).savedPend = d.savedPend := rfl
@[simp] theorem Dev.raiseBit_vecs (x : Fld) (i b : Nat) : (d.raiseBit x i b).vecs = d.vecs := rfl
@[simp] theorem Dev.raiseBit_msixEn (x : Fld) (i b : Nat) : (d.raiseBit x i b).msixEn = d.msixEn := rfl
@[simp] theorem Dev.raiseBit_funcMask (x : Fld) (i b : Nat) : (d.raiseBit x i b).funcMask = d.funcMask := rfl
@[simp] theorem Dev.raiseBit_vfEn (x : Fld) (i b : Nat) : (d.raiseBit x i b).vfEn = d.vfEn := rfl

/-! ### Dev.setInt -/

@[simp] theorem Dev.setInt_phase (x : Fld) (i : Nat) (v : Int) : (d.setInt x i v).phase = d.phase := rfl
@[simp] theorem Dev.setInt_sfc (x : Fld) (i : Nat) (v : Int) : (d.setInt x i v).sfc = d.sfc := rfl
@[simp] theorem Dev.setInt_clock (x : Fld) (i : Nat) (v : Int) : (d.setInt x i v).clock = d.clock := rfl
@[simp] theorem Dev.setInt_cnt (x : Fld) (i : Nat) (v : Int) : (d.setInt x i v).cnt = d.cnt := rfl
@[simp] theorem Dev.setInt_amb (x : Fld) (i : Nat) (v : Int) : (d.setInt x i v).amb = d.amb := rfl
@[simp] theorem Dev.setInt_free (x : Fld) (i : Nat) (v : Int) : (d.setInt x i v).free = d.free := rfl
@[simp] theorem Dev.setInt_timers (x : Fld) (i : Nat) (v : Int) : (d.setInt x i v).timers = d.timers := rfl
@[simp] theorem Dev.setInt_runs (x : Fld) (i : Nat) (v : Int) : (d.setInt x i v).runs = d.runs := rfl
@[simp] theorem Dev.setInt_hits (x : Fld) (i : Nat) (v : Int) : (d.setInt x i v).hits = d.hits := rfl
@[simp] theorem Dev.setInt_latches (x : Fld) (i : Nat) (v : Int) : (d.setInt x i v).latches = d.latches := rfl
@[simp] theorem Dev.setInt_outbox (x : Fld) (i : Nat) (v : Int) : (d.setInt x i v).outbox = d.outbox := rfl
@[simp] theorem Dev.setInt_life (x : Fld) (i : Nat) (v : Int) : (d.setInt x i v).life = d.life := rfl
@[simp] theorem Dev.setInt_rng (x : Fld) (i : Nat) (v : Int) : (d.setInt x i v).rng = d.rng := rfl
@[simp] theorem Dev.setInt_mail (x : Fld) (i : Nat) (v : Int) : (d.setInt x i v).mail = d.mail := rfl
@[simp] theorem Dev.setInt_keys (x : Fld) (i : Nat) (v : Int) : (d.setInt x i v).keys = d.keys := rfl
@[simp] theorem Dev.setInt_boughs (x : Fld) (i : Nat) (v : Int) : (d.setInt x i v).boughs = d.boughs := rfl
@[simp] theorem Dev.setInt_groves (x : Fld) (i : Nat) (v : Int) : (d.setInt x i v).groves = d.groves := rfl
@[simp] theorem Dev.setInt_keep (x : Fld) (i : Nat) (v : Int) : (d.setInt x i v).keep = d.keep := rfl
@[simp] theorem Dev.setInt_keepSfc (x : Fld) (i : Nat) (v : Int) : (d.setInt x i v).keepSfc = d.keepSfc := rfl
@[simp] theorem Dev.setInt_keepHmac (x : Fld) (i : Nat) (v : Int) : (d.setInt x i v).keepHmac = d.keepHmac := rfl
@[simp] theorem Dev.setInt_slots (x : Fld) (i : Nat) (v : Int) : (d.setInt x i v).slots = d.slots := rfl
@[simp] theorem Dev.setInt_slotMeta (x : Fld) (i : Nat) (v : Int) : (d.setInt x i v).slotMeta = d.slotMeta := rfl
@[simp] theorem Dev.setInt_ceil (x : Fld) (i : Nat) (v : Int) : (d.setInt x i v).ceil = d.ceil := rfl
@[simp] theorem Dev.setInt_lastCtr (x : Fld) (i : Nat) (v : Int) : (d.setInt x i v).lastCtr = d.lastCtr := rfl
@[simp] theorem Dev.setInt_keng (x : Fld) (i : Nat) (v : Int) : (d.setInt x i v).keng = d.keng := rfl
@[simp] theorem Dev.setInt_keyCmd (x : Fld) (i : Nat) (v : Int) : (d.setInt x i v).keyCmd = d.keyCmd := rfl
@[simp] theorem Dev.setInt_shared (x : Fld) (i : Nat) (v : Int) : (d.setInt x i v).shared = d.shared := rfl
@[simp] theorem Dev.setInt_slices (x : Fld) (i : Nat) (v : Int) : (d.setInt x i v).slices = d.slices := rfl
@[simp] theorem Dev.setInt_conns (x : Fld) (i : Nat) (v : Int) : (d.setInt x i v).conns = d.conns := rfl
@[simp] theorem Dev.setInt_slcSwap (x : Fld) (i : Nat) (v : Int) : (d.setInt x i v).slcSwap = d.slcSwap := rfl
@[simp] theorem Dev.setInt_pgs (x : Fld) (i : Nat) (v : Int) : (d.setInt x i v).pgs = d.pgs := rfl
@[simp] theorem Dev.setInt_flows (x : Fld) (i : Nat) (v : Int) : (d.setInt x i v).flows = d.flows := rfl
@[simp] theorem Dev.setInt_pipes (x : Fld) (i : Nat) (v : Int) : (d.setInt x i v).pipes = d.pipes := rfl
@[simp] theorem Dev.setInt_frag (x : Fld) (i : Nat) (v : Int) : (d.setInt x i v).frag = d.frag := rfl
@[simp] theorem Dev.setInt_bridge (x : Fld) (i : Nat) (v : Int) : (d.setInt x i v).bridge = d.bridge := rfl
@[simp] theorem Dev.setInt_deferred (x : Fld) (i : Nat) (v : Int) : (d.setInt x i v).deferred = d.deferred := rfl
@[simp] theorem Dev.setInt_learnPtr (x : Fld) (i : Nat) (v : Int) : (d.setInt x i v).learnPtr = d.learnPtr := rfl
@[simp] theorem Dev.setInt_lpm4 (x : Fld) (i : Nat) (v : Int) : (d.setInt x i v).lpm4 = d.lpm4 := rfl
@[simp] theorem Dev.setInt_lpm6 (x : Fld) (i : Nat) (v : Int) : (d.setInt x i v).lpm6 = d.lpm6 := rfl
@[simp] theorem Dev.setInt_asc (x : Fld) (i : Nat) (v : Int) : (d.setInt x i v).asc = d.asc := rfl
@[simp] theorem Dev.setInt_ringPtr (x : Fld) (i : Nat) (v : Int) : (d.setInt x i v).ringPtr = d.ringPtr := rfl
@[simp] theorem Dev.setInt_locks (x : Fld) (i : Nat) (v : Int) : (d.setInt x i v).locks = d.locks := rfl
@[simp] theorem Dev.setInt_winCmd (x : Fld) (i : Nat) (v : Int) : (d.setInt x i v).winCmd = d.winCmd := rfl
@[simp] theorem Dev.setInt_casMi (x : Fld) (i : Nat) (v : Int) : (d.setInt x i v).casMi = d.casMi := rfl
@[simp] theorem Dev.setInt_bufs (x : Fld) (i : Nat) (v : Int) : (d.setInt x i v).bufs = d.bufs := rfl
@[simp] theorem Dev.setInt_caches (x : Fld) (i : Nat) (v : Int) : (d.setInt x i v).caches = d.caches := rfl
@[simp] theorem Dev.setInt_queues (x : Fld) (i : Nat) (v : Int) : (d.setInt x i v).queues = d.queues := rfl
@[simp] theorem Dev.setInt_uid (x : Fld) (i : Nat) (v : Int) : (d.setInt x i v).uid = d.uid := rfl
@[simp] theorem Dev.setInt_reps (x : Fld) (i : Nat) (v : Int) : (d.setInt x i v).reps = d.reps := rfl
@[simp] theorem Dev.setInt_hold (x : Fld) (i : Nat) (v : Int) : (d.setInt x i v).hold = d.hold := rfl
@[simp] theorem Dev.setInt_heldAt (x : Fld) (i : Nat) (v : Int) : (d.setInt x i v).heldAt = d.heldAt := rfl
@[simp] theorem Dev.setInt_holdFell (x : Fld) (i : Nat) (v : Int) : (d.setInt x i v).holdFell = d.holdFell := rfl
@[simp] theorem Dev.setInt_spillPtr (x : Fld) (i : Nat) (v : Int) : (d.setInt x i v).spillPtr = d.spillPtr := rfl
@[simp] theorem Dev.setInt_holdPtr (x : Fld) (i : Nat) (v : Int) : (d.setInt x i v).holdPtr = d.holdPtr := rfl
@[simp] theorem Dev.setInt_tierKeys (x : Fld) (i : Nat) (v : Int) : (d.setInt x i v).tierKeys = d.tierKeys := rfl
@[simp] theorem Dev.setInt_hbm (x : Fld) (i : Nat) (v : Int) : (d.setInt x i v).hbm = d.hbm := rfl
@[simp] theorem Dev.setInt_cxl (x : Fld) (i : Nat) (v : Int) : (d.setInt x i v).cxl = d.cxl := rfl
@[simp] theorem Dev.setInt_used (x : Fld) (i : Nat) (v : Int) : (d.setInt x i v).used = d.used := rfl
@[simp] theorem Dev.setInt_training (x : Fld) (i : Nat) (v : Int) : (d.setInt x i v).training = d.training := rfl
@[simp] theorem Dev.setInt_trained (x : Fld) (i : Nat) (v : Int) : (d.setInt x i v).trained = d.trained := rfl
@[simp] theorem Dev.setInt_shadow (x : Fld) (i : Nat) (v : Int) : (d.setInt x i v).shadow = d.shadow := rfl
@[simp] theorem Dev.setInt_replay (x : Fld) (i : Nat) (v : Int) : (d.setInt x i v).replay = d.replay := rfl
@[simp] theorem Dev.setInt_bkts (x : Fld) (i : Nat) (v : Int) : (d.setInt x i v).bkts = d.bkts := rfl
@[simp] theorem Dev.setInt_restAcc (x : Fld) (i : Nat) (v : Int) : (d.setInt x i v).restAcc = d.restAcc := rfl
@[simp] theorem Dev.setInt_meters (x : Fld) (i : Nat) (v : Int) : (d.setInt x i v).meters = d.meters := rfl
@[simp] theorem Dev.setInt_wheels (x : Fld) (i : Nat) (v : Int) : (d.setInt x i v).wheels = d.wheels := rfl
@[simp] theorem Dev.setInt_samplers (x : Fld) (i : Nat) (v : Int) : (d.setInt x i v).samplers = d.samplers := rfl
@[simp] theorem Dev.setInt_mate (x : Fld) (i : Nat) (v : Int) : (d.setInt x i v).mate = d.mate := rfl
@[simp] theorem Dev.setInt_domA (x : Fld) (i : Nat) (v : Int) : (d.setInt x i v).domA = d.domA := rfl
@[simp] theorem Dev.setInt_cyc (x : Fld) (i : Nat) (v : Int) : (d.setInt x i v).cyc = d.cyc := rfl
@[simp] theorem Dev.setInt_ageHold (x : Fld) (i : Nat) (v : Int) : (d.setInt x i v).ageHold = d.ageHold := rfl
@[simp] theorem Dev.setInt_replayWait (x : Fld) (i : Nat) (v : Int) : (d.setInt x i v).replayWait = d.replayWait := rfl
@[simp] theorem Dev.setInt_edgeSet (x : Fld) (i : Nat) (v : Int) : (d.setInt x i v).edgeSet = d.edgeSet := rfl
@[simp] theorem Dev.setInt_bases (x : Fld) (i : Nat) (v : Int) : (d.setInt x i v).bases = d.bases := rfl
@[simp] theorem Dev.setInt_selBack (x : Fld) (i : Nat) (v : Int) : (d.setInt x i v).selBack = d.selBack := rfl
@[simp] theorem Dev.setInt_domB (x : Fld) (i : Nat) (v : Int) : (d.setInt x i v).domB = d.domB := rfl
@[simp] theorem Dev.setInt_sigma (x : Fld) (i : Nat) (v : Int) : (d.setInt x i v).sigma = d.sigma := rfl
@[simp] theorem Dev.setInt_edgeTime (x : Fld) (i : Nat) (v : Int) : (d.setInt x i v).edgeTime = d.edgeTime := rfl
@[simp] theorem Dev.setInt_prevEdge (x : Fld) (i : Nat) (v : Int) : (d.setInt x i v).prevEdge = d.prevEdge := rfl
@[simp] theorem Dev.setInt_srcEdge (x : Fld) (i : Nat) (v : Int) : (d.setInt x i v).srcEdge = d.srcEdge := rfl
@[simp] theorem Dev.setInt_edgeOpen (x : Fld) (i : Nat) (v : Int) : (d.setInt x i v).edgeOpen = d.edgeOpen := rfl
@[simp] theorem Dev.setInt_caps (x : Fld) (i : Nat) (v : Int) : (d.setInt x i v).caps = d.caps := rfl
@[simp] theorem Dev.setInt_txMsg (x : Fld) (i : Nat) (v : Int) : (d.setInt x i v).txMsg = d.txMsg := rfl
@[simp] theorem Dev.setInt_outgoing (x : Fld) (i : Nat) (v : Int) : (d.setInt x i v).outgoing = d.outgoing := rfl
@[simp] theorem Dev.setInt_srcLost (x : Fld) (i : Nat) (v : Int) : (d.setInt x i v).srcLost = d.srcLost := rfl
@[simp] theorem Dev.setInt_safeOut (x : Fld) (i : Nat) (v : Int) : (d.setInt x i v).safeOut = d.safeOut := rfl
@[simp] theorem Dev.setInt_muxWait (x : Fld) (i : Nat) (v : Int) : (d.setInt x i v).muxWait = d.muxWait := rfl
@[simp] theorem Dev.setInt_resumeReq (x : Fld) (i : Nat) (v : Int) : (d.setInt x i v).resumeReq = d.resumeReq := rfl
@[simp] theorem Dev.setInt_board (x : Fld) (i : Nat) (v : Int) : (d.setInt x i v).board = d.board := rfl
@[simp] theorem Dev.setInt_flash (x : Fld) (i : Nat) (v : Int) : (d.setInt x i v).flash = d.flash := rfl
@[simp] theorem Dev.setInt_flashOp (x : Fld) (i : Nat) (v : Int) : (d.setInt x i v).flashOp = d.flashOp := rfl
@[simp] theorem Dev.setInt_inServ (x : Fld) (i : Nat) (v : Int) : (d.setInt x i v).inServ = d.inServ := rfl
@[simp] theorem Dev.setInt_savedPend (x : Fld) (i : Nat) (v : Int) : (d.setInt x i v).savedPend = d.savedPend := rfl
@[simp] theorem Dev.setInt_vecs (x : Fld) (i : Nat) (v : Int) : (d.setInt x i v).vecs = d.vecs := rfl
@[simp] theorem Dev.setInt_msixEn (x : Fld) (i : Nat) (v : Int) : (d.setInt x i v).msixEn = d.msixEn := rfl
@[simp] theorem Dev.setInt_funcMask (x : Fld) (i : Nat) (v : Int) : (d.setInt x i v).funcMask = d.funcMask := rfl
@[simp] theorem Dev.setInt_vfEn (x : Fld) (i : Nat) (v : Int) : (d.setInt x i v).vfEn = d.vfEn := rfl

/-! ### Dev.count -/

@[simp] theorem Dev.count_phase (f : Fam) (c : Ctr) (i n : Nat) : (d.count f c i n).phase = d.phase := rfl
@[simp] theorem Dev.count_sfc (f : Fam) (c : Ctr) (i n : Nat) : (d.count f c i n).sfc = d.sfc := rfl
@[simp] theorem Dev.count_clock (f : Fam) (c : Ctr) (i n : Nat) : (d.count f c i n).clock = d.clock := rfl
@[simp] theorem Dev.count_sts (f : Fam) (c : Ctr) (i n : Nat) : (d.count f c i n).sts = d.sts := rfl
@[simp] theorem Dev.count_amb (f : Fam) (c : Ctr) (i n : Nat) : (d.count f c i n).amb = d.amb := rfl
@[simp] theorem Dev.count_free (f : Fam) (c : Ctr) (i n : Nat) : (d.count f c i n).free = d.free := rfl
@[simp] theorem Dev.count_timers (f : Fam) (c : Ctr) (i n : Nat) : (d.count f c i n).timers = d.timers := rfl
@[simp] theorem Dev.count_runs (f : Fam) (c : Ctr) (i n : Nat) : (d.count f c i n).runs = d.runs := rfl
@[simp] theorem Dev.count_hits (f : Fam) (c : Ctr) (i n : Nat) : (d.count f c i n).hits = d.hits := rfl
@[simp] theorem Dev.count_latches (f : Fam) (c : Ctr) (i n : Nat) : (d.count f c i n).latches = d.latches := rfl
@[simp] theorem Dev.count_outbox (f : Fam) (c : Ctr) (i n : Nat) : (d.count f c i n).outbox = d.outbox := rfl
@[simp] theorem Dev.count_life (f : Fam) (c : Ctr) (i n : Nat) : (d.count f c i n).life = d.life := rfl
@[simp] theorem Dev.count_rng (f : Fam) (c : Ctr) (i n : Nat) : (d.count f c i n).rng = d.rng := rfl
@[simp] theorem Dev.count_mail (f : Fam) (c : Ctr) (i n : Nat) : (d.count f c i n).mail = d.mail := rfl
@[simp] theorem Dev.count_keys (f : Fam) (c : Ctr) (i n : Nat) : (d.count f c i n).keys = d.keys := rfl
@[simp] theorem Dev.count_boughs (f : Fam) (c : Ctr) (i n : Nat) : (d.count f c i n).boughs = d.boughs := rfl
@[simp] theorem Dev.count_groves (f : Fam) (c : Ctr) (i n : Nat) : (d.count f c i n).groves = d.groves := rfl
@[simp] theorem Dev.count_keep (f : Fam) (c : Ctr) (i n : Nat) : (d.count f c i n).keep = d.keep := rfl
@[simp] theorem Dev.count_keepSfc (f : Fam) (c : Ctr) (i n : Nat) : (d.count f c i n).keepSfc = d.keepSfc := rfl
@[simp] theorem Dev.count_keepHmac (f : Fam) (c : Ctr) (i n : Nat) : (d.count f c i n).keepHmac = d.keepHmac := rfl
@[simp] theorem Dev.count_slots (f : Fam) (c : Ctr) (i n : Nat) : (d.count f c i n).slots = d.slots := rfl
@[simp] theorem Dev.count_slotMeta (f : Fam) (c : Ctr) (i n : Nat) : (d.count f c i n).slotMeta = d.slotMeta := rfl
@[simp] theorem Dev.count_ceil (f : Fam) (c : Ctr) (i n : Nat) : (d.count f c i n).ceil = d.ceil := rfl
@[simp] theorem Dev.count_lastCtr (f : Fam) (c : Ctr) (i n : Nat) : (d.count f c i n).lastCtr = d.lastCtr := rfl
@[simp] theorem Dev.count_keng (f : Fam) (c : Ctr) (i n : Nat) : (d.count f c i n).keng = d.keng := rfl
@[simp] theorem Dev.count_keyCmd (f : Fam) (c : Ctr) (i n : Nat) : (d.count f c i n).keyCmd = d.keyCmd := rfl
@[simp] theorem Dev.count_shared (f : Fam) (c : Ctr) (i n : Nat) : (d.count f c i n).shared = d.shared := rfl
@[simp] theorem Dev.count_slices (f : Fam) (c : Ctr) (i n : Nat) : (d.count f c i n).slices = d.slices := rfl
@[simp] theorem Dev.count_conns (f : Fam) (c : Ctr) (i n : Nat) : (d.count f c i n).conns = d.conns := rfl
@[simp] theorem Dev.count_slcSwap (f : Fam) (c : Ctr) (i n : Nat) : (d.count f c i n).slcSwap = d.slcSwap := rfl
@[simp] theorem Dev.count_pgs (f : Fam) (c : Ctr) (i n : Nat) : (d.count f c i n).pgs = d.pgs := rfl
@[simp] theorem Dev.count_flows (f : Fam) (c : Ctr) (i n : Nat) : (d.count f c i n).flows = d.flows := rfl
@[simp] theorem Dev.count_pipes (f : Fam) (c : Ctr) (i n : Nat) : (d.count f c i n).pipes = d.pipes := rfl
@[simp] theorem Dev.count_frag (f : Fam) (c : Ctr) (i n : Nat) : (d.count f c i n).frag = d.frag := rfl
@[simp] theorem Dev.count_bridge (f : Fam) (c : Ctr) (i n : Nat) : (d.count f c i n).bridge = d.bridge := rfl
@[simp] theorem Dev.count_deferred (f : Fam) (c : Ctr) (i n : Nat) : (d.count f c i n).deferred = d.deferred := rfl
@[simp] theorem Dev.count_learnPtr (f : Fam) (c : Ctr) (i n : Nat) : (d.count f c i n).learnPtr = d.learnPtr := rfl
@[simp] theorem Dev.count_lpm4 (f : Fam) (c : Ctr) (i n : Nat) : (d.count f c i n).lpm4 = d.lpm4 := rfl
@[simp] theorem Dev.count_lpm6 (f : Fam) (c : Ctr) (i n : Nat) : (d.count f c i n).lpm6 = d.lpm6 := rfl
@[simp] theorem Dev.count_asc (f : Fam) (c : Ctr) (i n : Nat) : (d.count f c i n).asc = d.asc := rfl
@[simp] theorem Dev.count_ringPtr (f : Fam) (c : Ctr) (i n : Nat) : (d.count f c i n).ringPtr = d.ringPtr := rfl
@[simp] theorem Dev.count_locks (f : Fam) (c : Ctr) (i n : Nat) : (d.count f c i n).locks = d.locks := rfl
@[simp] theorem Dev.count_winCmd (f : Fam) (c : Ctr) (i n : Nat) : (d.count f c i n).winCmd = d.winCmd := rfl
@[simp] theorem Dev.count_casMi (f : Fam) (c : Ctr) (i n : Nat) : (d.count f c i n).casMi = d.casMi := rfl
@[simp] theorem Dev.count_bufs (f : Fam) (c : Ctr) (i n : Nat) : (d.count f c i n).bufs = d.bufs := rfl
@[simp] theorem Dev.count_caches (f : Fam) (c : Ctr) (i n : Nat) : (d.count f c i n).caches = d.caches := rfl
@[simp] theorem Dev.count_queues (f : Fam) (c : Ctr) (i n : Nat) : (d.count f c i n).queues = d.queues := rfl
@[simp] theorem Dev.count_uid (f : Fam) (c : Ctr) (i n : Nat) : (d.count f c i n).uid = d.uid := rfl
@[simp] theorem Dev.count_reps (f : Fam) (c : Ctr) (i n : Nat) : (d.count f c i n).reps = d.reps := rfl
@[simp] theorem Dev.count_hold (f : Fam) (c : Ctr) (i n : Nat) : (d.count f c i n).hold = d.hold := rfl
@[simp] theorem Dev.count_heldAt (f : Fam) (c : Ctr) (i n : Nat) : (d.count f c i n).heldAt = d.heldAt := rfl
@[simp] theorem Dev.count_holdFell (f : Fam) (c : Ctr) (i n : Nat) : (d.count f c i n).holdFell = d.holdFell := rfl
@[simp] theorem Dev.count_spillPtr (f : Fam) (c : Ctr) (i n : Nat) : (d.count f c i n).spillPtr = d.spillPtr := rfl
@[simp] theorem Dev.count_holdPtr (f : Fam) (c : Ctr) (i n : Nat) : (d.count f c i n).holdPtr = d.holdPtr := rfl
@[simp] theorem Dev.count_tierKeys (f : Fam) (c : Ctr) (i n : Nat) : (d.count f c i n).tierKeys = d.tierKeys := rfl
@[simp] theorem Dev.count_hbm (f : Fam) (c : Ctr) (i n : Nat) : (d.count f c i n).hbm = d.hbm := rfl
@[simp] theorem Dev.count_cxl (f : Fam) (c : Ctr) (i n : Nat) : (d.count f c i n).cxl = d.cxl := rfl
@[simp] theorem Dev.count_used (f : Fam) (c : Ctr) (i n : Nat) : (d.count f c i n).used = d.used := rfl
@[simp] theorem Dev.count_training (f : Fam) (c : Ctr) (i n : Nat) : (d.count f c i n).training = d.training := rfl
@[simp] theorem Dev.count_trained (f : Fam) (c : Ctr) (i n : Nat) : (d.count f c i n).trained = d.trained := rfl
@[simp] theorem Dev.count_shadow (f : Fam) (c : Ctr) (i n : Nat) : (d.count f c i n).shadow = d.shadow := rfl
@[simp] theorem Dev.count_replay (f : Fam) (c : Ctr) (i n : Nat) : (d.count f c i n).replay = d.replay := rfl
@[simp] theorem Dev.count_bkts (f : Fam) (c : Ctr) (i n : Nat) : (d.count f c i n).bkts = d.bkts := rfl
@[simp] theorem Dev.count_restAcc (f : Fam) (c : Ctr) (i n : Nat) : (d.count f c i n).restAcc = d.restAcc := rfl
@[simp] theorem Dev.count_meters (f : Fam) (c : Ctr) (i n : Nat) : (d.count f c i n).meters = d.meters := rfl
@[simp] theorem Dev.count_wheels (f : Fam) (c : Ctr) (i n : Nat) : (d.count f c i n).wheels = d.wheels := rfl
@[simp] theorem Dev.count_samplers (f : Fam) (c : Ctr) (i n : Nat) : (d.count f c i n).samplers = d.samplers := rfl
@[simp] theorem Dev.count_mate (f : Fam) (c : Ctr) (i n : Nat) : (d.count f c i n).mate = d.mate := rfl
@[simp] theorem Dev.count_domA (f : Fam) (c : Ctr) (i n : Nat) : (d.count f c i n).domA = d.domA := rfl
@[simp] theorem Dev.count_cyc (f : Fam) (c : Ctr) (i n : Nat) : (d.count f c i n).cyc = d.cyc := rfl
@[simp] theorem Dev.count_ageHold (f : Fam) (c : Ctr) (i n : Nat) : (d.count f c i n).ageHold = d.ageHold := rfl
@[simp] theorem Dev.count_replayWait (f : Fam) (c : Ctr) (i n : Nat) : (d.count f c i n).replayWait = d.replayWait := rfl
@[simp] theorem Dev.count_edgeSet (f : Fam) (c : Ctr) (i n : Nat) : (d.count f c i n).edgeSet = d.edgeSet := rfl
@[simp] theorem Dev.count_bases (f : Fam) (c : Ctr) (i n : Nat) : (d.count f c i n).bases = d.bases := rfl
@[simp] theorem Dev.count_selBack (f : Fam) (c : Ctr) (i n : Nat) : (d.count f c i n).selBack = d.selBack := rfl
@[simp] theorem Dev.count_domB (f : Fam) (c : Ctr) (i n : Nat) : (d.count f c i n).domB = d.domB := rfl
@[simp] theorem Dev.count_sigma (f : Fam) (c : Ctr) (i n : Nat) : (d.count f c i n).sigma = d.sigma := rfl
@[simp] theorem Dev.count_edgeTime (f : Fam) (c : Ctr) (i n : Nat) : (d.count f c i n).edgeTime = d.edgeTime := rfl
@[simp] theorem Dev.count_prevEdge (f : Fam) (c : Ctr) (i n : Nat) : (d.count f c i n).prevEdge = d.prevEdge := rfl
@[simp] theorem Dev.count_srcEdge (f : Fam) (c : Ctr) (i n : Nat) : (d.count f c i n).srcEdge = d.srcEdge := rfl
@[simp] theorem Dev.count_edgeOpen (f : Fam) (c : Ctr) (i n : Nat) : (d.count f c i n).edgeOpen = d.edgeOpen := rfl
@[simp] theorem Dev.count_caps (f : Fam) (c : Ctr) (i n : Nat) : (d.count f c i n).caps = d.caps := rfl
@[simp] theorem Dev.count_txMsg (f : Fam) (c : Ctr) (i n : Nat) : (d.count f c i n).txMsg = d.txMsg := rfl
@[simp] theorem Dev.count_outgoing (f : Fam) (c : Ctr) (i n : Nat) : (d.count f c i n).outgoing = d.outgoing := rfl
@[simp] theorem Dev.count_srcLost (f : Fam) (c : Ctr) (i n : Nat) : (d.count f c i n).srcLost = d.srcLost := rfl
@[simp] theorem Dev.count_safeOut (f : Fam) (c : Ctr) (i n : Nat) : (d.count f c i n).safeOut = d.safeOut := rfl
@[simp] theorem Dev.count_muxWait (f : Fam) (c : Ctr) (i n : Nat) : (d.count f c i n).muxWait = d.muxWait := rfl
@[simp] theorem Dev.count_resumeReq (f : Fam) (c : Ctr) (i n : Nat) : (d.count f c i n).resumeReq = d.resumeReq := rfl
@[simp] theorem Dev.count_board (f : Fam) (c : Ctr) (i n : Nat) : (d.count f c i n).board = d.board := rfl
@[simp] theorem Dev.count_flash (f : Fam) (c : Ctr) (i n : Nat) : (d.count f c i n).flash = d.flash := rfl
@[simp] theorem Dev.count_flashOp (f : Fam) (c : Ctr) (i n : Nat) : (d.count f c i n).flashOp = d.flashOp := rfl
@[simp] theorem Dev.count_inServ (f : Fam) (c : Ctr) (i n : Nat) : (d.count f c i n).inServ = d.inServ := rfl
@[simp] theorem Dev.count_savedPend (f : Fam) (c : Ctr) (i n : Nat) : (d.count f c i n).savedPend = d.savedPend := rfl
@[simp] theorem Dev.count_vecs (f : Fam) (c : Ctr) (i n : Nat) : (d.count f c i n).vecs = d.vecs := rfl
@[simp] theorem Dev.count_msixEn (f : Fam) (c : Ctr) (i n : Nat) : (d.count f c i n).msixEn = d.msixEn := rfl
@[simp] theorem Dev.count_funcMask (f : Fam) (c : Ctr) (i n : Nat) : (d.count f c i n).funcMask = d.funcMask := rfl
@[simp] theorem Dev.count_vfEn (f : Fam) (c : Ctr) (i n : Nat) : (d.count f c i n).vfEn = d.vfEn := rfl

/-! ### Dev.emit -/

@[simp] theorem Dev.emit_phase (o : Output) : (d.emit o).phase = d.phase := rfl
@[simp] theorem Dev.emit_sfc (o : Output) : (d.emit o).sfc = d.sfc := rfl
@[simp] theorem Dev.emit_clock (o : Output) : (d.emit o).clock = d.clock := rfl
@[simp] theorem Dev.emit_sts (o : Output) : (d.emit o).sts = d.sts := rfl
@[simp] theorem Dev.emit_cnt (o : Output) : (d.emit o).cnt = d.cnt := rfl
@[simp] theorem Dev.emit_amb (o : Output) : (d.emit o).amb = d.amb := rfl
@[simp] theorem Dev.emit_free (o : Output) : (d.emit o).free = d.free := rfl
@[simp] theorem Dev.emit_timers (o : Output) : (d.emit o).timers = d.timers := rfl
@[simp] theorem Dev.emit_runs (o : Output) : (d.emit o).runs = d.runs := rfl
@[simp] theorem Dev.emit_hits (o : Output) : (d.emit o).hits = d.hits := rfl
@[simp] theorem Dev.emit_latches (o : Output) : (d.emit o).latches = d.latches := rfl
@[simp] theorem Dev.emit_life (o : Output) : (d.emit o).life = d.life := rfl
@[simp] theorem Dev.emit_rng (o : Output) : (d.emit o).rng = d.rng := rfl
@[simp] theorem Dev.emit_mail (o : Output) : (d.emit o).mail = d.mail := rfl
@[simp] theorem Dev.emit_keys (o : Output) : (d.emit o).keys = d.keys := rfl
@[simp] theorem Dev.emit_boughs (o : Output) : (d.emit o).boughs = d.boughs := rfl
@[simp] theorem Dev.emit_groves (o : Output) : (d.emit o).groves = d.groves := rfl
@[simp] theorem Dev.emit_keep (o : Output) : (d.emit o).keep = d.keep := rfl
@[simp] theorem Dev.emit_keepSfc (o : Output) : (d.emit o).keepSfc = d.keepSfc := rfl
@[simp] theorem Dev.emit_keepHmac (o : Output) : (d.emit o).keepHmac = d.keepHmac := rfl
@[simp] theorem Dev.emit_slots (o : Output) : (d.emit o).slots = d.slots := rfl
@[simp] theorem Dev.emit_slotMeta (o : Output) : (d.emit o).slotMeta = d.slotMeta := rfl
@[simp] theorem Dev.emit_ceil (o : Output) : (d.emit o).ceil = d.ceil := rfl
@[simp] theorem Dev.emit_lastCtr (o : Output) : (d.emit o).lastCtr = d.lastCtr := rfl
@[simp] theorem Dev.emit_keng (o : Output) : (d.emit o).keng = d.keng := rfl
@[simp] theorem Dev.emit_keyCmd (o : Output) : (d.emit o).keyCmd = d.keyCmd := rfl
@[simp] theorem Dev.emit_shared (o : Output) : (d.emit o).shared = d.shared := rfl
@[simp] theorem Dev.emit_slices (o : Output) : (d.emit o).slices = d.slices := rfl
@[simp] theorem Dev.emit_conns (o : Output) : (d.emit o).conns = d.conns := rfl
@[simp] theorem Dev.emit_slcSwap (o : Output) : (d.emit o).slcSwap = d.slcSwap := rfl
@[simp] theorem Dev.emit_pgs (o : Output) : (d.emit o).pgs = d.pgs := rfl
@[simp] theorem Dev.emit_flows (o : Output) : (d.emit o).flows = d.flows := rfl
@[simp] theorem Dev.emit_pipes (o : Output) : (d.emit o).pipes = d.pipes := rfl
@[simp] theorem Dev.emit_frag (o : Output) : (d.emit o).frag = d.frag := rfl
@[simp] theorem Dev.emit_bridge (o : Output) : (d.emit o).bridge = d.bridge := rfl
@[simp] theorem Dev.emit_deferred (o : Output) : (d.emit o).deferred = d.deferred := rfl
@[simp] theorem Dev.emit_learnPtr (o : Output) : (d.emit o).learnPtr = d.learnPtr := rfl
@[simp] theorem Dev.emit_lpm4 (o : Output) : (d.emit o).lpm4 = d.lpm4 := rfl
@[simp] theorem Dev.emit_lpm6 (o : Output) : (d.emit o).lpm6 = d.lpm6 := rfl
@[simp] theorem Dev.emit_asc (o : Output) : (d.emit o).asc = d.asc := rfl
@[simp] theorem Dev.emit_ringPtr (o : Output) : (d.emit o).ringPtr = d.ringPtr := rfl
@[simp] theorem Dev.emit_locks (o : Output) : (d.emit o).locks = d.locks := rfl
@[simp] theorem Dev.emit_winCmd (o : Output) : (d.emit o).winCmd = d.winCmd := rfl
@[simp] theorem Dev.emit_casMi (o : Output) : (d.emit o).casMi = d.casMi := rfl
@[simp] theorem Dev.emit_bufs (o : Output) : (d.emit o).bufs = d.bufs := rfl
@[simp] theorem Dev.emit_caches (o : Output) : (d.emit o).caches = d.caches := rfl
@[simp] theorem Dev.emit_queues (o : Output) : (d.emit o).queues = d.queues := rfl
@[simp] theorem Dev.emit_uid (o : Output) : (d.emit o).uid = d.uid := rfl
@[simp] theorem Dev.emit_reps (o : Output) : (d.emit o).reps = d.reps := rfl
@[simp] theorem Dev.emit_hold (o : Output) : (d.emit o).hold = d.hold := rfl
@[simp] theorem Dev.emit_heldAt (o : Output) : (d.emit o).heldAt = d.heldAt := rfl
@[simp] theorem Dev.emit_holdFell (o : Output) : (d.emit o).holdFell = d.holdFell := rfl
@[simp] theorem Dev.emit_spillPtr (o : Output) : (d.emit o).spillPtr = d.spillPtr := rfl
@[simp] theorem Dev.emit_holdPtr (o : Output) : (d.emit o).holdPtr = d.holdPtr := rfl
@[simp] theorem Dev.emit_tierKeys (o : Output) : (d.emit o).tierKeys = d.tierKeys := rfl
@[simp] theorem Dev.emit_hbm (o : Output) : (d.emit o).hbm = d.hbm := rfl
@[simp] theorem Dev.emit_cxl (o : Output) : (d.emit o).cxl = d.cxl := rfl
@[simp] theorem Dev.emit_used (o : Output) : (d.emit o).used = d.used := rfl
@[simp] theorem Dev.emit_training (o : Output) : (d.emit o).training = d.training := rfl
@[simp] theorem Dev.emit_trained (o : Output) : (d.emit o).trained = d.trained := rfl
@[simp] theorem Dev.emit_shadow (o : Output) : (d.emit o).shadow = d.shadow := rfl
@[simp] theorem Dev.emit_replay (o : Output) : (d.emit o).replay = d.replay := rfl
@[simp] theorem Dev.emit_bkts (o : Output) : (d.emit o).bkts = d.bkts := rfl
@[simp] theorem Dev.emit_restAcc (o : Output) : (d.emit o).restAcc = d.restAcc := rfl
@[simp] theorem Dev.emit_meters (o : Output) : (d.emit o).meters = d.meters := rfl
@[simp] theorem Dev.emit_wheels (o : Output) : (d.emit o).wheels = d.wheels := rfl
@[simp] theorem Dev.emit_samplers (o : Output) : (d.emit o).samplers = d.samplers := rfl
@[simp] theorem Dev.emit_mate (o : Output) : (d.emit o).mate = d.mate := rfl
@[simp] theorem Dev.emit_domA (o : Output) : (d.emit o).domA = d.domA := rfl
@[simp] theorem Dev.emit_cyc (o : Output) : (d.emit o).cyc = d.cyc := rfl
@[simp] theorem Dev.emit_ageHold (o : Output) : (d.emit o).ageHold = d.ageHold := rfl
@[simp] theorem Dev.emit_replayWait (o : Output) : (d.emit o).replayWait = d.replayWait := rfl
@[simp] theorem Dev.emit_edgeSet (o : Output) : (d.emit o).edgeSet = d.edgeSet := rfl
@[simp] theorem Dev.emit_bases (o : Output) : (d.emit o).bases = d.bases := rfl
@[simp] theorem Dev.emit_selBack (o : Output) : (d.emit o).selBack = d.selBack := rfl
@[simp] theorem Dev.emit_domB (o : Output) : (d.emit o).domB = d.domB := rfl
@[simp] theorem Dev.emit_sigma (o : Output) : (d.emit o).sigma = d.sigma := rfl
@[simp] theorem Dev.emit_edgeTime (o : Output) : (d.emit o).edgeTime = d.edgeTime := rfl
@[simp] theorem Dev.emit_prevEdge (o : Output) : (d.emit o).prevEdge = d.prevEdge := rfl
@[simp] theorem Dev.emit_srcEdge (o : Output) : (d.emit o).srcEdge = d.srcEdge := rfl
@[simp] theorem Dev.emit_edgeOpen (o : Output) : (d.emit o).edgeOpen = d.edgeOpen := rfl
@[simp] theorem Dev.emit_caps (o : Output) : (d.emit o).caps = d.caps := rfl
@[simp] theorem Dev.emit_txMsg (o : Output) : (d.emit o).txMsg = d.txMsg := rfl
@[simp] theorem Dev.emit_outgoing (o : Output) : (d.emit o).outgoing = d.outgoing := rfl
@[simp] theorem Dev.emit_srcLost (o : Output) : (d.emit o).srcLost = d.srcLost := rfl
@[simp] theorem Dev.emit_safeOut (o : Output) : (d.emit o).safeOut = d.safeOut := rfl
@[simp] theorem Dev.emit_muxWait (o : Output) : (d.emit o).muxWait = d.muxWait := rfl
@[simp] theorem Dev.emit_resumeReq (o : Output) : (d.emit o).resumeReq = d.resumeReq := rfl
@[simp] theorem Dev.emit_board (o : Output) : (d.emit o).board = d.board := rfl
@[simp] theorem Dev.emit_flash (o : Output) : (d.emit o).flash = d.flash := rfl
@[simp] theorem Dev.emit_flashOp (o : Output) : (d.emit o).flashOp = d.flashOp := rfl
@[simp] theorem Dev.emit_inServ (o : Output) : (d.emit o).inServ = d.inServ := rfl
@[simp] theorem Dev.emit_savedPend (o : Output) : (d.emit o).savedPend = d.savedPend := rfl
@[simp] theorem Dev.emit_vecs (o : Output) : (d.emit o).vecs = d.vecs := rfl
@[simp] theorem Dev.emit_msixEn (o : Output) : (d.emit o).msixEn = d.msixEn := rfl
@[simp] theorem Dev.emit_funcMask (o : Output) : (d.emit o).funcMask = d.funcMask := rfl
@[simp] theorem Dev.emit_vfEn (o : Output) : (d.emit o).vfEn = d.vfEn := rfl

/-! ### Dev.armNow -/

@[simp] theorem Dev.armNow_phase (k : TimerKind) (i : Nat) : (d.armNow k i).phase = d.phase := rfl
@[simp] theorem Dev.armNow_sfc (k : TimerKind) (i : Nat) : (d.armNow k i).sfc = d.sfc := rfl
@[simp] theorem Dev.armNow_clock (k : TimerKind) (i : Nat) : (d.armNow k i).clock = d.clock := rfl
@[simp] theorem Dev.armNow_sts (k : TimerKind) (i : Nat) : (d.armNow k i).sts = d.sts := rfl
@[simp] theorem Dev.armNow_cnt (k : TimerKind) (i : Nat) : (d.armNow k i).cnt = d.cnt := rfl
@[simp] theorem Dev.armNow_amb (k : TimerKind) (i : Nat) : (d.armNow k i).amb = d.amb := rfl
@[simp] theorem Dev.armNow_free (k : TimerKind) (i : Nat) : (d.armNow k i).free = d.free := rfl
@[simp] theorem Dev.armNow_runs (k : TimerKind) (i : Nat) : (d.armNow k i).runs = d.runs := rfl
@[simp] theorem Dev.armNow_hits (k : TimerKind) (i : Nat) : (d.armNow k i).hits = d.hits := rfl
@[simp] theorem Dev.armNow_latches (k : TimerKind) (i : Nat) : (d.armNow k i).latches = d.latches := rfl
@[simp] theorem Dev.armNow_outbox (k : TimerKind) (i : Nat) : (d.armNow k i).outbox = d.outbox := rfl
@[simp] theorem Dev.armNow_life (k : TimerKind) (i : Nat) : (d.armNow k i).life = d.life := rfl
@[simp] theorem Dev.armNow_rng (k : TimerKind) (i : Nat) : (d.armNow k i).rng = d.rng := rfl
@[simp] theorem Dev.armNow_mail (k : TimerKind) (i : Nat) : (d.armNow k i).mail = d.mail := rfl
@[simp] theorem Dev.armNow_keys (k : TimerKind) (i : Nat) : (d.armNow k i).keys = d.keys := rfl
@[simp] theorem Dev.armNow_boughs (k : TimerKind) (i : Nat) : (d.armNow k i).boughs = d.boughs := rfl
@[simp] theorem Dev.armNow_groves (k : TimerKind) (i : Nat) : (d.armNow k i).groves = d.groves := rfl
@[simp] theorem Dev.armNow_keep (k : TimerKind) (i : Nat) : (d.armNow k i).keep = d.keep := rfl
@[simp] theorem Dev.armNow_keepSfc (k : TimerKind) (i : Nat) : (d.armNow k i).keepSfc = d.keepSfc := rfl
@[simp] theorem Dev.armNow_keepHmac (k : TimerKind) (i : Nat) : (d.armNow k i).keepHmac = d.keepHmac := rfl
@[simp] theorem Dev.armNow_slots (k : TimerKind) (i : Nat) : (d.armNow k i).slots = d.slots := rfl
@[simp] theorem Dev.armNow_slotMeta (k : TimerKind) (i : Nat) : (d.armNow k i).slotMeta = d.slotMeta := rfl
@[simp] theorem Dev.armNow_ceil (k : TimerKind) (i : Nat) : (d.armNow k i).ceil = d.ceil := rfl
@[simp] theorem Dev.armNow_lastCtr (k : TimerKind) (i : Nat) : (d.armNow k i).lastCtr = d.lastCtr := rfl
@[simp] theorem Dev.armNow_keng (k : TimerKind) (i : Nat) : (d.armNow k i).keng = d.keng := rfl
@[simp] theorem Dev.armNow_keyCmd (k : TimerKind) (i : Nat) : (d.armNow k i).keyCmd = d.keyCmd := rfl
@[simp] theorem Dev.armNow_shared (k : TimerKind) (i : Nat) : (d.armNow k i).shared = d.shared := rfl
@[simp] theorem Dev.armNow_slices (k : TimerKind) (i : Nat) : (d.armNow k i).slices = d.slices := rfl
@[simp] theorem Dev.armNow_conns (k : TimerKind) (i : Nat) : (d.armNow k i).conns = d.conns := rfl
@[simp] theorem Dev.armNow_slcSwap (k : TimerKind) (i : Nat) : (d.armNow k i).slcSwap = d.slcSwap := rfl
@[simp] theorem Dev.armNow_pgs (k : TimerKind) (i : Nat) : (d.armNow k i).pgs = d.pgs := rfl
@[simp] theorem Dev.armNow_flows (k : TimerKind) (i : Nat) : (d.armNow k i).flows = d.flows := rfl
@[simp] theorem Dev.armNow_pipes (k : TimerKind) (i : Nat) : (d.armNow k i).pipes = d.pipes := rfl
@[simp] theorem Dev.armNow_frag (k : TimerKind) (i : Nat) : (d.armNow k i).frag = d.frag := rfl
@[simp] theorem Dev.armNow_bridge (k : TimerKind) (i : Nat) : (d.armNow k i).bridge = d.bridge := rfl
@[simp] theorem Dev.armNow_deferred (k : TimerKind) (i : Nat) : (d.armNow k i).deferred = d.deferred := rfl
@[simp] theorem Dev.armNow_learnPtr (k : TimerKind) (i : Nat) : (d.armNow k i).learnPtr = d.learnPtr := rfl
@[simp] theorem Dev.armNow_lpm4 (k : TimerKind) (i : Nat) : (d.armNow k i).lpm4 = d.lpm4 := rfl
@[simp] theorem Dev.armNow_lpm6 (k : TimerKind) (i : Nat) : (d.armNow k i).lpm6 = d.lpm6 := rfl
@[simp] theorem Dev.armNow_asc (k : TimerKind) (i : Nat) : (d.armNow k i).asc = d.asc := rfl
@[simp] theorem Dev.armNow_ringPtr (k : TimerKind) (i : Nat) : (d.armNow k i).ringPtr = d.ringPtr := rfl
@[simp] theorem Dev.armNow_locks (k : TimerKind) (i : Nat) : (d.armNow k i).locks = d.locks := rfl
@[simp] theorem Dev.armNow_winCmd (k : TimerKind) (i : Nat) : (d.armNow k i).winCmd = d.winCmd := rfl
@[simp] theorem Dev.armNow_casMi (k : TimerKind) (i : Nat) : (d.armNow k i).casMi = d.casMi := rfl
@[simp] theorem Dev.armNow_bufs (k : TimerKind) (i : Nat) : (d.armNow k i).bufs = d.bufs := rfl
@[simp] theorem Dev.armNow_caches (k : TimerKind) (i : Nat) : (d.armNow k i).caches = d.caches := rfl
@[simp] theorem Dev.armNow_queues (k : TimerKind) (i : Nat) : (d.armNow k i).queues = d.queues := rfl
@[simp] theorem Dev.armNow_uid (k : TimerKind) (i : Nat) : (d.armNow k i).uid = d.uid := rfl
@[simp] theorem Dev.armNow_reps (k : TimerKind) (i : Nat) : (d.armNow k i).reps = d.reps := rfl
@[simp] theorem Dev.armNow_hold (k : TimerKind) (i : Nat) : (d.armNow k i).hold = d.hold := rfl
@[simp] theorem Dev.armNow_heldAt (k : TimerKind) (i : Nat) : (d.armNow k i).heldAt = d.heldAt := rfl
@[simp] theorem Dev.armNow_holdFell (k : TimerKind) (i : Nat) : (d.armNow k i).holdFell = d.holdFell := rfl
@[simp] theorem Dev.armNow_spillPtr (k : TimerKind) (i : Nat) : (d.armNow k i).spillPtr = d.spillPtr := rfl
@[simp] theorem Dev.armNow_holdPtr (k : TimerKind) (i : Nat) : (d.armNow k i).holdPtr = d.holdPtr := rfl
@[simp] theorem Dev.armNow_tierKeys (k : TimerKind) (i : Nat) : (d.armNow k i).tierKeys = d.tierKeys := rfl
@[simp] theorem Dev.armNow_hbm (k : TimerKind) (i : Nat) : (d.armNow k i).hbm = d.hbm := rfl
@[simp] theorem Dev.armNow_cxl (k : TimerKind) (i : Nat) : (d.armNow k i).cxl = d.cxl := rfl
@[simp] theorem Dev.armNow_used (k : TimerKind) (i : Nat) : (d.armNow k i).used = d.used := rfl
@[simp] theorem Dev.armNow_training (k : TimerKind) (i : Nat) : (d.armNow k i).training = d.training := rfl
@[simp] theorem Dev.armNow_trained (k : TimerKind) (i : Nat) : (d.armNow k i).trained = d.trained := rfl
@[simp] theorem Dev.armNow_shadow (k : TimerKind) (i : Nat) : (d.armNow k i).shadow = d.shadow := rfl
@[simp] theorem Dev.armNow_replay (k : TimerKind) (i : Nat) : (d.armNow k i).replay = d.replay := rfl
@[simp] theorem Dev.armNow_bkts (k : TimerKind) (i : Nat) : (d.armNow k i).bkts = d.bkts := rfl
@[simp] theorem Dev.armNow_restAcc (k : TimerKind) (i : Nat) : (d.armNow k i).restAcc = d.restAcc := rfl
@[simp] theorem Dev.armNow_meters (k : TimerKind) (i : Nat) : (d.armNow k i).meters = d.meters := rfl
@[simp] theorem Dev.armNow_wheels (k : TimerKind) (i : Nat) : (d.armNow k i).wheels = d.wheels := rfl
@[simp] theorem Dev.armNow_samplers (k : TimerKind) (i : Nat) : (d.armNow k i).samplers = d.samplers := rfl
@[simp] theorem Dev.armNow_mate (k : TimerKind) (i : Nat) : (d.armNow k i).mate = d.mate := rfl
@[simp] theorem Dev.armNow_domA (k : TimerKind) (i : Nat) : (d.armNow k i).domA = d.domA := rfl
@[simp] theorem Dev.armNow_cyc (k : TimerKind) (i : Nat) : (d.armNow k i).cyc = d.cyc := rfl
@[simp] theorem Dev.armNow_ageHold (k : TimerKind) (i : Nat) : (d.armNow k i).ageHold = d.ageHold := rfl
@[simp] theorem Dev.armNow_replayWait (k : TimerKind) (i : Nat) : (d.armNow k i).replayWait = d.replayWait := rfl
@[simp] theorem Dev.armNow_edgeSet (k : TimerKind) (i : Nat) : (d.armNow k i).edgeSet = d.edgeSet := rfl
@[simp] theorem Dev.armNow_bases (k : TimerKind) (i : Nat) : (d.armNow k i).bases = d.bases := rfl
@[simp] theorem Dev.armNow_selBack (k : TimerKind) (i : Nat) : (d.armNow k i).selBack = d.selBack := rfl
@[simp] theorem Dev.armNow_domB (k : TimerKind) (i : Nat) : (d.armNow k i).domB = d.domB := rfl
@[simp] theorem Dev.armNow_sigma (k : TimerKind) (i : Nat) : (d.armNow k i).sigma = d.sigma := rfl
@[simp] theorem Dev.armNow_edgeTime (k : TimerKind) (i : Nat) : (d.armNow k i).edgeTime = d.edgeTime := rfl
@[simp] theorem Dev.armNow_prevEdge (k : TimerKind) (i : Nat) : (d.armNow k i).prevEdge = d.prevEdge := rfl
@[simp] theorem Dev.armNow_srcEdge (k : TimerKind) (i : Nat) : (d.armNow k i).srcEdge = d.srcEdge := rfl
@[simp] theorem Dev.armNow_edgeOpen (k : TimerKind) (i : Nat) : (d.armNow k i).edgeOpen = d.edgeOpen := rfl
@[simp] theorem Dev.armNow_caps (k : TimerKind) (i : Nat) : (d.armNow k i).caps = d.caps := rfl
@[simp] theorem Dev.armNow_txMsg (k : TimerKind) (i : Nat) : (d.armNow k i).txMsg = d.txMsg := rfl
@[simp] theorem Dev.armNow_outgoing (k : TimerKind) (i : Nat) : (d.armNow k i).outgoing = d.outgoing := rfl
@[simp] theorem Dev.armNow_srcLost (k : TimerKind) (i : Nat) : (d.armNow k i).srcLost = d.srcLost := rfl
@[simp] theorem Dev.armNow_safeOut (k : TimerKind) (i : Nat) : (d.armNow k i).safeOut = d.safeOut := rfl
@[simp] theorem Dev.armNow_muxWait (k : TimerKind) (i : Nat) : (d.armNow k i).muxWait = d.muxWait := rfl
@[simp] theorem Dev.armNow_resumeReq (k : TimerKind) (i : Nat) : (d.armNow k i).resumeReq = d.resumeReq := rfl
@[simp] theorem Dev.armNow_board (k : TimerKind) (i : Nat) : (d.armNow k i).board = d.board := rfl
@[simp] theorem Dev.armNow_flash (k : TimerKind) (i : Nat) : (d.armNow k i).flash = d.flash := rfl
@[simp] theorem Dev.armNow_flashOp (k : TimerKind) (i : Nat) : (d.armNow k i).flashOp = d.flashOp := rfl
@[simp] theorem Dev.armNow_inServ (k : TimerKind) (i : Nat) : (d.armNow k i).inServ = d.inServ := rfl
@[simp] theorem Dev.armNow_savedPend (k : TimerKind) (i : Nat) : (d.armNow k i).savedPend = d.savedPend := rfl
@[simp] theorem Dev.armNow_vecs (k : TimerKind) (i : Nat) : (d.armNow k i).vecs = d.vecs := rfl
@[simp] theorem Dev.armNow_msixEn (k : TimerKind) (i : Nat) : (d.armNow k i).msixEn = d.msixEn := rfl
@[simp] theorem Dev.armNow_funcMask (k : TimerKind) (i : Nat) : (d.armNow k i).funcMask = d.funcMask := rfl
@[simp] theorem Dev.armNow_vfEn (k : TimerKind) (i : Nat) : (d.armNow k i).vfEn = d.vfEn := rfl

/-! ### Dev.armNext -/

@[simp] theorem Dev.armNext_phase (k : TimerKind) (i : Nat) : (d.armNext k i).phase = d.phase := rfl
@[simp] theorem Dev.armNext_sfc (k : TimerKind) (i : Nat) : (d.armNext k i).sfc = d.sfc := rfl
@[simp] theorem Dev.armNext_clock (k : TimerKind) (i : Nat) : (d.armNext k i).clock = d.clock := rfl
@[simp] theorem Dev.armNext_sts (k : TimerKind) (i : Nat) : (d.armNext k i).sts = d.sts := rfl
@[simp] theorem Dev.armNext_cnt (k : TimerKind) (i : Nat) : (d.armNext k i).cnt = d.cnt := rfl
@[simp] theorem Dev.armNext_amb (k : TimerKind) (i : Nat) : (d.armNext k i).amb = d.amb := rfl
@[simp] theorem Dev.armNext_free (k : TimerKind) (i : Nat) : (d.armNext k i).free = d.free := rfl
@[simp] theorem Dev.armNext_runs (k : TimerKind) (i : Nat) : (d.armNext k i).runs = d.runs := rfl
@[simp] theorem Dev.armNext_hits (k : TimerKind) (i : Nat) : (d.armNext k i).hits = d.hits := rfl
@[simp] theorem Dev.armNext_latches (k : TimerKind) (i : Nat) : (d.armNext k i).latches = d.latches := rfl
@[simp] theorem Dev.armNext_outbox (k : TimerKind) (i : Nat) : (d.armNext k i).outbox = d.outbox := rfl
@[simp] theorem Dev.armNext_life (k : TimerKind) (i : Nat) : (d.armNext k i).life = d.life := rfl
@[simp] theorem Dev.armNext_rng (k : TimerKind) (i : Nat) : (d.armNext k i).rng = d.rng := rfl
@[simp] theorem Dev.armNext_mail (k : TimerKind) (i : Nat) : (d.armNext k i).mail = d.mail := rfl
@[simp] theorem Dev.armNext_keys (k : TimerKind) (i : Nat) : (d.armNext k i).keys = d.keys := rfl
@[simp] theorem Dev.armNext_boughs (k : TimerKind) (i : Nat) : (d.armNext k i).boughs = d.boughs := rfl
@[simp] theorem Dev.armNext_groves (k : TimerKind) (i : Nat) : (d.armNext k i).groves = d.groves := rfl
@[simp] theorem Dev.armNext_keep (k : TimerKind) (i : Nat) : (d.armNext k i).keep = d.keep := rfl
@[simp] theorem Dev.armNext_keepSfc (k : TimerKind) (i : Nat) : (d.armNext k i).keepSfc = d.keepSfc := rfl
@[simp] theorem Dev.armNext_keepHmac (k : TimerKind) (i : Nat) : (d.armNext k i).keepHmac = d.keepHmac := rfl
@[simp] theorem Dev.armNext_slots (k : TimerKind) (i : Nat) : (d.armNext k i).slots = d.slots := rfl
@[simp] theorem Dev.armNext_slotMeta (k : TimerKind) (i : Nat) : (d.armNext k i).slotMeta = d.slotMeta := rfl
@[simp] theorem Dev.armNext_ceil (k : TimerKind) (i : Nat) : (d.armNext k i).ceil = d.ceil := rfl
@[simp] theorem Dev.armNext_lastCtr (k : TimerKind) (i : Nat) : (d.armNext k i).lastCtr = d.lastCtr := rfl
@[simp] theorem Dev.armNext_keng (k : TimerKind) (i : Nat) : (d.armNext k i).keng = d.keng := rfl
@[simp] theorem Dev.armNext_keyCmd (k : TimerKind) (i : Nat) : (d.armNext k i).keyCmd = d.keyCmd := rfl
@[simp] theorem Dev.armNext_shared (k : TimerKind) (i : Nat) : (d.armNext k i).shared = d.shared := rfl
@[simp] theorem Dev.armNext_slices (k : TimerKind) (i : Nat) : (d.armNext k i).slices = d.slices := rfl
@[simp] theorem Dev.armNext_conns (k : TimerKind) (i : Nat) : (d.armNext k i).conns = d.conns := rfl
@[simp] theorem Dev.armNext_slcSwap (k : TimerKind) (i : Nat) : (d.armNext k i).slcSwap = d.slcSwap := rfl
@[simp] theorem Dev.armNext_pgs (k : TimerKind) (i : Nat) : (d.armNext k i).pgs = d.pgs := rfl
@[simp] theorem Dev.armNext_flows (k : TimerKind) (i : Nat) : (d.armNext k i).flows = d.flows := rfl
@[simp] theorem Dev.armNext_pipes (k : TimerKind) (i : Nat) : (d.armNext k i).pipes = d.pipes := rfl
@[simp] theorem Dev.armNext_frag (k : TimerKind) (i : Nat) : (d.armNext k i).frag = d.frag := rfl
@[simp] theorem Dev.armNext_bridge (k : TimerKind) (i : Nat) : (d.armNext k i).bridge = d.bridge := rfl
@[simp] theorem Dev.armNext_deferred (k : TimerKind) (i : Nat) : (d.armNext k i).deferred = d.deferred := rfl
@[simp] theorem Dev.armNext_learnPtr (k : TimerKind) (i : Nat) : (d.armNext k i).learnPtr = d.learnPtr := rfl
@[simp] theorem Dev.armNext_lpm4 (k : TimerKind) (i : Nat) : (d.armNext k i).lpm4 = d.lpm4 := rfl
@[simp] theorem Dev.armNext_lpm6 (k : TimerKind) (i : Nat) : (d.armNext k i).lpm6 = d.lpm6 := rfl
@[simp] theorem Dev.armNext_asc (k : TimerKind) (i : Nat) : (d.armNext k i).asc = d.asc := rfl
@[simp] theorem Dev.armNext_ringPtr (k : TimerKind) (i : Nat) : (d.armNext k i).ringPtr = d.ringPtr := rfl
@[simp] theorem Dev.armNext_locks (k : TimerKind) (i : Nat) : (d.armNext k i).locks = d.locks := rfl
@[simp] theorem Dev.armNext_winCmd (k : TimerKind) (i : Nat) : (d.armNext k i).winCmd = d.winCmd := rfl
@[simp] theorem Dev.armNext_casMi (k : TimerKind) (i : Nat) : (d.armNext k i).casMi = d.casMi := rfl
@[simp] theorem Dev.armNext_bufs (k : TimerKind) (i : Nat) : (d.armNext k i).bufs = d.bufs := rfl
@[simp] theorem Dev.armNext_caches (k : TimerKind) (i : Nat) : (d.armNext k i).caches = d.caches := rfl
@[simp] theorem Dev.armNext_queues (k : TimerKind) (i : Nat) : (d.armNext k i).queues = d.queues := rfl
@[simp] theorem Dev.armNext_uid (k : TimerKind) (i : Nat) : (d.armNext k i).uid = d.uid := rfl
@[simp] theorem Dev.armNext_reps (k : TimerKind) (i : Nat) : (d.armNext k i).reps = d.reps := rfl
@[simp] theorem Dev.armNext_hold (k : TimerKind) (i : Nat) : (d.armNext k i).hold = d.hold := rfl
@[simp] theorem Dev.armNext_heldAt (k : TimerKind) (i : Nat) : (d.armNext k i).heldAt = d.heldAt := rfl
@[simp] theorem Dev.armNext_holdFell (k : TimerKind) (i : Nat) : (d.armNext k i).holdFell = d.holdFell := rfl
@[simp] theorem Dev.armNext_spillPtr (k : TimerKind) (i : Nat) : (d.armNext k i).spillPtr = d.spillPtr := rfl
@[simp] theorem Dev.armNext_holdPtr (k : TimerKind) (i : Nat) : (d.armNext k i).holdPtr = d.holdPtr := rfl
@[simp] theorem Dev.armNext_tierKeys (k : TimerKind) (i : Nat) : (d.armNext k i).tierKeys = d.tierKeys := rfl
@[simp] theorem Dev.armNext_hbm (k : TimerKind) (i : Nat) : (d.armNext k i).hbm = d.hbm := rfl
@[simp] theorem Dev.armNext_cxl (k : TimerKind) (i : Nat) : (d.armNext k i).cxl = d.cxl := rfl
@[simp] theorem Dev.armNext_used (k : TimerKind) (i : Nat) : (d.armNext k i).used = d.used := rfl
@[simp] theorem Dev.armNext_training (k : TimerKind) (i : Nat) : (d.armNext k i).training = d.training := rfl
@[simp] theorem Dev.armNext_trained (k : TimerKind) (i : Nat) : (d.armNext k i).trained = d.trained := rfl
@[simp] theorem Dev.armNext_shadow (k : TimerKind) (i : Nat) : (d.armNext k i).shadow = d.shadow := rfl
@[simp] theorem Dev.armNext_replay (k : TimerKind) (i : Nat) : (d.armNext k i).replay = d.replay := rfl
@[simp] theorem Dev.armNext_bkts (k : TimerKind) (i : Nat) : (d.armNext k i).bkts = d.bkts := rfl
@[simp] theorem Dev.armNext_restAcc (k : TimerKind) (i : Nat) : (d.armNext k i).restAcc = d.restAcc := rfl
@[simp] theorem Dev.armNext_meters (k : TimerKind) (i : Nat) : (d.armNext k i).meters = d.meters := rfl
@[simp] theorem Dev.armNext_wheels (k : TimerKind) (i : Nat) : (d.armNext k i).wheels = d.wheels := rfl
@[simp] theorem Dev.armNext_samplers (k : TimerKind) (i : Nat) : (d.armNext k i).samplers = d.samplers := rfl
@[simp] theorem Dev.armNext_mate (k : TimerKind) (i : Nat) : (d.armNext k i).mate = d.mate := rfl
@[simp] theorem Dev.armNext_domA (k : TimerKind) (i : Nat) : (d.armNext k i).domA = d.domA := rfl
@[simp] theorem Dev.armNext_cyc (k : TimerKind) (i : Nat) : (d.armNext k i).cyc = d.cyc := rfl
@[simp] theorem Dev.armNext_ageHold (k : TimerKind) (i : Nat) : (d.armNext k i).ageHold = d.ageHold := rfl
@[simp] theorem Dev.armNext_replayWait (k : TimerKind) (i : Nat) : (d.armNext k i).replayWait = d.replayWait := rfl
@[simp] theorem Dev.armNext_edgeSet (k : TimerKind) (i : Nat) : (d.armNext k i).edgeSet = d.edgeSet := rfl
@[simp] theorem Dev.armNext_bases (k : TimerKind) (i : Nat) : (d.armNext k i).bases = d.bases := rfl
@[simp] theorem Dev.armNext_selBack (k : TimerKind) (i : Nat) : (d.armNext k i).selBack = d.selBack := rfl
@[simp] theorem Dev.armNext_domB (k : TimerKind) (i : Nat) : (d.armNext k i).domB = d.domB := rfl
@[simp] theorem Dev.armNext_sigma (k : TimerKind) (i : Nat) : (d.armNext k i).sigma = d.sigma := rfl
@[simp] theorem Dev.armNext_edgeTime (k : TimerKind) (i : Nat) : (d.armNext k i).edgeTime = d.edgeTime := rfl
@[simp] theorem Dev.armNext_prevEdge (k : TimerKind) (i : Nat) : (d.armNext k i).prevEdge = d.prevEdge := rfl
@[simp] theorem Dev.armNext_srcEdge (k : TimerKind) (i : Nat) : (d.armNext k i).srcEdge = d.srcEdge := rfl
@[simp] theorem Dev.armNext_edgeOpen (k : TimerKind) (i : Nat) : (d.armNext k i).edgeOpen = d.edgeOpen := rfl
@[simp] theorem Dev.armNext_caps (k : TimerKind) (i : Nat) : (d.armNext k i).caps = d.caps := rfl
@[simp] theorem Dev.armNext_txMsg (k : TimerKind) (i : Nat) : (d.armNext k i).txMsg = d.txMsg := rfl
@[simp] theorem Dev.armNext_outgoing (k : TimerKind) (i : Nat) : (d.armNext k i).outgoing = d.outgoing := rfl
@[simp] theorem Dev.armNext_srcLost (k : TimerKind) (i : Nat) : (d.armNext k i).srcLost = d.srcLost := rfl
@[simp] theorem Dev.armNext_safeOut (k : TimerKind) (i : Nat) : (d.armNext k i).safeOut = d.safeOut := rfl
@[simp] theorem Dev.armNext_muxWait (k : TimerKind) (i : Nat) : (d.armNext k i).muxWait = d.muxWait := rfl
@[simp] theorem Dev.armNext_resumeReq (k : TimerKind) (i : Nat) : (d.armNext k i).resumeReq = d.resumeReq := rfl
@[simp] theorem Dev.armNext_board (k : TimerKind) (i : Nat) : (d.armNext k i).board = d.board := rfl
@[simp] theorem Dev.armNext_flash (k : TimerKind) (i : Nat) : (d.armNext k i).flash = d.flash := rfl
@[simp] theorem Dev.armNext_flashOp (k : TimerKind) (i : Nat) : (d.armNext k i).flashOp = d.flashOp := rfl
@[simp] theorem Dev.armNext_inServ (k : TimerKind) (i : Nat) : (d.armNext k i).inServ = d.inServ := rfl
@[simp] theorem Dev.armNext_savedPend (k : TimerKind) (i : Nat) : (d.armNext k i).savedPend = d.savedPend := rfl
@[simp] theorem Dev.armNext_vecs (k : TimerKind) (i : Nat) : (d.armNext k i).vecs = d.vecs := rfl
@[simp] theorem Dev.armNext_msixEn (k : TimerKind) (i : Nat) : (d.armNext k i).msixEn = d.msixEn := rfl
@[simp] theorem Dev.armNext_funcMask (k : TimerKind) (i : Nat) : (d.armNext k i).funcMask = d.funcMask := rfl
@[simp] theorem Dev.armNext_vfEn (k : TimerKind) (i : Nat) : (d.armNext k i).vfEn = d.vfEn := rfl

/-! ### Dev.disarm -/

@[simp] theorem Dev.disarm_phase (k : TimerKind) (i : Nat) : (d.disarm k i).phase = d.phase := rfl
@[simp] theorem Dev.disarm_sfc (k : TimerKind) (i : Nat) : (d.disarm k i).sfc = d.sfc := rfl
@[simp] theorem Dev.disarm_clock (k : TimerKind) (i : Nat) : (d.disarm k i).clock = d.clock := rfl
@[simp] theorem Dev.disarm_sts (k : TimerKind) (i : Nat) : (d.disarm k i).sts = d.sts := rfl
@[simp] theorem Dev.disarm_cnt (k : TimerKind) (i : Nat) : (d.disarm k i).cnt = d.cnt := rfl
@[simp] theorem Dev.disarm_amb (k : TimerKind) (i : Nat) : (d.disarm k i).amb = d.amb := rfl
@[simp] theorem Dev.disarm_free (k : TimerKind) (i : Nat) : (d.disarm k i).free = d.free := rfl
@[simp] theorem Dev.disarm_runs (k : TimerKind) (i : Nat) : (d.disarm k i).runs = d.runs := rfl
@[simp] theorem Dev.disarm_hits (k : TimerKind) (i : Nat) : (d.disarm k i).hits = d.hits := rfl
@[simp] theorem Dev.disarm_latches (k : TimerKind) (i : Nat) : (d.disarm k i).latches = d.latches := rfl
@[simp] theorem Dev.disarm_outbox (k : TimerKind) (i : Nat) : (d.disarm k i).outbox = d.outbox := rfl
@[simp] theorem Dev.disarm_life (k : TimerKind) (i : Nat) : (d.disarm k i).life = d.life := rfl
@[simp] theorem Dev.disarm_rng (k : TimerKind) (i : Nat) : (d.disarm k i).rng = d.rng := rfl
@[simp] theorem Dev.disarm_mail (k : TimerKind) (i : Nat) : (d.disarm k i).mail = d.mail := rfl
@[simp] theorem Dev.disarm_keys (k : TimerKind) (i : Nat) : (d.disarm k i).keys = d.keys := rfl
@[simp] theorem Dev.disarm_boughs (k : TimerKind) (i : Nat) : (d.disarm k i).boughs = d.boughs := rfl
@[simp] theorem Dev.disarm_groves (k : TimerKind) (i : Nat) : (d.disarm k i).groves = d.groves := rfl
@[simp] theorem Dev.disarm_keep (k : TimerKind) (i : Nat) : (d.disarm k i).keep = d.keep := rfl
@[simp] theorem Dev.disarm_keepSfc (k : TimerKind) (i : Nat) : (d.disarm k i).keepSfc = d.keepSfc := rfl
@[simp] theorem Dev.disarm_keepHmac (k : TimerKind) (i : Nat) : (d.disarm k i).keepHmac = d.keepHmac := rfl
@[simp] theorem Dev.disarm_slots (k : TimerKind) (i : Nat) : (d.disarm k i).slots = d.slots := rfl
@[simp] theorem Dev.disarm_slotMeta (k : TimerKind) (i : Nat) : (d.disarm k i).slotMeta = d.slotMeta := rfl
@[simp] theorem Dev.disarm_ceil (k : TimerKind) (i : Nat) : (d.disarm k i).ceil = d.ceil := rfl
@[simp] theorem Dev.disarm_lastCtr (k : TimerKind) (i : Nat) : (d.disarm k i).lastCtr = d.lastCtr := rfl
@[simp] theorem Dev.disarm_keng (k : TimerKind) (i : Nat) : (d.disarm k i).keng = d.keng := rfl
@[simp] theorem Dev.disarm_keyCmd (k : TimerKind) (i : Nat) : (d.disarm k i).keyCmd = d.keyCmd := rfl
@[simp] theorem Dev.disarm_shared (k : TimerKind) (i : Nat) : (d.disarm k i).shared = d.shared := rfl
@[simp] theorem Dev.disarm_slices (k : TimerKind) (i : Nat) : (d.disarm k i).slices = d.slices := rfl
@[simp] theorem Dev.disarm_conns (k : TimerKind) (i : Nat) : (d.disarm k i).conns = d.conns := rfl
@[simp] theorem Dev.disarm_slcSwap (k : TimerKind) (i : Nat) : (d.disarm k i).slcSwap = d.slcSwap := rfl
@[simp] theorem Dev.disarm_pgs (k : TimerKind) (i : Nat) : (d.disarm k i).pgs = d.pgs := rfl
@[simp] theorem Dev.disarm_flows (k : TimerKind) (i : Nat) : (d.disarm k i).flows = d.flows := rfl
@[simp] theorem Dev.disarm_pipes (k : TimerKind) (i : Nat) : (d.disarm k i).pipes = d.pipes := rfl
@[simp] theorem Dev.disarm_frag (k : TimerKind) (i : Nat) : (d.disarm k i).frag = d.frag := rfl
@[simp] theorem Dev.disarm_bridge (k : TimerKind) (i : Nat) : (d.disarm k i).bridge = d.bridge := rfl
@[simp] theorem Dev.disarm_deferred (k : TimerKind) (i : Nat) : (d.disarm k i).deferred = d.deferred := rfl
@[simp] theorem Dev.disarm_learnPtr (k : TimerKind) (i : Nat) : (d.disarm k i).learnPtr = d.learnPtr := rfl
@[simp] theorem Dev.disarm_lpm4 (k : TimerKind) (i : Nat) : (d.disarm k i).lpm4 = d.lpm4 := rfl
@[simp] theorem Dev.disarm_lpm6 (k : TimerKind) (i : Nat) : (d.disarm k i).lpm6 = d.lpm6 := rfl
@[simp] theorem Dev.disarm_asc (k : TimerKind) (i : Nat) : (d.disarm k i).asc = d.asc := rfl
@[simp] theorem Dev.disarm_ringPtr (k : TimerKind) (i : Nat) : (d.disarm k i).ringPtr = d.ringPtr := rfl
@[simp] theorem Dev.disarm_locks (k : TimerKind) (i : Nat) : (d.disarm k i).locks = d.locks := rfl
@[simp] theorem Dev.disarm_winCmd (k : TimerKind) (i : Nat) : (d.disarm k i).winCmd = d.winCmd := rfl
@[simp] theorem Dev.disarm_casMi (k : TimerKind) (i : Nat) : (d.disarm k i).casMi = d.casMi := rfl
@[simp] theorem Dev.disarm_bufs (k : TimerKind) (i : Nat) : (d.disarm k i).bufs = d.bufs := rfl
@[simp] theorem Dev.disarm_caches (k : TimerKind) (i : Nat) : (d.disarm k i).caches = d.caches := rfl
@[simp] theorem Dev.disarm_queues (k : TimerKind) (i : Nat) : (d.disarm k i).queues = d.queues := rfl
@[simp] theorem Dev.disarm_uid (k : TimerKind) (i : Nat) : (d.disarm k i).uid = d.uid := rfl
@[simp] theorem Dev.disarm_reps (k : TimerKind) (i : Nat) : (d.disarm k i).reps = d.reps := rfl
@[simp] theorem Dev.disarm_hold (k : TimerKind) (i : Nat) : (d.disarm k i).hold = d.hold := rfl
@[simp] theorem Dev.disarm_heldAt (k : TimerKind) (i : Nat) : (d.disarm k i).heldAt = d.heldAt := rfl
@[simp] theorem Dev.disarm_holdFell (k : TimerKind) (i : Nat) : (d.disarm k i).holdFell = d.holdFell := rfl
@[simp] theorem Dev.disarm_spillPtr (k : TimerKind) (i : Nat) : (d.disarm k i).spillPtr = d.spillPtr := rfl
@[simp] theorem Dev.disarm_holdPtr (k : TimerKind) (i : Nat) : (d.disarm k i).holdPtr = d.holdPtr := rfl
@[simp] theorem Dev.disarm_tierKeys (k : TimerKind) (i : Nat) : (d.disarm k i).tierKeys = d.tierKeys := rfl
@[simp] theorem Dev.disarm_hbm (k : TimerKind) (i : Nat) : (d.disarm k i).hbm = d.hbm := rfl
@[simp] theorem Dev.disarm_cxl (k : TimerKind) (i : Nat) : (d.disarm k i).cxl = d.cxl := rfl
@[simp] theorem Dev.disarm_used (k : TimerKind) (i : Nat) : (d.disarm k i).used = d.used := rfl
@[simp] theorem Dev.disarm_training (k : TimerKind) (i : Nat) : (d.disarm k i).training = d.training := rfl
@[simp] theorem Dev.disarm_trained (k : TimerKind) (i : Nat) : (d.disarm k i).trained = d.trained := rfl
@[simp] theorem Dev.disarm_shadow (k : TimerKind) (i : Nat) : (d.disarm k i).shadow = d.shadow := rfl
@[simp] theorem Dev.disarm_replay (k : TimerKind) (i : Nat) : (d.disarm k i).replay = d.replay := rfl
@[simp] theorem Dev.disarm_bkts (k : TimerKind) (i : Nat) : (d.disarm k i).bkts = d.bkts := rfl
@[simp] theorem Dev.disarm_restAcc (k : TimerKind) (i : Nat) : (d.disarm k i).restAcc = d.restAcc := rfl
@[simp] theorem Dev.disarm_meters (k : TimerKind) (i : Nat) : (d.disarm k i).meters = d.meters := rfl
@[simp] theorem Dev.disarm_wheels (k : TimerKind) (i : Nat) : (d.disarm k i).wheels = d.wheels := rfl
@[simp] theorem Dev.disarm_samplers (k : TimerKind) (i : Nat) : (d.disarm k i).samplers = d.samplers := rfl
@[simp] theorem Dev.disarm_mate (k : TimerKind) (i : Nat) : (d.disarm k i).mate = d.mate := rfl
@[simp] theorem Dev.disarm_domA (k : TimerKind) (i : Nat) : (d.disarm k i).domA = d.domA := rfl
@[simp] theorem Dev.disarm_cyc (k : TimerKind) (i : Nat) : (d.disarm k i).cyc = d.cyc := rfl
@[simp] theorem Dev.disarm_ageHold (k : TimerKind) (i : Nat) : (d.disarm k i).ageHold = d.ageHold := rfl
@[simp] theorem Dev.disarm_replayWait (k : TimerKind) (i : Nat) : (d.disarm k i).replayWait = d.replayWait := rfl
@[simp] theorem Dev.disarm_edgeSet (k : TimerKind) (i : Nat) : (d.disarm k i).edgeSet = d.edgeSet := rfl
@[simp] theorem Dev.disarm_bases (k : TimerKind) (i : Nat) : (d.disarm k i).bases = d.bases := rfl
@[simp] theorem Dev.disarm_selBack (k : TimerKind) (i : Nat) : (d.disarm k i).selBack = d.selBack := rfl
@[simp] theorem Dev.disarm_domB (k : TimerKind) (i : Nat) : (d.disarm k i).domB = d.domB := rfl
@[simp] theorem Dev.disarm_sigma (k : TimerKind) (i : Nat) : (d.disarm k i).sigma = d.sigma := rfl
@[simp] theorem Dev.disarm_edgeTime (k : TimerKind) (i : Nat) : (d.disarm k i).edgeTime = d.edgeTime := rfl
@[simp] theorem Dev.disarm_prevEdge (k : TimerKind) (i : Nat) : (d.disarm k i).prevEdge = d.prevEdge := rfl
@[simp] theorem Dev.disarm_srcEdge (k : TimerKind) (i : Nat) : (d.disarm k i).srcEdge = d.srcEdge := rfl
@[simp] theorem Dev.disarm_edgeOpen (k : TimerKind) (i : Nat) : (d.disarm k i).edgeOpen = d.edgeOpen := rfl
@[simp] theorem Dev.disarm_caps (k : TimerKind) (i : Nat) : (d.disarm k i).caps = d.caps := rfl
@[simp] theorem Dev.disarm_txMsg (k : TimerKind) (i : Nat) : (d.disarm k i).txMsg = d.txMsg := rfl
@[simp] theorem Dev.disarm_outgoing (k : TimerKind) (i : Nat) : (d.disarm k i).outgoing = d.outgoing := rfl
@[simp] theorem Dev.disarm_srcLost (k : TimerKind) (i : Nat) : (d.disarm k i).srcLost = d.srcLost := rfl
@[simp] theorem Dev.disarm_safeOut (k : TimerKind) (i : Nat) : (d.disarm k i).safeOut = d.safeOut := rfl
@[simp] theorem Dev.disarm_muxWait (k : TimerKind) (i : Nat) : (d.disarm k i).muxWait = d.muxWait := rfl
@[simp] theorem Dev.disarm_resumeReq (k : TimerKind) (i : Nat) : (d.disarm k i).resumeReq = d.resumeReq := rfl
@[simp] theorem Dev.disarm_board (k : TimerKind) (i : Nat) : (d.disarm k i).board = d.board := rfl
@[simp] theorem Dev.disarm_flash (k : TimerKind) (i : Nat) : (d.disarm k i).flash = d.flash := rfl
@[simp] theorem Dev.disarm_flashOp (k : TimerKind) (i : Nat) : (d.disarm k i).flashOp = d.flashOp := rfl
@[simp] theorem Dev.disarm_inServ (k : TimerKind) (i : Nat) : (d.disarm k i).inServ = d.inServ := rfl
@[simp] theorem Dev.disarm_savedPend (k : TimerKind) (i : Nat) : (d.disarm k i).savedPend = d.savedPend := rfl
@[simp] theorem Dev.disarm_vecs (k : TimerKind) (i : Nat) : (d.disarm k i).vecs = d.vecs := rfl
@[simp] theorem Dev.disarm_msixEn (k : TimerKind) (i : Nat) : (d.disarm k i).msixEn = d.msixEn := rfl
@[simp] theorem Dev.disarm_funcMask (k : TimerKind) (i : Nat) : (d.disarm k i).funcMask = d.funcMask := rfl
@[simp] theorem Dev.disarm_vfEn (k : TimerKind) (i : Nat) : (d.disarm k i).vfEn = d.vfEn := rfl

/-! ### Dev.setRun -/

@[simp] theorem Dev.setRun_phase (k : RunKind) (i n : Nat) : (d.setRun k i n).phase = d.phase := rfl
@[simp] theorem Dev.setRun_sfc (k : RunKind) (i n : Nat) : (d.setRun k i n).sfc = d.sfc := rfl
@[simp] theorem Dev.setRun_clock (k : RunKind) (i n : Nat) : (d.setRun k i n).clock = d.clock := rfl
@[simp] theorem Dev.setRun_sts (k : RunKind) (i n : Nat) : (d.setRun k i n).sts = d.sts := rfl
@[simp] theorem Dev.setRun_cnt (k : RunKind) (i n : Nat) : (d.setRun k i n).cnt = d.cnt := rfl
@[simp] theorem Dev.setRun_amb (k : RunKind) (i n : Nat) : (d.setRun k i n).amb = d.amb := rfl
@[simp] theorem Dev.setRun_free (k : RunKind) (i n : Nat) : (d.setRun k i n).free = d.free := rfl
@[simp] theorem Dev.setRun_timers (k : RunKind) (i n : Nat) : (d.setRun k i n).timers = d.timers := rfl
@[simp] theorem Dev.setRun_hits (k : RunKind) (i n : Nat) : (d.setRun k i n).hits = d.hits := rfl
@[simp] theorem Dev.setRun_latches (k : RunKind) (i n : Nat) : (d.setRun k i n).latches = d.latches := rfl
@[simp] theorem Dev.setRun_outbox (k : RunKind) (i n : Nat) : (d.setRun k i n).outbox = d.outbox := rfl
@[simp] theorem Dev.setRun_life (k : RunKind) (i n : Nat) : (d.setRun k i n).life = d.life := rfl
@[simp] theorem Dev.setRun_rng (k : RunKind) (i n : Nat) : (d.setRun k i n).rng = d.rng := rfl
@[simp] theorem Dev.setRun_mail (k : RunKind) (i n : Nat) : (d.setRun k i n).mail = d.mail := rfl
@[simp] theorem Dev.setRun_keys (k : RunKind) (i n : Nat) : (d.setRun k i n).keys = d.keys := rfl
@[simp] theorem Dev.setRun_boughs (k : RunKind) (i n : Nat) : (d.setRun k i n).boughs = d.boughs := rfl
@[simp] theorem Dev.setRun_groves (k : RunKind) (i n : Nat) : (d.setRun k i n).groves = d.groves := rfl
@[simp] theorem Dev.setRun_keep (k : RunKind) (i n : Nat) : (d.setRun k i n).keep = d.keep := rfl
@[simp] theorem Dev.setRun_keepSfc (k : RunKind) (i n : Nat) : (d.setRun k i n).keepSfc = d.keepSfc := rfl
@[simp] theorem Dev.setRun_keepHmac (k : RunKind) (i n : Nat) : (d.setRun k i n).keepHmac = d.keepHmac := rfl
@[simp] theorem Dev.setRun_slots (k : RunKind) (i n : Nat) : (d.setRun k i n).slots = d.slots := rfl
@[simp] theorem Dev.setRun_slotMeta (k : RunKind) (i n : Nat) : (d.setRun k i n).slotMeta = d.slotMeta := rfl
@[simp] theorem Dev.setRun_ceil (k : RunKind) (i n : Nat) : (d.setRun k i n).ceil = d.ceil := rfl
@[simp] theorem Dev.setRun_lastCtr (k : RunKind) (i n : Nat) : (d.setRun k i n).lastCtr = d.lastCtr := rfl
@[simp] theorem Dev.setRun_keng (k : RunKind) (i n : Nat) : (d.setRun k i n).keng = d.keng := rfl
@[simp] theorem Dev.setRun_keyCmd (k : RunKind) (i n : Nat) : (d.setRun k i n).keyCmd = d.keyCmd := rfl
@[simp] theorem Dev.setRun_shared (k : RunKind) (i n : Nat) : (d.setRun k i n).shared = d.shared := rfl
@[simp] theorem Dev.setRun_slices (k : RunKind) (i n : Nat) : (d.setRun k i n).slices = d.slices := rfl
@[simp] theorem Dev.setRun_conns (k : RunKind) (i n : Nat) : (d.setRun k i n).conns = d.conns := rfl
@[simp] theorem Dev.setRun_slcSwap (k : RunKind) (i n : Nat) : (d.setRun k i n).slcSwap = d.slcSwap := rfl
@[simp] theorem Dev.setRun_pgs (k : RunKind) (i n : Nat) : (d.setRun k i n).pgs = d.pgs := rfl
@[simp] theorem Dev.setRun_flows (k : RunKind) (i n : Nat) : (d.setRun k i n).flows = d.flows := rfl
@[simp] theorem Dev.setRun_pipes (k : RunKind) (i n : Nat) : (d.setRun k i n).pipes = d.pipes := rfl
@[simp] theorem Dev.setRun_frag (k : RunKind) (i n : Nat) : (d.setRun k i n).frag = d.frag := rfl
@[simp] theorem Dev.setRun_bridge (k : RunKind) (i n : Nat) : (d.setRun k i n).bridge = d.bridge := rfl
@[simp] theorem Dev.setRun_deferred (k : RunKind) (i n : Nat) : (d.setRun k i n).deferred = d.deferred := rfl
@[simp] theorem Dev.setRun_learnPtr (k : RunKind) (i n : Nat) : (d.setRun k i n).learnPtr = d.learnPtr := rfl
@[simp] theorem Dev.setRun_lpm4 (k : RunKind) (i n : Nat) : (d.setRun k i n).lpm4 = d.lpm4 := rfl
@[simp] theorem Dev.setRun_lpm6 (k : RunKind) (i n : Nat) : (d.setRun k i n).lpm6 = d.lpm6 := rfl
@[simp] theorem Dev.setRun_asc (k : RunKind) (i n : Nat) : (d.setRun k i n).asc = d.asc := rfl
@[simp] theorem Dev.setRun_ringPtr (k : RunKind) (i n : Nat) : (d.setRun k i n).ringPtr = d.ringPtr := rfl
@[simp] theorem Dev.setRun_locks (k : RunKind) (i n : Nat) : (d.setRun k i n).locks = d.locks := rfl
@[simp] theorem Dev.setRun_winCmd (k : RunKind) (i n : Nat) : (d.setRun k i n).winCmd = d.winCmd := rfl
@[simp] theorem Dev.setRun_casMi (k : RunKind) (i n : Nat) : (d.setRun k i n).casMi = d.casMi := rfl
@[simp] theorem Dev.setRun_bufs (k : RunKind) (i n : Nat) : (d.setRun k i n).bufs = d.bufs := rfl
@[simp] theorem Dev.setRun_caches (k : RunKind) (i n : Nat) : (d.setRun k i n).caches = d.caches := rfl
@[simp] theorem Dev.setRun_queues (k : RunKind) (i n : Nat) : (d.setRun k i n).queues = d.queues := rfl
@[simp] theorem Dev.setRun_uid (k : RunKind) (i n : Nat) : (d.setRun k i n).uid = d.uid := rfl
@[simp] theorem Dev.setRun_reps (k : RunKind) (i n : Nat) : (d.setRun k i n).reps = d.reps := rfl
@[simp] theorem Dev.setRun_hold (k : RunKind) (i n : Nat) : (d.setRun k i n).hold = d.hold := rfl
@[simp] theorem Dev.setRun_heldAt (k : RunKind) (i n : Nat) : (d.setRun k i n).heldAt = d.heldAt := rfl
@[simp] theorem Dev.setRun_holdFell (k : RunKind) (i n : Nat) : (d.setRun k i n).holdFell = d.holdFell := rfl
@[simp] theorem Dev.setRun_spillPtr (k : RunKind) (i n : Nat) : (d.setRun k i n).spillPtr = d.spillPtr := rfl
@[simp] theorem Dev.setRun_holdPtr (k : RunKind) (i n : Nat) : (d.setRun k i n).holdPtr = d.holdPtr := rfl
@[simp] theorem Dev.setRun_tierKeys (k : RunKind) (i n : Nat) : (d.setRun k i n).tierKeys = d.tierKeys := rfl
@[simp] theorem Dev.setRun_hbm (k : RunKind) (i n : Nat) : (d.setRun k i n).hbm = d.hbm := rfl
@[simp] theorem Dev.setRun_cxl (k : RunKind) (i n : Nat) : (d.setRun k i n).cxl = d.cxl := rfl
@[simp] theorem Dev.setRun_used (k : RunKind) (i n : Nat) : (d.setRun k i n).used = d.used := rfl
@[simp] theorem Dev.setRun_training (k : RunKind) (i n : Nat) : (d.setRun k i n).training = d.training := rfl
@[simp] theorem Dev.setRun_trained (k : RunKind) (i n : Nat) : (d.setRun k i n).trained = d.trained := rfl
@[simp] theorem Dev.setRun_shadow (k : RunKind) (i n : Nat) : (d.setRun k i n).shadow = d.shadow := rfl
@[simp] theorem Dev.setRun_replay (k : RunKind) (i n : Nat) : (d.setRun k i n).replay = d.replay := rfl
@[simp] theorem Dev.setRun_bkts (k : RunKind) (i n : Nat) : (d.setRun k i n).bkts = d.bkts := rfl
@[simp] theorem Dev.setRun_restAcc (k : RunKind) (i n : Nat) : (d.setRun k i n).restAcc = d.restAcc := rfl
@[simp] theorem Dev.setRun_meters (k : RunKind) (i n : Nat) : (d.setRun k i n).meters = d.meters := rfl
@[simp] theorem Dev.setRun_wheels (k : RunKind) (i n : Nat) : (d.setRun k i n).wheels = d.wheels := rfl
@[simp] theorem Dev.setRun_samplers (k : RunKind) (i n : Nat) : (d.setRun k i n).samplers = d.samplers := rfl
@[simp] theorem Dev.setRun_mate (k : RunKind) (i n : Nat) : (d.setRun k i n).mate = d.mate := rfl
@[simp] theorem Dev.setRun_domA (k : RunKind) (i n : Nat) : (d.setRun k i n).domA = d.domA := rfl
@[simp] theorem Dev.setRun_cyc (k : RunKind) (i n : Nat) : (d.setRun k i n).cyc = d.cyc := rfl
@[simp] theorem Dev.setRun_ageHold (k : RunKind) (i n : Nat) : (d.setRun k i n).ageHold = d.ageHold := rfl
@[simp] theorem Dev.setRun_replayWait (k : RunKind) (i n : Nat) : (d.setRun k i n).replayWait = d.replayWait := rfl
@[simp] theorem Dev.setRun_edgeSet (k : RunKind) (i n : Nat) : (d.setRun k i n).edgeSet = d.edgeSet := rfl
@[simp] theorem Dev.setRun_bases (k : RunKind) (i n : Nat) : (d.setRun k i n).bases = d.bases := rfl
@[simp] theorem Dev.setRun_selBack (k : RunKind) (i n : Nat) : (d.setRun k i n).selBack = d.selBack := rfl
@[simp] theorem Dev.setRun_domB (k : RunKind) (i n : Nat) : (d.setRun k i n).domB = d.domB := rfl
@[simp] theorem Dev.setRun_sigma (k : RunKind) (i n : Nat) : (d.setRun k i n).sigma = d.sigma := rfl
@[simp] theorem Dev.setRun_edgeTime (k : RunKind) (i n : Nat) : (d.setRun k i n).edgeTime = d.edgeTime := rfl
@[simp] theorem Dev.setRun_prevEdge (k : RunKind) (i n : Nat) : (d.setRun k i n).prevEdge = d.prevEdge := rfl
@[simp] theorem Dev.setRun_srcEdge (k : RunKind) (i n : Nat) : (d.setRun k i n).srcEdge = d.srcEdge := rfl
@[simp] theorem Dev.setRun_edgeOpen (k : RunKind) (i n : Nat) : (d.setRun k i n).edgeOpen = d.edgeOpen := rfl
@[simp] theorem Dev.setRun_caps (k : RunKind) (i n : Nat) : (d.setRun k i n).caps = d.caps := rfl
@[simp] theorem Dev.setRun_txMsg (k : RunKind) (i n : Nat) : (d.setRun k i n).txMsg = d.txMsg := rfl
@[simp] theorem Dev.setRun_outgoing (k : RunKind) (i n : Nat) : (d.setRun k i n).outgoing = d.outgoing := rfl
@[simp] theorem Dev.setRun_srcLost (k : RunKind) (i n : Nat) : (d.setRun k i n).srcLost = d.srcLost := rfl
@[simp] theorem Dev.setRun_safeOut (k : RunKind) (i n : Nat) : (d.setRun k i n).safeOut = d.safeOut := rfl
@[simp] theorem Dev.setRun_muxWait (k : RunKind) (i n : Nat) : (d.setRun k i n).muxWait = d.muxWait := rfl
@[simp] theorem Dev.setRun_resumeReq (k : RunKind) (i n : Nat) : (d.setRun k i n).resumeReq = d.resumeReq := rfl
@[simp] theorem Dev.setRun_board (k : RunKind) (i n : Nat) : (d.setRun k i n).board = d.board := rfl
@[simp] theorem Dev.setRun_flash (k : RunKind) (i n : Nat) : (d.setRun k i n).flash = d.flash := rfl
@[simp] theorem Dev.setRun_flashOp (k : RunKind) (i n : Nat) : (d.setRun k i n).flashOp = d.flashOp := rfl
@[simp] theorem Dev.setRun_inServ (k : RunKind) (i n : Nat) : (d.setRun k i n).inServ = d.inServ := rfl
@[simp] theorem Dev.setRun_savedPend (k : RunKind) (i n : Nat) : (d.setRun k i n).savedPend = d.savedPend := rfl
@[simp] theorem Dev.setRun_vecs (k : RunKind) (i n : Nat) : (d.setRun k i n).vecs = d.vecs := rfl
@[simp] theorem Dev.setRun_msixEn (k : RunKind) (i n : Nat) : (d.setRun k i n).msixEn = d.msixEn := rfl
@[simp] theorem Dev.setRun_funcMask (k : RunKind) (i n : Nat) : (d.setRun k i n).funcMask = d.funcMask := rfl
@[simp] theorem Dev.setRun_vfEn (k : RunKind) (i n : Nat) : (d.setRun k i n).vfEn = d.vfEn := rfl

/-! ### Dev.updGrove -/

@[simp] theorem Dev.updGrove_phase (g : Nat) (f : Grove → Grove) : (d.updGrove g f).phase = d.phase := rfl
@[simp] theorem Dev.updGrove_sfc (g : Nat) (f : Grove → Grove) : (d.updGrove g f).sfc = d.sfc := rfl
@[simp] theorem Dev.updGrove_clock (g : Nat) (f : Grove → Grove) : (d.updGrove g f).clock = d.clock := rfl
@[simp] theorem Dev.updGrove_sts (g : Nat) (f : Grove → Grove) : (d.updGrove g f).sts = d.sts := rfl
@[simp] theorem Dev.updGrove_cnt (g : Nat) (f : Grove → Grove) : (d.updGrove g f).cnt = d.cnt := rfl
@[simp] theorem Dev.updGrove_amb (g : Nat) (f : Grove → Grove) : (d.updGrove g f).amb = d.amb := rfl
@[simp] theorem Dev.updGrove_free (g : Nat) (f : Grove → Grove) : (d.updGrove g f).free = d.free := rfl
@[simp] theorem Dev.updGrove_timers (g : Nat) (f : Grove → Grove) : (d.updGrove g f).timers = d.timers := rfl
@[simp] theorem Dev.updGrove_runs (g : Nat) (f : Grove → Grove) : (d.updGrove g f).runs = d.runs := rfl
@[simp] theorem Dev.updGrove_hits (g : Nat) (f : Grove → Grove) : (d.updGrove g f).hits = d.hits := rfl
@[simp] theorem Dev.updGrove_latches (g : Nat) (f : Grove → Grove) : (d.updGrove g f).latches = d.latches := rfl
@[simp] theorem Dev.updGrove_outbox (g : Nat) (f : Grove → Grove) : (d.updGrove g f).outbox = d.outbox := rfl
@[simp] theorem Dev.updGrove_life (g : Nat) (f : Grove → Grove) : (d.updGrove g f).life = d.life := rfl
@[simp] theorem Dev.updGrove_rng (g : Nat) (f : Grove → Grove) : (d.updGrove g f).rng = d.rng := rfl
@[simp] theorem Dev.updGrove_mail (g : Nat) (f : Grove → Grove) : (d.updGrove g f).mail = d.mail := rfl
@[simp] theorem Dev.updGrove_keys (g : Nat) (f : Grove → Grove) : (d.updGrove g f).keys = d.keys := rfl
@[simp] theorem Dev.updGrove_boughs (g : Nat) (f : Grove → Grove) : (d.updGrove g f).boughs = d.boughs := rfl
@[simp] theorem Dev.updGrove_keep (g : Nat) (f : Grove → Grove) : (d.updGrove g f).keep = d.keep := rfl
@[simp] theorem Dev.updGrove_keepSfc (g : Nat) (f : Grove → Grove) : (d.updGrove g f).keepSfc = d.keepSfc := rfl
@[simp] theorem Dev.updGrove_keepHmac (g : Nat) (f : Grove → Grove) : (d.updGrove g f).keepHmac = d.keepHmac := rfl
@[simp] theorem Dev.updGrove_slots (g : Nat) (f : Grove → Grove) : (d.updGrove g f).slots = d.slots := rfl
@[simp] theorem Dev.updGrove_slotMeta (g : Nat) (f : Grove → Grove) : (d.updGrove g f).slotMeta = d.slotMeta := rfl
@[simp] theorem Dev.updGrove_ceil (g : Nat) (f : Grove → Grove) : (d.updGrove g f).ceil = d.ceil := rfl
@[simp] theorem Dev.updGrove_lastCtr (g : Nat) (f : Grove → Grove) : (d.updGrove g f).lastCtr = d.lastCtr := rfl
@[simp] theorem Dev.updGrove_keng (g : Nat) (f : Grove → Grove) : (d.updGrove g f).keng = d.keng := rfl
@[simp] theorem Dev.updGrove_keyCmd (g : Nat) (f : Grove → Grove) : (d.updGrove g f).keyCmd = d.keyCmd := rfl
@[simp] theorem Dev.updGrove_shared (g : Nat) (f : Grove → Grove) : (d.updGrove g f).shared = d.shared := rfl
@[simp] theorem Dev.updGrove_slices (g : Nat) (f : Grove → Grove) : (d.updGrove g f).slices = d.slices := rfl
@[simp] theorem Dev.updGrove_conns (g : Nat) (f : Grove → Grove) : (d.updGrove g f).conns = d.conns := rfl
@[simp] theorem Dev.updGrove_slcSwap (g : Nat) (f : Grove → Grove) : (d.updGrove g f).slcSwap = d.slcSwap := rfl
@[simp] theorem Dev.updGrove_pgs (g : Nat) (f : Grove → Grove) : (d.updGrove g f).pgs = d.pgs := rfl
@[simp] theorem Dev.updGrove_flows (g : Nat) (f : Grove → Grove) : (d.updGrove g f).flows = d.flows := rfl
@[simp] theorem Dev.updGrove_pipes (g : Nat) (f : Grove → Grove) : (d.updGrove g f).pipes = d.pipes := rfl
@[simp] theorem Dev.updGrove_frag (g : Nat) (f : Grove → Grove) : (d.updGrove g f).frag = d.frag := rfl
@[simp] theorem Dev.updGrove_bridge (g : Nat) (f : Grove → Grove) : (d.updGrove g f).bridge = d.bridge := rfl
@[simp] theorem Dev.updGrove_deferred (g : Nat) (f : Grove → Grove) : (d.updGrove g f).deferred = d.deferred := rfl
@[simp] theorem Dev.updGrove_learnPtr (g : Nat) (f : Grove → Grove) : (d.updGrove g f).learnPtr = d.learnPtr := rfl
@[simp] theorem Dev.updGrove_lpm4 (g : Nat) (f : Grove → Grove) : (d.updGrove g f).lpm4 = d.lpm4 := rfl
@[simp] theorem Dev.updGrove_lpm6 (g : Nat) (f : Grove → Grove) : (d.updGrove g f).lpm6 = d.lpm6 := rfl
@[simp] theorem Dev.updGrove_asc (g : Nat) (f : Grove → Grove) : (d.updGrove g f).asc = d.asc := rfl
@[simp] theorem Dev.updGrove_ringPtr (g : Nat) (f : Grove → Grove) : (d.updGrove g f).ringPtr = d.ringPtr := rfl
@[simp] theorem Dev.updGrove_locks (g : Nat) (f : Grove → Grove) : (d.updGrove g f).locks = d.locks := rfl
@[simp] theorem Dev.updGrove_winCmd (g : Nat) (f : Grove → Grove) : (d.updGrove g f).winCmd = d.winCmd := rfl
@[simp] theorem Dev.updGrove_casMi (g : Nat) (f : Grove → Grove) : (d.updGrove g f).casMi = d.casMi := rfl
@[simp] theorem Dev.updGrove_bufs (g : Nat) (f : Grove → Grove) : (d.updGrove g f).bufs = d.bufs := rfl
@[simp] theorem Dev.updGrove_caches (g : Nat) (f : Grove → Grove) : (d.updGrove g f).caches = d.caches := rfl
@[simp] theorem Dev.updGrove_queues (g : Nat) (f : Grove → Grove) : (d.updGrove g f).queues = d.queues := rfl
@[simp] theorem Dev.updGrove_uid (g : Nat) (f : Grove → Grove) : (d.updGrove g f).uid = d.uid := rfl
@[simp] theorem Dev.updGrove_reps (g : Nat) (f : Grove → Grove) : (d.updGrove g f).reps = d.reps := rfl
@[simp] theorem Dev.updGrove_hold (g : Nat) (f : Grove → Grove) : (d.updGrove g f).hold = d.hold := rfl
@[simp] theorem Dev.updGrove_heldAt (g : Nat) (f : Grove → Grove) : (d.updGrove g f).heldAt = d.heldAt := rfl
@[simp] theorem Dev.updGrove_holdFell (g : Nat) (f : Grove → Grove) : (d.updGrove g f).holdFell = d.holdFell := rfl
@[simp] theorem Dev.updGrove_spillPtr (g : Nat) (f : Grove → Grove) : (d.updGrove g f).spillPtr = d.spillPtr := rfl
@[simp] theorem Dev.updGrove_holdPtr (g : Nat) (f : Grove → Grove) : (d.updGrove g f).holdPtr = d.holdPtr := rfl
@[simp] theorem Dev.updGrove_tierKeys (g : Nat) (f : Grove → Grove) : (d.updGrove g f).tierKeys = d.tierKeys := rfl
@[simp] theorem Dev.updGrove_hbm (g : Nat) (f : Grove → Grove) : (d.updGrove g f).hbm = d.hbm := rfl
@[simp] theorem Dev.updGrove_cxl (g : Nat) (f : Grove → Grove) : (d.updGrove g f).cxl = d.cxl := rfl
@[simp] theorem Dev.updGrove_used (g : Nat) (f : Grove → Grove) : (d.updGrove g f).used = d.used := rfl
@[simp] theorem Dev.updGrove_training (g : Nat) (f : Grove → Grove) : (d.updGrove g f).training = d.training := rfl
@[simp] theorem Dev.updGrove_trained (g : Nat) (f : Grove → Grove) : (d.updGrove g f).trained = d.trained := rfl
@[simp] theorem Dev.updGrove_shadow (g : Nat) (f : Grove → Grove) : (d.updGrove g f).shadow = d.shadow := rfl
@[simp] theorem Dev.updGrove_replay (g : Nat) (f : Grove → Grove) : (d.updGrove g f).replay = d.replay := rfl
@[simp] theorem Dev.updGrove_bkts (g : Nat) (f : Grove → Grove) : (d.updGrove g f).bkts = d.bkts := rfl
@[simp] theorem Dev.updGrove_restAcc (g : Nat) (f : Grove → Grove) : (d.updGrove g f).restAcc = d.restAcc := rfl
@[simp] theorem Dev.updGrove_meters (g : Nat) (f : Grove → Grove) : (d.updGrove g f).meters = d.meters := rfl
@[simp] theorem Dev.updGrove_wheels (g : Nat) (f : Grove → Grove) : (d.updGrove g f).wheels = d.wheels := rfl
@[simp] theorem Dev.updGrove_samplers (g : Nat) (f : Grove → Grove) : (d.updGrove g f).samplers = d.samplers := rfl
@[simp] theorem Dev.updGrove_mate (g : Nat) (f : Grove → Grove) : (d.updGrove g f).mate = d.mate := rfl
@[simp] theorem Dev.updGrove_domA (g : Nat) (f : Grove → Grove) : (d.updGrove g f).domA = d.domA := rfl
@[simp] theorem Dev.updGrove_cyc (g : Nat) (f : Grove → Grove) : (d.updGrove g f).cyc = d.cyc := rfl
@[simp] theorem Dev.updGrove_ageHold (g : Nat) (f : Grove → Grove) : (d.updGrove g f).ageHold = d.ageHold := rfl
@[simp] theorem Dev.updGrove_replayWait (g : Nat) (f : Grove → Grove) : (d.updGrove g f).replayWait = d.replayWait := rfl
@[simp] theorem Dev.updGrove_edgeSet (g : Nat) (f : Grove → Grove) : (d.updGrove g f).edgeSet = d.edgeSet := rfl
@[simp] theorem Dev.updGrove_bases (g : Nat) (f : Grove → Grove) : (d.updGrove g f).bases = d.bases := rfl
@[simp] theorem Dev.updGrove_selBack (g : Nat) (f : Grove → Grove) : (d.updGrove g f).selBack = d.selBack := rfl
@[simp] theorem Dev.updGrove_domB (g : Nat) (f : Grove → Grove) : (d.updGrove g f).domB = d.domB := rfl
@[simp] theorem Dev.updGrove_sigma (g : Nat) (f : Grove → Grove) : (d.updGrove g f).sigma = d.sigma := rfl
@[simp] theorem Dev.updGrove_edgeTime (g : Nat) (f : Grove → Grove) : (d.updGrove g f).edgeTime = d.edgeTime := rfl
@[simp] theorem Dev.updGrove_prevEdge (g : Nat) (f : Grove → Grove) : (d.updGrove g f).prevEdge = d.prevEdge := rfl
@[simp] theorem Dev.updGrove_srcEdge (g : Nat) (f : Grove → Grove) : (d.updGrove g f).srcEdge = d.srcEdge := rfl
@[simp] theorem Dev.updGrove_edgeOpen (g : Nat) (f : Grove → Grove) : (d.updGrove g f).edgeOpen = d.edgeOpen := rfl
@[simp] theorem Dev.updGrove_caps (g : Nat) (f : Grove → Grove) : (d.updGrove g f).caps = d.caps := rfl
@[simp] theorem Dev.updGrove_txMsg (g : Nat) (f : Grove → Grove) : (d.updGrove g f).txMsg = d.txMsg := rfl
@[simp] theorem Dev.updGrove_outgoing (g : Nat) (f : Grove → Grove) : (d.updGrove g f).outgoing = d.outgoing := rfl
@[simp] theorem Dev.updGrove_srcLost (g : Nat) (f : Grove → Grove) : (d.updGrove g f).srcLost = d.srcLost := rfl
@[simp] theorem Dev.updGrove_safeOut (g : Nat) (f : Grove → Grove) : (d.updGrove g f).safeOut = d.safeOut := rfl
@[simp] theorem Dev.updGrove_muxWait (g : Nat) (f : Grove → Grove) : (d.updGrove g f).muxWait = d.muxWait := rfl
@[simp] theorem Dev.updGrove_resumeReq (g : Nat) (f : Grove → Grove) : (d.updGrove g f).resumeReq = d.resumeReq := rfl
@[simp] theorem Dev.updGrove_board (g : Nat) (f : Grove → Grove) : (d.updGrove g f).board = d.board := rfl
@[simp] theorem Dev.updGrove_flash (g : Nat) (f : Grove → Grove) : (d.updGrove g f).flash = d.flash := rfl
@[simp] theorem Dev.updGrove_flashOp (g : Nat) (f : Grove → Grove) : (d.updGrove g f).flashOp = d.flashOp := rfl
@[simp] theorem Dev.updGrove_inServ (g : Nat) (f : Grove → Grove) : (d.updGrove g f).inServ = d.inServ := rfl
@[simp] theorem Dev.updGrove_savedPend (g : Nat) (f : Grove → Grove) : (d.updGrove g f).savedPend = d.savedPend := rfl
@[simp] theorem Dev.updGrove_vecs (g : Nat) (f : Grove → Grove) : (d.updGrove g f).vecs = d.vecs := rfl
@[simp] theorem Dev.updGrove_msixEn (g : Nat) (f : Grove → Grove) : (d.updGrove g f).msixEn = d.msixEn := rfl
@[simp] theorem Dev.updGrove_funcMask (g : Nat) (f : Grove → Grove) : (d.updGrove g f).funcMask = d.funcMask := rfl
@[simp] theorem Dev.updGrove_vfEn (g : Nat) (f : Grove → Grove) : (d.updGrove g f).vfEn = d.vfEn := rfl

/-! ### Dev.updRng -/

@[simp] theorem Dev.updRng_phase (i : Nat) (f : Ranging → Ranging) : (d.updRng i f).phase = d.phase := rfl
@[simp] theorem Dev.updRng_sfc (i : Nat) (f : Ranging → Ranging) : (d.updRng i f).sfc = d.sfc := rfl
@[simp] theorem Dev.updRng_clock (i : Nat) (f : Ranging → Ranging) : (d.updRng i f).clock = d.clock := rfl
@[simp] theorem Dev.updRng_sts (i : Nat) (f : Ranging → Ranging) : (d.updRng i f).sts = d.sts := rfl
@[simp] theorem Dev.updRng_cnt (i : Nat) (f : Ranging → Ranging) : (d.updRng i f).cnt = d.cnt := rfl
@[simp] theorem Dev.updRng_amb (i : Nat) (f : Ranging → Ranging) : (d.updRng i f).amb = d.amb := rfl
@[simp] theorem Dev.updRng_free (i : Nat) (f : Ranging → Ranging) : (d.updRng i f).free = d.free := rfl
@[simp] theorem Dev.updRng_timers (i : Nat) (f : Ranging → Ranging) : (d.updRng i f).timers = d.timers := rfl
@[simp] theorem Dev.updRng_runs (i : Nat) (f : Ranging → Ranging) : (d.updRng i f).runs = d.runs := rfl
@[simp] theorem Dev.updRng_hits (i : Nat) (f : Ranging → Ranging) : (d.updRng i f).hits = d.hits := rfl
@[simp] theorem Dev.updRng_latches (i : Nat) (f : Ranging → Ranging) : (d.updRng i f).latches = d.latches := rfl
@[simp] theorem Dev.updRng_outbox (i : Nat) (f : Ranging → Ranging) : (d.updRng i f).outbox = d.outbox := rfl
@[simp] theorem Dev.updRng_life (i : Nat) (f : Ranging → Ranging) : (d.updRng i f).life = d.life := rfl
@[simp] theorem Dev.updRng_mail (i : Nat) (f : Ranging → Ranging) : (d.updRng i f).mail = d.mail := rfl
@[simp] theorem Dev.updRng_keys (i : Nat) (f : Ranging → Ranging) : (d.updRng i f).keys = d.keys := rfl
@[simp] theorem Dev.updRng_boughs (i : Nat) (f : Ranging → Ranging) : (d.updRng i f).boughs = d.boughs := rfl
@[simp] theorem Dev.updRng_groves (i : Nat) (f : Ranging → Ranging) : (d.updRng i f).groves = d.groves := rfl
@[simp] theorem Dev.updRng_keep (i : Nat) (f : Ranging → Ranging) : (d.updRng i f).keep = d.keep := rfl
@[simp] theorem Dev.updRng_keepSfc (i : Nat) (f : Ranging → Ranging) : (d.updRng i f).keepSfc = d.keepSfc := rfl
@[simp] theorem Dev.updRng_keepHmac (i : Nat) (f : Ranging → Ranging) : (d.updRng i f).keepHmac = d.keepHmac := rfl
@[simp] theorem Dev.updRng_slots (i : Nat) (f : Ranging → Ranging) : (d.updRng i f).slots = d.slots := rfl
@[simp] theorem Dev.updRng_slotMeta (i : Nat) (f : Ranging → Ranging) : (d.updRng i f).slotMeta = d.slotMeta := rfl
@[simp] theorem Dev.updRng_ceil (i : Nat) (f : Ranging → Ranging) : (d.updRng i f).ceil = d.ceil := rfl
@[simp] theorem Dev.updRng_lastCtr (i : Nat) (f : Ranging → Ranging) : (d.updRng i f).lastCtr = d.lastCtr := rfl
@[simp] theorem Dev.updRng_keng (i : Nat) (f : Ranging → Ranging) : (d.updRng i f).keng = d.keng := rfl
@[simp] theorem Dev.updRng_keyCmd (i : Nat) (f : Ranging → Ranging) : (d.updRng i f).keyCmd = d.keyCmd := rfl
@[simp] theorem Dev.updRng_shared (i : Nat) (f : Ranging → Ranging) : (d.updRng i f).shared = d.shared := rfl
@[simp] theorem Dev.updRng_slices (i : Nat) (f : Ranging → Ranging) : (d.updRng i f).slices = d.slices := rfl
@[simp] theorem Dev.updRng_conns (i : Nat) (f : Ranging → Ranging) : (d.updRng i f).conns = d.conns := rfl
@[simp] theorem Dev.updRng_slcSwap (i : Nat) (f : Ranging → Ranging) : (d.updRng i f).slcSwap = d.slcSwap := rfl
@[simp] theorem Dev.updRng_pgs (i : Nat) (f : Ranging → Ranging) : (d.updRng i f).pgs = d.pgs := rfl
@[simp] theorem Dev.updRng_flows (i : Nat) (f : Ranging → Ranging) : (d.updRng i f).flows = d.flows := rfl
@[simp] theorem Dev.updRng_pipes (i : Nat) (f : Ranging → Ranging) : (d.updRng i f).pipes = d.pipes := rfl
@[simp] theorem Dev.updRng_frag (i : Nat) (f : Ranging → Ranging) : (d.updRng i f).frag = d.frag := rfl
@[simp] theorem Dev.updRng_bridge (i : Nat) (f : Ranging → Ranging) : (d.updRng i f).bridge = d.bridge := rfl
@[simp] theorem Dev.updRng_deferred (i : Nat) (f : Ranging → Ranging) : (d.updRng i f).deferred = d.deferred := rfl
@[simp] theorem Dev.updRng_learnPtr (i : Nat) (f : Ranging → Ranging) : (d.updRng i f).learnPtr = d.learnPtr := rfl
@[simp] theorem Dev.updRng_lpm4 (i : Nat) (f : Ranging → Ranging) : (d.updRng i f).lpm4 = d.lpm4 := rfl
@[simp] theorem Dev.updRng_lpm6 (i : Nat) (f : Ranging → Ranging) : (d.updRng i f).lpm6 = d.lpm6 := rfl
@[simp] theorem Dev.updRng_asc (i : Nat) (f : Ranging → Ranging) : (d.updRng i f).asc = d.asc := rfl
@[simp] theorem Dev.updRng_ringPtr (i : Nat) (f : Ranging → Ranging) : (d.updRng i f).ringPtr = d.ringPtr := rfl
@[simp] theorem Dev.updRng_locks (i : Nat) (f : Ranging → Ranging) : (d.updRng i f).locks = d.locks := rfl
@[simp] theorem Dev.updRng_winCmd (i : Nat) (f : Ranging → Ranging) : (d.updRng i f).winCmd = d.winCmd := rfl
@[simp] theorem Dev.updRng_casMi (i : Nat) (f : Ranging → Ranging) : (d.updRng i f).casMi = d.casMi := rfl
@[simp] theorem Dev.updRng_bufs (i : Nat) (f : Ranging → Ranging) : (d.updRng i f).bufs = d.bufs := rfl
@[simp] theorem Dev.updRng_caches (i : Nat) (f : Ranging → Ranging) : (d.updRng i f).caches = d.caches := rfl
@[simp] theorem Dev.updRng_queues (i : Nat) (f : Ranging → Ranging) : (d.updRng i f).queues = d.queues := rfl
@[simp] theorem Dev.updRng_uid (i : Nat) (f : Ranging → Ranging) : (d.updRng i f).uid = d.uid := rfl
@[simp] theorem Dev.updRng_reps (i : Nat) (f : Ranging → Ranging) : (d.updRng i f).reps = d.reps := rfl
@[simp] theorem Dev.updRng_hold (i : Nat) (f : Ranging → Ranging) : (d.updRng i f).hold = d.hold := rfl
@[simp] theorem Dev.updRng_heldAt (i : Nat) (f : Ranging → Ranging) : (d.updRng i f).heldAt = d.heldAt := rfl
@[simp] theorem Dev.updRng_holdFell (i : Nat) (f : Ranging → Ranging) : (d.updRng i f).holdFell = d.holdFell := rfl
@[simp] theorem Dev.updRng_spillPtr (i : Nat) (f : Ranging → Ranging) : (d.updRng i f).spillPtr = d.spillPtr := rfl
@[simp] theorem Dev.updRng_holdPtr (i : Nat) (f : Ranging → Ranging) : (d.updRng i f).holdPtr = d.holdPtr := rfl
@[simp] theorem Dev.updRng_tierKeys (i : Nat) (f : Ranging → Ranging) : (d.updRng i f).tierKeys = d.tierKeys := rfl
@[simp] theorem Dev.updRng_hbm (i : Nat) (f : Ranging → Ranging) : (d.updRng i f).hbm = d.hbm := rfl
@[simp] theorem Dev.updRng_cxl (i : Nat) (f : Ranging → Ranging) : (d.updRng i f).cxl = d.cxl := rfl
@[simp] theorem Dev.updRng_used (i : Nat) (f : Ranging → Ranging) : (d.updRng i f).used = d.used := rfl
@[simp] theorem Dev.updRng_training (i : Nat) (f : Ranging → Ranging) : (d.updRng i f).training = d.training := rfl
@[simp] theorem Dev.updRng_trained (i : Nat) (f : Ranging → Ranging) : (d.updRng i f).trained = d.trained := rfl
@[simp] theorem Dev.updRng_shadow (i : Nat) (f : Ranging → Ranging) : (d.updRng i f).shadow = d.shadow := rfl
@[simp] theorem Dev.updRng_replay (i : Nat) (f : Ranging → Ranging) : (d.updRng i f).replay = d.replay := rfl
@[simp] theorem Dev.updRng_bkts (i : Nat) (f : Ranging → Ranging) : (d.updRng i f).bkts = d.bkts := rfl
@[simp] theorem Dev.updRng_restAcc (i : Nat) (f : Ranging → Ranging) : (d.updRng i f).restAcc = d.restAcc := rfl
@[simp] theorem Dev.updRng_meters (i : Nat) (f : Ranging → Ranging) : (d.updRng i f).meters = d.meters := rfl
@[simp] theorem Dev.updRng_wheels (i : Nat) (f : Ranging → Ranging) : (d.updRng i f).wheels = d.wheels := rfl
@[simp] theorem Dev.updRng_samplers (i : Nat) (f : Ranging → Ranging) : (d.updRng i f).samplers = d.samplers := rfl
@[simp] theorem Dev.updRng_mate (i : Nat) (f : Ranging → Ranging) : (d.updRng i f).mate = d.mate := rfl
@[simp] theorem Dev.updRng_domA (i : Nat) (f : Ranging → Ranging) : (d.updRng i f).domA = d.domA := rfl
@[simp] theorem Dev.updRng_cyc (i : Nat) (f : Ranging → Ranging) : (d.updRng i f).cyc = d.cyc := rfl
@[simp] theorem Dev.updRng_ageHold (i : Nat) (f : Ranging → Ranging) : (d.updRng i f).ageHold = d.ageHold := rfl
@[simp] theorem Dev.updRng_replayWait (i : Nat) (f : Ranging → Ranging) : (d.updRng i f).replayWait = d.replayWait := rfl
@[simp] theorem Dev.updRng_edgeSet (i : Nat) (f : Ranging → Ranging) : (d.updRng i f).edgeSet = d.edgeSet := rfl
@[simp] theorem Dev.updRng_bases (i : Nat) (f : Ranging → Ranging) : (d.updRng i f).bases = d.bases := rfl
@[simp] theorem Dev.updRng_selBack (i : Nat) (f : Ranging → Ranging) : (d.updRng i f).selBack = d.selBack := rfl
@[simp] theorem Dev.updRng_domB (i : Nat) (f : Ranging → Ranging) : (d.updRng i f).domB = d.domB := rfl
@[simp] theorem Dev.updRng_sigma (i : Nat) (f : Ranging → Ranging) : (d.updRng i f).sigma = d.sigma := rfl
@[simp] theorem Dev.updRng_edgeTime (i : Nat) (f : Ranging → Ranging) : (d.updRng i f).edgeTime = d.edgeTime := rfl
@[simp] theorem Dev.updRng_prevEdge (i : Nat) (f : Ranging → Ranging) : (d.updRng i f).prevEdge = d.prevEdge := rfl
@[simp] theorem Dev.updRng_srcEdge (i : Nat) (f : Ranging → Ranging) : (d.updRng i f).srcEdge = d.srcEdge := rfl
@[simp] theorem Dev.updRng_edgeOpen (i : Nat) (f : Ranging → Ranging) : (d.updRng i f).edgeOpen = d.edgeOpen := rfl
@[simp] theorem Dev.updRng_caps (i : Nat) (f : Ranging → Ranging) : (d.updRng i f).caps = d.caps := rfl
@[simp] theorem Dev.updRng_txMsg (i : Nat) (f : Ranging → Ranging) : (d.updRng i f).txMsg = d.txMsg := rfl
@[simp] theorem Dev.updRng_outgoing (i : Nat) (f : Ranging → Ranging) : (d.updRng i f).outgoing = d.outgoing := rfl
@[simp] theorem Dev.updRng_srcLost (i : Nat) (f : Ranging → Ranging) : (d.updRng i f).srcLost = d.srcLost := rfl
@[simp] theorem Dev.updRng_safeOut (i : Nat) (f : Ranging → Ranging) : (d.updRng i f).safeOut = d.safeOut := rfl
@[simp] theorem Dev.updRng_muxWait (i : Nat) (f : Ranging → Ranging) : (d.updRng i f).muxWait = d.muxWait := rfl
@[simp] theorem Dev.updRng_resumeReq (i : Nat) (f : Ranging → Ranging) : (d.updRng i f).resumeReq = d.resumeReq := rfl
@[simp] theorem Dev.updRng_board (i : Nat) (f : Ranging → Ranging) : (d.updRng i f).board = d.board := rfl
@[simp] theorem Dev.updRng_flash (i : Nat) (f : Ranging → Ranging) : (d.updRng i f).flash = d.flash := rfl
@[simp] theorem Dev.updRng_flashOp (i : Nat) (f : Ranging → Ranging) : (d.updRng i f).flashOp = d.flashOp := rfl
@[simp] theorem Dev.updRng_inServ (i : Nat) (f : Ranging → Ranging) : (d.updRng i f).inServ = d.inServ := rfl
@[simp] theorem Dev.updRng_savedPend (i : Nat) (f : Ranging → Ranging) : (d.updRng i f).savedPend = d.savedPend := rfl
@[simp] theorem Dev.updRng_vecs (i : Nat) (f : Ranging → Ranging) : (d.updRng i f).vecs = d.vecs := rfl
@[simp] theorem Dev.updRng_msixEn (i : Nat) (f : Ranging → Ranging) : (d.updRng i f).msixEn = d.msixEn := rfl
@[simp] theorem Dev.updRng_funcMask (i : Nat) (f : Ranging → Ranging) : (d.updRng i f).funcMask = d.funcMask := rfl
@[simp] theorem Dev.updRng_vfEn (i : Nat) (f : Ranging → Ranging) : (d.updRng i f).vfEn = d.vfEn := rfl

/-! ### Dev.updKeys -/

@[simp] theorem Dev.updKeys_phase (i : Nat) (f : StandKeys → StandKeys) : (d.updKeys i f).phase = d.phase := rfl
@[simp] theorem Dev.updKeys_sfc (i : Nat) (f : StandKeys → StandKeys) : (d.updKeys i f).sfc = d.sfc := rfl
@[simp] theorem Dev.updKeys_clock (i : Nat) (f : StandKeys → StandKeys) : (d.updKeys i f).clock = d.clock := rfl
@[simp] theorem Dev.updKeys_sts (i : Nat) (f : StandKeys → StandKeys) : (d.updKeys i f).sts = d.sts := rfl
@[simp] theorem Dev.updKeys_cnt (i : Nat) (f : StandKeys → StandKeys) : (d.updKeys i f).cnt = d.cnt := rfl
@[simp] theorem Dev.updKeys_amb (i : Nat) (f : StandKeys → StandKeys) : (d.updKeys i f).amb = d.amb := rfl
@[simp] theorem Dev.updKeys_free (i : Nat) (f : StandKeys → StandKeys) : (d.updKeys i f).free = d.free := rfl
@[simp] theorem Dev.updKeys_timers (i : Nat) (f : StandKeys → StandKeys) : (d.updKeys i f).timers = d.timers := rfl
@[simp] theorem Dev.updKeys_runs (i : Nat) (f : StandKeys → StandKeys) : (d.updKeys i f).runs = d.runs := rfl
@[simp] theorem Dev.updKeys_hits (i : Nat) (f : StandKeys → StandKeys) : (d.updKeys i f).hits = d.hits := rfl
@[simp] theorem Dev.updKeys_latches (i : Nat) (f : StandKeys → StandKeys) : (d.updKeys i f).latches = d.latches := rfl
@[simp] theorem Dev.updKeys_outbox (i : Nat) (f : StandKeys → StandKeys) : (d.updKeys i f).outbox = d.outbox := rfl
@[simp] theorem Dev.updKeys_life (i : Nat) (f : StandKeys → StandKeys) : (d.updKeys i f).life = d.life := rfl
@[simp] theorem Dev.updKeys_rng (i : Nat) (f : StandKeys → StandKeys) : (d.updKeys i f).rng = d.rng := rfl
@[simp] theorem Dev.updKeys_mail (i : Nat) (f : StandKeys → StandKeys) : (d.updKeys i f).mail = d.mail := rfl
@[simp] theorem Dev.updKeys_boughs (i : Nat) (f : StandKeys → StandKeys) : (d.updKeys i f).boughs = d.boughs := rfl
@[simp] theorem Dev.updKeys_groves (i : Nat) (f : StandKeys → StandKeys) : (d.updKeys i f).groves = d.groves := rfl
@[simp] theorem Dev.updKeys_keep (i : Nat) (f : StandKeys → StandKeys) : (d.updKeys i f).keep = d.keep := rfl
@[simp] theorem Dev.updKeys_keepSfc (i : Nat) (f : StandKeys → StandKeys) : (d.updKeys i f).keepSfc = d.keepSfc := rfl
@[simp] theorem Dev.updKeys_keepHmac (i : Nat) (f : StandKeys → StandKeys) : (d.updKeys i f).keepHmac = d.keepHmac := rfl
@[simp] theorem Dev.updKeys_slots (i : Nat) (f : StandKeys → StandKeys) : (d.updKeys i f).slots = d.slots := rfl
@[simp] theorem Dev.updKeys_slotMeta (i : Nat) (f : StandKeys → StandKeys) : (d.updKeys i f).slotMeta = d.slotMeta := rfl
@[simp] theorem Dev.updKeys_ceil (i : Nat) (f : StandKeys → StandKeys) : (d.updKeys i f).ceil = d.ceil := rfl
@[simp] theorem Dev.updKeys_lastCtr (i : Nat) (f : StandKeys → StandKeys) : (d.updKeys i f).lastCtr = d.lastCtr := rfl
@[simp] theorem Dev.updKeys_keng (i : Nat) (f : StandKeys → StandKeys) : (d.updKeys i f).keng = d.keng := rfl
@[simp] theorem Dev.updKeys_keyCmd (i : Nat) (f : StandKeys → StandKeys) : (d.updKeys i f).keyCmd = d.keyCmd := rfl
@[simp] theorem Dev.updKeys_shared (i : Nat) (f : StandKeys → StandKeys) : (d.updKeys i f).shared = d.shared := rfl
@[simp] theorem Dev.updKeys_slices (i : Nat) (f : StandKeys → StandKeys) : (d.updKeys i f).slices = d.slices := rfl
@[simp] theorem Dev.updKeys_conns (i : Nat) (f : StandKeys → StandKeys) : (d.updKeys i f).conns = d.conns := rfl
@[simp] theorem Dev.updKeys_slcSwap (i : Nat) (f : StandKeys → StandKeys) : (d.updKeys i f).slcSwap = d.slcSwap := rfl
@[simp] theorem Dev.updKeys_pgs (i : Nat) (f : StandKeys → StandKeys) : (d.updKeys i f).pgs = d.pgs := rfl
@[simp] theorem Dev.updKeys_flows (i : Nat) (f : StandKeys → StandKeys) : (d.updKeys i f).flows = d.flows := rfl
@[simp] theorem Dev.updKeys_pipes (i : Nat) (f : StandKeys → StandKeys) : (d.updKeys i f).pipes = d.pipes := rfl
@[simp] theorem Dev.updKeys_frag (i : Nat) (f : StandKeys → StandKeys) : (d.updKeys i f).frag = d.frag := rfl
@[simp] theorem Dev.updKeys_bridge (i : Nat) (f : StandKeys → StandKeys) : (d.updKeys i f).bridge = d.bridge := rfl
@[simp] theorem Dev.updKeys_deferred (i : Nat) (f : StandKeys → StandKeys) : (d.updKeys i f).deferred = d.deferred := rfl
@[simp] theorem Dev.updKeys_learnPtr (i : Nat) (f : StandKeys → StandKeys) : (d.updKeys i f).learnPtr = d.learnPtr := rfl
@[simp] theorem Dev.updKeys_lpm4 (i : Nat) (f : StandKeys → StandKeys) : (d.updKeys i f).lpm4 = d.lpm4 := rfl
@[simp] theorem Dev.updKeys_lpm6 (i : Nat) (f : StandKeys → StandKeys) : (d.updKeys i f).lpm6 = d.lpm6 := rfl
@[simp] theorem Dev.updKeys_asc (i : Nat) (f : StandKeys → StandKeys) : (d.updKeys i f).asc = d.asc := rfl
@[simp] theorem Dev.updKeys_ringPtr (i : Nat) (f : StandKeys → StandKeys) : (d.updKeys i f).ringPtr = d.ringPtr := rfl
@[simp] theorem Dev.updKeys_locks (i : Nat) (f : StandKeys → StandKeys) : (d.updKeys i f).locks = d.locks := rfl
@[simp] theorem Dev.updKeys_winCmd (i : Nat) (f : StandKeys → StandKeys) : (d.updKeys i f).winCmd = d.winCmd := rfl
@[simp] theorem Dev.updKeys_casMi (i : Nat) (f : StandKeys → StandKeys) : (d.updKeys i f).casMi = d.casMi := rfl
@[simp] theorem Dev.updKeys_bufs (i : Nat) (f : StandKeys → StandKeys) : (d.updKeys i f).bufs = d.bufs := rfl
@[simp] theorem Dev.updKeys_caches (i : Nat) (f : StandKeys → StandKeys) : (d.updKeys i f).caches = d.caches := rfl
@[simp] theorem Dev.updKeys_queues (i : Nat) (f : StandKeys → StandKeys) : (d.updKeys i f).queues = d.queues := rfl
@[simp] theorem Dev.updKeys_uid (i : Nat) (f : StandKeys → StandKeys) : (d.updKeys i f).uid = d.uid := rfl
@[simp] theorem Dev.updKeys_reps (i : Nat) (f : StandKeys → StandKeys) : (d.updKeys i f).reps = d.reps := rfl
@[simp] theorem Dev.updKeys_hold (i : Nat) (f : StandKeys → StandKeys) : (d.updKeys i f).hold = d.hold := rfl
@[simp] theorem Dev.updKeys_heldAt (i : Nat) (f : StandKeys → StandKeys) : (d.updKeys i f).heldAt = d.heldAt := rfl
@[simp] theorem Dev.updKeys_holdFell (i : Nat) (f : StandKeys → StandKeys) : (d.updKeys i f).holdFell = d.holdFell := rfl
@[simp] theorem Dev.updKeys_spillPtr (i : Nat) (f : StandKeys → StandKeys) : (d.updKeys i f).spillPtr = d.spillPtr := rfl
@[simp] theorem Dev.updKeys_holdPtr (i : Nat) (f : StandKeys → StandKeys) : (d.updKeys i f).holdPtr = d.holdPtr := rfl
@[simp] theorem Dev.updKeys_tierKeys (i : Nat) (f : StandKeys → StandKeys) : (d.updKeys i f).tierKeys = d.tierKeys := rfl
@[simp] theorem Dev.updKeys_hbm (i : Nat) (f : StandKeys → StandKeys) : (d.updKeys i f).hbm = d.hbm := rfl
@[simp] theorem Dev.updKeys_cxl (i : Nat) (f : StandKeys → StandKeys) : (d.updKeys i f).cxl = d.cxl := rfl
@[simp] theorem Dev.updKeys_used (i : Nat) (f : StandKeys → StandKeys) : (d.updKeys i f).used = d.used := rfl
@[simp] theorem Dev.updKeys_training (i : Nat) (f : StandKeys → StandKeys) : (d.updKeys i f).training = d.training := rfl
@[simp] theorem Dev.updKeys_trained (i : Nat) (f : StandKeys → StandKeys) : (d.updKeys i f).trained = d.trained := rfl
@[simp] theorem Dev.updKeys_shadow (i : Nat) (f : StandKeys → StandKeys) : (d.updKeys i f).shadow = d.shadow := rfl
@[simp] theorem Dev.updKeys_replay (i : Nat) (f : StandKeys → StandKeys) : (d.updKeys i f).replay = d.replay := rfl
@[simp] theorem Dev.updKeys_bkts (i : Nat) (f : StandKeys → StandKeys) : (d.updKeys i f).bkts = d.bkts := rfl
@[simp] theorem Dev.updKeys_restAcc (i : Nat) (f : StandKeys → StandKeys) : (d.updKeys i f).restAcc = d.restAcc := rfl
@[simp] theorem Dev.updKeys_meters (i : Nat) (f : StandKeys → StandKeys) : (d.updKeys i f).meters = d.meters := rfl
@[simp] theorem Dev.updKeys_wheels (i : Nat) (f : StandKeys → StandKeys) : (d.updKeys i f).wheels = d.wheels := rfl
@[simp] theorem Dev.updKeys_samplers (i : Nat) (f : StandKeys → StandKeys) : (d.updKeys i f).samplers = d.samplers := rfl
@[simp] theorem Dev.updKeys_mate (i : Nat) (f : StandKeys → StandKeys) : (d.updKeys i f).mate = d.mate := rfl
@[simp] theorem Dev.updKeys_domA (i : Nat) (f : StandKeys → StandKeys) : (d.updKeys i f).domA = d.domA := rfl
@[simp] theorem Dev.updKeys_cyc (i : Nat) (f : StandKeys → StandKeys) : (d.updKeys i f).cyc = d.cyc := rfl
@[simp] theorem Dev.updKeys_ageHold (i : Nat) (f : StandKeys → StandKeys) : (d.updKeys i f).ageHold = d.ageHold := rfl
@[simp] theorem Dev.updKeys_replayWait (i : Nat) (f : StandKeys → StandKeys) : (d.updKeys i f).replayWait = d.replayWait := rfl
@[simp] theorem Dev.updKeys_edgeSet (i : Nat) (f : StandKeys → StandKeys) : (d.updKeys i f).edgeSet = d.edgeSet := rfl
@[simp] theorem Dev.updKeys_bases (i : Nat) (f : StandKeys → StandKeys) : (d.updKeys i f).bases = d.bases := rfl
@[simp] theorem Dev.updKeys_selBack (i : Nat) (f : StandKeys → StandKeys) : (d.updKeys i f).selBack = d.selBack := rfl
@[simp] theorem Dev.updKeys_domB (i : Nat) (f : StandKeys → StandKeys) : (d.updKeys i f).domB = d.domB := rfl
@[simp] theorem Dev.updKeys_sigma (i : Nat) (f : StandKeys → StandKeys) : (d.updKeys i f).sigma = d.sigma := rfl
@[simp] theorem Dev.updKeys_edgeTime (i : Nat) (f : StandKeys → StandKeys) : (d.updKeys i f).edgeTime = d.edgeTime := rfl
@[simp] theorem Dev.updKeys_prevEdge (i : Nat) (f : StandKeys → StandKeys) : (d.updKeys i f).prevEdge = d.prevEdge := rfl
@[simp] theorem Dev.updKeys_srcEdge (i : Nat) (f : StandKeys → StandKeys) : (d.updKeys i f).srcEdge = d.srcEdge := rfl
@[simp] theorem Dev.updKeys_edgeOpen (i : Nat) (f : StandKeys → StandKeys) : (d.updKeys i f).edgeOpen = d.edgeOpen := rfl
@[simp] theorem Dev.updKeys_caps (i : Nat) (f : StandKeys → StandKeys) : (d.updKeys i f).caps = d.caps := rfl
@[simp] theorem Dev.updKeys_txMsg (i : Nat) (f : StandKeys → StandKeys) : (d.updKeys i f).txMsg = d.txMsg := rfl
@[simp] theorem Dev.updKeys_outgoing (i : Nat) (f : StandKeys → StandKeys) : (d.updKeys i f).outgoing = d.outgoing := rfl
@[simp] theorem Dev.updKeys_srcLost (i : Nat) (f : StandKeys → StandKeys) : (d.updKeys i f).srcLost = d.srcLost := rfl
@[simp] theorem Dev.updKeys_safeOut (i : Nat) (f : StandKeys → StandKeys) : (d.updKeys i f).safeOut = d.safeOut := rfl
@[simp] theorem Dev.updKeys_muxWait (i : Nat) (f : StandKeys → StandKeys) : (d.updKeys i f).muxWait = d.muxWait := rfl
@[simp] theorem Dev.updKeys_resumeReq (i : Nat) (f : StandKeys → StandKeys) : (d.updKeys i f).resumeReq = d.resumeReq := rfl
@[simp] theorem Dev.updKeys_board (i : Nat) (f : StandKeys → StandKeys) : (d.updKeys i f).board = d.board := rfl
@[simp] theorem Dev.updKeys_flash (i : Nat) (f : StandKeys → StandKeys) : (d.updKeys i f).flash = d.flash := rfl
@[simp] theorem Dev.updKeys_flashOp (i : Nat) (f : StandKeys → StandKeys) : (d.updKeys i f).flashOp = d.flashOp := rfl
@[simp] theorem Dev.updKeys_inServ (i : Nat) (f : StandKeys → StandKeys) : (d.updKeys i f).inServ = d.inServ := rfl
@[simp] theorem Dev.updKeys_savedPend (i : Nat) (f : StandKeys → StandKeys) : (d.updKeys i f).savedPend = d.savedPend := rfl
@[simp] theorem Dev.updKeys_vecs (i : Nat) (f : StandKeys → StandKeys) : (d.updKeys i f).vecs = d.vecs := rfl
@[simp] theorem Dev.updKeys_msixEn (i : Nat) (f : StandKeys → StandKeys) : (d.updKeys i f).msixEn = d.msixEn := rfl
@[simp] theorem Dev.updKeys_funcMask (i : Nat) (f : StandKeys → StandKeys) : (d.updKeys i f).funcMask = d.funcMask := rfl
@[simp] theorem Dev.updKeys_vfEn (i : Nat) (f : StandKeys → StandKeys) : (d.updKeys i f).vfEn = d.vfEn := rfl

/-! ### Dev.updBough -/

@[simp] theorem Dev.updBough_phase (b : Nat) (f : Bough → Bough) : (d.updBough b f).phase = d.phase := rfl
@[simp] theorem Dev.updBough_sfc (b : Nat) (f : Bough → Bough) : (d.updBough b f).sfc = d.sfc := rfl
@[simp] theorem Dev.updBough_clock (b : Nat) (f : Bough → Bough) : (d.updBough b f).clock = d.clock := rfl
@[simp] theorem Dev.updBough_sts (b : Nat) (f : Bough → Bough) : (d.updBough b f).sts = d.sts := rfl
@[simp] theorem Dev.updBough_cnt (b : Nat) (f : Bough → Bough) : (d.updBough b f).cnt = d.cnt := rfl
@[simp] theorem Dev.updBough_amb (b : Nat) (f : Bough → Bough) : (d.updBough b f).amb = d.amb := rfl
@[simp] theorem Dev.updBough_free (b : Nat) (f : Bough → Bough) : (d.updBough b f).free = d.free := rfl
@[simp] theorem Dev.updBough_timers (b : Nat) (f : Bough → Bough) : (d.updBough b f).timers = d.timers := rfl
@[simp] theorem Dev.updBough_runs (b : Nat) (f : Bough → Bough) : (d.updBough b f).runs = d.runs := rfl
@[simp] theorem Dev.updBough_hits (b : Nat) (f : Bough → Bough) : (d.updBough b f).hits = d.hits := rfl
@[simp] theorem Dev.updBough_latches (b : Nat) (f : Bough → Bough) : (d.updBough b f).latches = d.latches := rfl
@[simp] theorem Dev.updBough_outbox (b : Nat) (f : Bough → Bough) : (d.updBough b f).outbox = d.outbox := rfl
@[simp] theorem Dev.updBough_life (b : Nat) (f : Bough → Bough) : (d.updBough b f).life = d.life := rfl
@[simp] theorem Dev.updBough_rng (b : Nat) (f : Bough → Bough) : (d.updBough b f).rng = d.rng := rfl
@[simp] theorem Dev.updBough_mail (b : Nat) (f : Bough → Bough) : (d.updBough b f).mail = d.mail := rfl
@[simp] theorem Dev.updBough_keys (b : Nat) (f : Bough → Bough) : (d.updBough b f).keys = d.keys := rfl
@[simp] theorem Dev.updBough_groves (b : Nat) (f : Bough → Bough) : (d.updBough b f).groves = d.groves := rfl
@[simp] theorem Dev.updBough_keep (b : Nat) (f : Bough → Bough) : (d.updBough b f).keep = d.keep := rfl
@[simp] theorem Dev.updBough_keepSfc (b : Nat) (f : Bough → Bough) : (d.updBough b f).keepSfc = d.keepSfc := rfl
@[simp] theorem Dev.updBough_keepHmac (b : Nat) (f : Bough → Bough) : (d.updBough b f).keepHmac = d.keepHmac := rfl
@[simp] theorem Dev.updBough_slots (b : Nat) (f : Bough → Bough) : (d.updBough b f).slots = d.slots := rfl
@[simp] theorem Dev.updBough_slotMeta (b : Nat) (f : Bough → Bough) : (d.updBough b f).slotMeta = d.slotMeta := rfl
@[simp] theorem Dev.updBough_ceil (b : Nat) (f : Bough → Bough) : (d.updBough b f).ceil = d.ceil := rfl
@[simp] theorem Dev.updBough_lastCtr (b : Nat) (f : Bough → Bough) : (d.updBough b f).lastCtr = d.lastCtr := rfl
@[simp] theorem Dev.updBough_keng (b : Nat) (f : Bough → Bough) : (d.updBough b f).keng = d.keng := rfl
@[simp] theorem Dev.updBough_keyCmd (b : Nat) (f : Bough → Bough) : (d.updBough b f).keyCmd = d.keyCmd := rfl
@[simp] theorem Dev.updBough_shared (b : Nat) (f : Bough → Bough) : (d.updBough b f).shared = d.shared := rfl
@[simp] theorem Dev.updBough_slices (b : Nat) (f : Bough → Bough) : (d.updBough b f).slices = d.slices := rfl
@[simp] theorem Dev.updBough_conns (b : Nat) (f : Bough → Bough) : (d.updBough b f).conns = d.conns := rfl
@[simp] theorem Dev.updBough_slcSwap (b : Nat) (f : Bough → Bough) : (d.updBough b f).slcSwap = d.slcSwap := rfl
@[simp] theorem Dev.updBough_pgs (b : Nat) (f : Bough → Bough) : (d.updBough b f).pgs = d.pgs := rfl
@[simp] theorem Dev.updBough_flows (b : Nat) (f : Bough → Bough) : (d.updBough b f).flows = d.flows := rfl
@[simp] theorem Dev.updBough_pipes (b : Nat) (f : Bough → Bough) : (d.updBough b f).pipes = d.pipes := rfl
@[simp] theorem Dev.updBough_frag (b : Nat) (f : Bough → Bough) : (d.updBough b f).frag = d.frag := rfl
@[simp] theorem Dev.updBough_bridge (b : Nat) (f : Bough → Bough) : (d.updBough b f).bridge = d.bridge := rfl
@[simp] theorem Dev.updBough_deferred (b : Nat) (f : Bough → Bough) : (d.updBough b f).deferred = d.deferred := rfl
@[simp] theorem Dev.updBough_learnPtr (b : Nat) (f : Bough → Bough) : (d.updBough b f).learnPtr = d.learnPtr := rfl
@[simp] theorem Dev.updBough_lpm4 (b : Nat) (f : Bough → Bough) : (d.updBough b f).lpm4 = d.lpm4 := rfl
@[simp] theorem Dev.updBough_lpm6 (b : Nat) (f : Bough → Bough) : (d.updBough b f).lpm6 = d.lpm6 := rfl
@[simp] theorem Dev.updBough_asc (b : Nat) (f : Bough → Bough) : (d.updBough b f).asc = d.asc := rfl
@[simp] theorem Dev.updBough_ringPtr (b : Nat) (f : Bough → Bough) : (d.updBough b f).ringPtr = d.ringPtr := rfl
@[simp] theorem Dev.updBough_locks (b : Nat) (f : Bough → Bough) : (d.updBough b f).locks = d.locks := rfl
@[simp] theorem Dev.updBough_winCmd (b : Nat) (f : Bough → Bough) : (d.updBough b f).winCmd = d.winCmd := rfl
@[simp] theorem Dev.updBough_casMi (b : Nat) (f : Bough → Bough) : (d.updBough b f).casMi = d.casMi := rfl
@[simp] theorem Dev.updBough_bufs (b : Nat) (f : Bough → Bough) : (d.updBough b f).bufs = d.bufs := rfl
@[simp] theorem Dev.updBough_caches (b : Nat) (f : Bough → Bough) : (d.updBough b f).caches = d.caches := rfl
@[simp] theorem Dev.updBough_queues (b : Nat) (f : Bough → Bough) : (d.updBough b f).queues = d.queues := rfl
@[simp] theorem Dev.updBough_uid (b : Nat) (f : Bough → Bough) : (d.updBough b f).uid = d.uid := rfl
@[simp] theorem Dev.updBough_reps (b : Nat) (f : Bough → Bough) : (d.updBough b f).reps = d.reps := rfl
@[simp] theorem Dev.updBough_hold (b : Nat) (f : Bough → Bough) : (d.updBough b f).hold = d.hold := rfl
@[simp] theorem Dev.updBough_heldAt (b : Nat) (f : Bough → Bough) : (d.updBough b f).heldAt = d.heldAt := rfl
@[simp] theorem Dev.updBough_holdFell (b : Nat) (f : Bough → Bough) : (d.updBough b f).holdFell = d.holdFell := rfl
@[simp] theorem Dev.updBough_spillPtr (b : Nat) (f : Bough → Bough) : (d.updBough b f).spillPtr = d.spillPtr := rfl
@[simp] theorem Dev.updBough_holdPtr (b : Nat) (f : Bough → Bough) : (d.updBough b f).holdPtr = d.holdPtr := rfl
@[simp] theorem Dev.updBough_tierKeys (b : Nat) (f : Bough → Bough) : (d.updBough b f).tierKeys = d.tierKeys := rfl
@[simp] theorem Dev.updBough_hbm (b : Nat) (f : Bough → Bough) : (d.updBough b f).hbm = d.hbm := rfl
@[simp] theorem Dev.updBough_cxl (b : Nat) (f : Bough → Bough) : (d.updBough b f).cxl = d.cxl := rfl
@[simp] theorem Dev.updBough_used (b : Nat) (f : Bough → Bough) : (d.updBough b f).used = d.used := rfl
@[simp] theorem Dev.updBough_training (b : Nat) (f : Bough → Bough) : (d.updBough b f).training = d.training := rfl
@[simp] theorem Dev.updBough_trained (b : Nat) (f : Bough → Bough) : (d.updBough b f).trained = d.trained := rfl
@[simp] theorem Dev.updBough_shadow (b : Nat) (f : Bough → Bough) : (d.updBough b f).shadow = d.shadow := rfl
@[simp] theorem Dev.updBough_replay (b : Nat) (f : Bough → Bough) : (d.updBough b f).replay = d.replay := rfl
@[simp] theorem Dev.updBough_bkts (b : Nat) (f : Bough → Bough) : (d.updBough b f).bkts = d.bkts := rfl
@[simp] theorem Dev.updBough_restAcc (b : Nat) (f : Bough → Bough) : (d.updBough b f).restAcc = d.restAcc := rfl
@[simp] theorem Dev.updBough_meters (b : Nat) (f : Bough → Bough) : (d.updBough b f).meters = d.meters := rfl
@[simp] theorem Dev.updBough_wheels (b : Nat) (f : Bough → Bough) : (d.updBough b f).wheels = d.wheels := rfl
@[simp] theorem Dev.updBough_samplers (b : Nat) (f : Bough → Bough) : (d.updBough b f).samplers = d.samplers := rfl
@[simp] theorem Dev.updBough_mate (b : Nat) (f : Bough → Bough) : (d.updBough b f).mate = d.mate := rfl
@[simp] theorem Dev.updBough_domA (b : Nat) (f : Bough → Bough) : (d.updBough b f).domA = d.domA := rfl
@[simp] theorem Dev.updBough_cyc (b : Nat) (f : Bough → Bough) : (d.updBough b f).cyc = d.cyc := rfl
@[simp] theorem Dev.updBough_ageHold (b : Nat) (f : Bough → Bough) : (d.updBough b f).ageHold = d.ageHold := rfl
@[simp] theorem Dev.updBough_replayWait (b : Nat) (f : Bough → Bough) : (d.updBough b f).replayWait = d.replayWait := rfl
@[simp] theorem Dev.updBough_edgeSet (b : Nat) (f : Bough → Bough) : (d.updBough b f).edgeSet = d.edgeSet := rfl
@[simp] theorem Dev.updBough_bases (b : Nat) (f : Bough → Bough) : (d.updBough b f).bases = d.bases := rfl
@[simp] theorem Dev.updBough_selBack (b : Nat) (f : Bough → Bough) : (d.updBough b f).selBack = d.selBack := rfl
@[simp] theorem Dev.updBough_domB (b : Nat) (f : Bough → Bough) : (d.updBough b f).domB = d.domB := rfl
@[simp] theorem Dev.updBough_sigma (b : Nat) (f : Bough → Bough) : (d.updBough b f).sigma = d.sigma := rfl
@[simp] theorem Dev.updBough_edgeTime (b : Nat) (f : Bough → Bough) : (d.updBough b f).edgeTime = d.edgeTime := rfl
@[simp] theorem Dev.updBough_prevEdge (b : Nat) (f : Bough → Bough) : (d.updBough b f).prevEdge = d.prevEdge := rfl
@[simp] theorem Dev.updBough_srcEdge (b : Nat) (f : Bough → Bough) : (d.updBough b f).srcEdge = d.srcEdge := rfl
@[simp] theorem Dev.updBough_edgeOpen (b : Nat) (f : Bough → Bough) : (d.updBough b f).edgeOpen = d.edgeOpen := rfl
@[simp] theorem Dev.updBough_caps (b : Nat) (f : Bough → Bough) : (d.updBough b f).caps = d.caps := rfl
@[simp] theorem Dev.updBough_txMsg (b : Nat) (f : Bough → Bough) : (d.updBough b f).txMsg = d.txMsg := rfl
@[simp] theorem Dev.updBough_outgoing (b : Nat) (f : Bough → Bough) : (d.updBough b f).outgoing = d.outgoing := rfl
@[simp] theorem Dev.updBough_srcLost (b : Nat) (f : Bough → Bough) : (d.updBough b f).srcLost = d.srcLost := rfl
@[simp] theorem Dev.updBough_safeOut (b : Nat) (f : Bough → Bough) : (d.updBough b f).safeOut = d.safeOut := rfl
@[simp] theorem Dev.updBough_muxWait (b : Nat) (f : Bough → Bough) : (d.updBough b f).muxWait = d.muxWait := rfl
@[simp] theorem Dev.updBough_resumeReq (b : Nat) (f : Bough → Bough) : (d.updBough b f).resumeReq = d.resumeReq := rfl
@[simp] theorem Dev.updBough_board (b : Nat) (f : Bough → Bough) : (d.updBough b f).board = d.board := rfl
@[simp] theorem Dev.updBough_flash (b : Nat) (f : Bough → Bough) : (d.updBough b f).flash = d.flash := rfl
@[simp] theorem Dev.updBough_flashOp (b : Nat) (f : Bough → Bough) : (d.updBough b f).flashOp = d.flashOp := rfl
@[simp] theorem Dev.updBough_inServ (b : Nat) (f : Bough → Bough) : (d.updBough b f).inServ = d.inServ := rfl
@[simp] theorem Dev.updBough_savedPend (b : Nat) (f : Bough → Bough) : (d.updBough b f).savedPend = d.savedPend := rfl
@[simp] theorem Dev.updBough_vecs (b : Nat) (f : Bough → Bough) : (d.updBough b f).vecs = d.vecs := rfl
@[simp] theorem Dev.updBough_msixEn (b : Nat) (f : Bough → Bough) : (d.updBough b f).msixEn = d.msixEn := rfl
@[simp] theorem Dev.updBough_funcMask (b : Nat) (f : Bough → Bough) : (d.updBough b f).funcMask = d.funcMask := rfl
@[simp] theorem Dev.updBough_vfEn (b : Nat) (f : Bough → Bough) : (d.updBough b f).vfEn = d.vfEn := rfl

/-! ### Dev.updLife -/

@[simp] theorem Dev.updLife_phase (i : Nat) (f : Life → Life) : (d.updLife i f).phase = d.phase := rfl
@[simp] theorem Dev.updLife_sfc (i : Nat) (f : Life → Life) : (d.updLife i f).sfc = d.sfc := rfl
@[simp] theorem Dev.updLife_clock (i : Nat) (f : Life → Life) : (d.updLife i f).clock = d.clock := rfl
@[simp] theorem Dev.updLife_sts (i : Nat) (f : Life → Life) : (d.updLife i f).sts = d.sts := rfl
@[simp] theorem Dev.updLife_cnt (i : Nat) (f : Life → Life) : (d.updLife i f).cnt = d.cnt := rfl
@[simp] theorem Dev.updLife_amb (i : Nat) (f : Life → Life) : (d.updLife i f).amb = d.amb := rfl
@[simp] theorem Dev.updLife_free (i : Nat) (f : Life → Life) : (d.updLife i f).free = d.free := rfl
@[simp] theorem Dev.updLife_timers (i : Nat) (f : Life → Life) : (d.updLife i f).timers = d.timers := rfl
@[simp] theorem Dev.updLife_runs (i : Nat) (f : Life → Life) : (d.updLife i f).runs = d.runs := rfl
@[simp] theorem Dev.updLife_hits (i : Nat) (f : Life → Life) : (d.updLife i f).hits = d.hits := rfl
@[simp] theorem Dev.updLife_latches (i : Nat) (f : Life → Life) : (d.updLife i f).latches = d.latches := rfl
@[simp] theorem Dev.updLife_outbox (i : Nat) (f : Life → Life) : (d.updLife i f).outbox = d.outbox := rfl
@[simp] theorem Dev.updLife_rng (i : Nat) (f : Life → Life) : (d.updLife i f).rng = d.rng := rfl
@[simp] theorem Dev.updLife_mail (i : Nat) (f : Life → Life) : (d.updLife i f).mail = d.mail := rfl
@[simp] theorem Dev.updLife_keys (i : Nat) (f : Life → Life) : (d.updLife i f).keys = d.keys := rfl
@[simp] theorem Dev.updLife_boughs (i : Nat) (f : Life → Life) : (d.updLife i f).boughs = d.boughs := rfl
@[simp] theorem Dev.updLife_groves (i : Nat) (f : Life → Life) : (d.updLife i f).groves = d.groves := rfl
@[simp] theorem Dev.updLife_keep (i : Nat) (f : Life → Life) : (d.updLife i f).keep = d.keep := rfl
@[simp] theorem Dev.updLife_keepSfc (i : Nat) (f : Life → Life) : (d.updLife i f).keepSfc = d.keepSfc := rfl
@[simp] theorem Dev.updLife_keepHmac (i : Nat) (f : Life → Life) : (d.updLife i f).keepHmac = d.keepHmac := rfl
@[simp] theorem Dev.updLife_slots (i : Nat) (f : Life → Life) : (d.updLife i f).slots = d.slots := rfl
@[simp] theorem Dev.updLife_slotMeta (i : Nat) (f : Life → Life) : (d.updLife i f).slotMeta = d.slotMeta := rfl
@[simp] theorem Dev.updLife_ceil (i : Nat) (f : Life → Life) : (d.updLife i f).ceil = d.ceil := rfl
@[simp] theorem Dev.updLife_lastCtr (i : Nat) (f : Life → Life) : (d.updLife i f).lastCtr = d.lastCtr := rfl
@[simp] theorem Dev.updLife_keng (i : Nat) (f : Life → Life) : (d.updLife i f).keng = d.keng := rfl
@[simp] theorem Dev.updLife_keyCmd (i : Nat) (f : Life → Life) : (d.updLife i f).keyCmd = d.keyCmd := rfl
@[simp] theorem Dev.updLife_shared (i : Nat) (f : Life → Life) : (d.updLife i f).shared = d.shared := rfl
@[simp] theorem Dev.updLife_slices (i : Nat) (f : Life → Life) : (d.updLife i f).slices = d.slices := rfl
@[simp] theorem Dev.updLife_conns (i : Nat) (f : Life → Life) : (d.updLife i f).conns = d.conns := rfl
@[simp] theorem Dev.updLife_slcSwap (i : Nat) (f : Life → Life) : (d.updLife i f).slcSwap = d.slcSwap := rfl
@[simp] theorem Dev.updLife_pgs (i : Nat) (f : Life → Life) : (d.updLife i f).pgs = d.pgs := rfl
@[simp] theorem Dev.updLife_flows (i : Nat) (f : Life → Life) : (d.updLife i f).flows = d.flows := rfl
@[simp] theorem Dev.updLife_pipes (i : Nat) (f : Life → Life) : (d.updLife i f).pipes = d.pipes := rfl
@[simp] theorem Dev.updLife_frag (i : Nat) (f : Life → Life) : (d.updLife i f).frag = d.frag := rfl
@[simp] theorem Dev.updLife_bridge (i : Nat) (f : Life → Life) : (d.updLife i f).bridge = d.bridge := rfl
@[simp] theorem Dev.updLife_deferred (i : Nat) (f : Life → Life) : (d.updLife i f).deferred = d.deferred := rfl
@[simp] theorem Dev.updLife_learnPtr (i : Nat) (f : Life → Life) : (d.updLife i f).learnPtr = d.learnPtr := rfl
@[simp] theorem Dev.updLife_lpm4 (i : Nat) (f : Life → Life) : (d.updLife i f).lpm4 = d.lpm4 := rfl
@[simp] theorem Dev.updLife_lpm6 (i : Nat) (f : Life → Life) : (d.updLife i f).lpm6 = d.lpm6 := rfl
@[simp] theorem Dev.updLife_asc (i : Nat) (f : Life → Life) : (d.updLife i f).asc = d.asc := rfl
@[simp] theorem Dev.updLife_ringPtr (i : Nat) (f : Life → Life) : (d.updLife i f).ringPtr = d.ringPtr := rfl
@[simp] theorem Dev.updLife_locks (i : Nat) (f : Life → Life) : (d.updLife i f).locks = d.locks := rfl
@[simp] theorem Dev.updLife_winCmd (i : Nat) (f : Life → Life) : (d.updLife i f).winCmd = d.winCmd := rfl
@[simp] theorem Dev.updLife_casMi (i : Nat) (f : Life → Life) : (d.updLife i f).casMi = d.casMi := rfl
@[simp] theorem Dev.updLife_bufs (i : Nat) (f : Life → Life) : (d.updLife i f).bufs = d.bufs := rfl
@[simp] theorem Dev.updLife_caches (i : Nat) (f : Life → Life) : (d.updLife i f).caches = d.caches := rfl
@[simp] theorem Dev.updLife_queues (i : Nat) (f : Life → Life) : (d.updLife i f).queues = d.queues := rfl
@[simp] theorem Dev.updLife_uid (i : Nat) (f : Life → Life) : (d.updLife i f).uid = d.uid := rfl
@[simp] theorem Dev.updLife_reps (i : Nat) (f : Life → Life) : (d.updLife i f).reps = d.reps := rfl
@[simp] theorem Dev.updLife_hold (i : Nat) (f : Life → Life) : (d.updLife i f).hold = d.hold := rfl
@[simp] theorem Dev.updLife_heldAt (i : Nat) (f : Life → Life) : (d.updLife i f).heldAt = d.heldAt := rfl
@[simp] theorem Dev.updLife_holdFell (i : Nat) (f : Life → Life) : (d.updLife i f).holdFell = d.holdFell := rfl
@[simp] theorem Dev.updLife_spillPtr (i : Nat) (f : Life → Life) : (d.updLife i f).spillPtr = d.spillPtr := rfl
@[simp] theorem Dev.updLife_holdPtr (i : Nat) (f : Life → Life) : (d.updLife i f).holdPtr = d.holdPtr := rfl
@[simp] theorem Dev.updLife_tierKeys (i : Nat) (f : Life → Life) : (d.updLife i f).tierKeys = d.tierKeys := rfl
@[simp] theorem Dev.updLife_hbm (i : Nat) (f : Life → Life) : (d.updLife i f).hbm = d.hbm := rfl
@[simp] theorem Dev.updLife_cxl (i : Nat) (f : Life → Life) : (d.updLife i f).cxl = d.cxl := rfl
@[simp] theorem Dev.updLife_used (i : Nat) (f : Life → Life) : (d.updLife i f).used = d.used := rfl
@[simp] theorem Dev.updLife_training (i : Nat) (f : Life → Life) : (d.updLife i f).training = d.training := rfl
@[simp] theorem Dev.updLife_trained (i : Nat) (f : Life → Life) : (d.updLife i f).trained = d.trained := rfl
@[simp] theorem Dev.updLife_shadow (i : Nat) (f : Life → Life) : (d.updLife i f).shadow = d.shadow := rfl
@[simp] theorem Dev.updLife_replay (i : Nat) (f : Life → Life) : (d.updLife i f).replay = d.replay := rfl
@[simp] theorem Dev.updLife_bkts (i : Nat) (f : Life → Life) : (d.updLife i f).bkts = d.bkts := rfl
@[simp] theorem Dev.updLife_restAcc (i : Nat) (f : Life → Life) : (d.updLife i f).restAcc = d.restAcc := rfl
@[simp] theorem Dev.updLife_meters (i : Nat) (f : Life → Life) : (d.updLife i f).meters = d.meters := rfl
@[simp] theorem Dev.updLife_wheels (i : Nat) (f : Life → Life) : (d.updLife i f).wheels = d.wheels := rfl
@[simp] theorem Dev.updLife_samplers (i : Nat) (f : Life → Life) : (d.updLife i f).samplers = d.samplers := rfl
@[simp] theorem Dev.updLife_mate (i : Nat) (f : Life → Life) : (d.updLife i f).mate = d.mate := rfl
@[simp] theorem Dev.updLife_domA (i : Nat) (f : Life → Life) : (d.updLife i f).domA = d.domA := rfl
@[simp] theorem Dev.updLife_cyc (i : Nat) (f : Life → Life) : (d.updLife i f).cyc = d.cyc := rfl
@[simp] theorem Dev.updLife_ageHold (i : Nat) (f : Life → Life) : (d.updLife i f).ageHold = d.ageHold := rfl
@[simp] theorem Dev.updLife_replayWait (i : Nat) (f : Life → Life) : (d.updLife i f).replayWait = d.replayWait := rfl
@[simp] theorem Dev.updLife_edgeSet (i : Nat) (f : Life → Life) : (d.updLife i f).edgeSet = d.edgeSet := rfl
@[simp] theorem Dev.updLife_bases (i : Nat) (f : Life → Life) : (d.updLife i f).bases = d.bases := rfl
@[simp] theorem Dev.updLife_selBack (i : Nat) (f : Life → Life) : (d.updLife i f).selBack = d.selBack := rfl
@[simp] theorem Dev.updLife_domB (i : Nat) (f : Life → Life) : (d.updLife i f).domB = d.domB := rfl
@[simp] theorem Dev.updLife_sigma (i : Nat) (f : Life → Life) : (d.updLife i f).sigma = d.sigma := rfl
@[simp] theorem Dev.updLife_edgeTime (i : Nat) (f : Life → Life) : (d.updLife i f).edgeTime = d.edgeTime := rfl
@[simp] theorem Dev.updLife_prevEdge (i : Nat) (f : Life → Life) : (d.updLife i f).prevEdge = d.prevEdge := rfl
@[simp] theorem Dev.updLife_srcEdge (i : Nat) (f : Life → Life) : (d.updLife i f).srcEdge = d.srcEdge := rfl
@[simp] theorem Dev.updLife_edgeOpen (i : Nat) (f : Life → Life) : (d.updLife i f).edgeOpen = d.edgeOpen := rfl
@[simp] theorem Dev.updLife_caps (i : Nat) (f : Life → Life) : (d.updLife i f).caps = d.caps := rfl
@[simp] theorem Dev.updLife_txMsg (i : Nat) (f : Life → Life) : (d.updLife i f).txMsg = d.txMsg := rfl
@[simp] theorem Dev.updLife_outgoing (i : Nat) (f : Life → Life) : (d.updLife i f).outgoing = d.outgoing := rfl
@[simp] theorem Dev.updLife_srcLost (i : Nat) (f : Life → Life) : (d.updLife i f).srcLost = d.srcLost := rfl
@[simp] theorem Dev.updLife_safeOut (i : Nat) (f : Life → Life) : (d.updLife i f).safeOut = d.safeOut := rfl
@[simp] theorem Dev.updLife_muxWait (i : Nat) (f : Life → Life) : (d.updLife i f).muxWait = d.muxWait := rfl
@[simp] theorem Dev.updLife_resumeReq (i : Nat) (f : Life → Life) : (d.updLife i f).resumeReq = d.resumeReq := rfl
@[simp] theorem Dev.updLife_board (i : Nat) (f : Life → Life) : (d.updLife i f).board = d.board := rfl
@[simp] theorem Dev.updLife_flash (i : Nat) (f : Life → Life) : (d.updLife i f).flash = d.flash := rfl
@[simp] theorem Dev.updLife_flashOp (i : Nat) (f : Life → Life) : (d.updLife i f).flashOp = d.flashOp := rfl
@[simp] theorem Dev.updLife_inServ (i : Nat) (f : Life → Life) : (d.updLife i f).inServ = d.inServ := rfl
@[simp] theorem Dev.updLife_savedPend (i : Nat) (f : Life → Life) : (d.updLife i f).savedPend = d.savedPend := rfl
@[simp] theorem Dev.updLife_vecs (i : Nat) (f : Life → Life) : (d.updLife i f).vecs = d.vecs := rfl
@[simp] theorem Dev.updLife_msixEn (i : Nat) (f : Life → Life) : (d.updLife i f).msixEn = d.msixEn := rfl
@[simp] theorem Dev.updLife_funcMask (i : Nat) (f : Life → Life) : (d.updLife i f).funcMask = d.funcMask := rfl
@[simp] theorem Dev.updLife_vfEn (i : Nat) (f : Life → Life) : (d.updLife i f).vfEn = d.vfEn := rfl

end Sys2Proof.Machine
end

