-- ==== Sys2Proof/Laws/Ops.lean ====
section
/-!
SUPPORT. What the shared operations do: status fields, counters, timers, runs and the records of stands, groves and boughs, each read after each update.
-/

namespace Sys2Proof.Machine

variable (d : Dev)

/-! ### Status fields -/

@[simp] theorem Dev.get_set_same (x : Fld) (i v : Nat) : (d.set x i v).get x i = v % 2 ^ x.width := RegFile.fld_setFld_same _ _ _ _ _

theorem Dev.get_set_other {x y : Fld} {i j : Nat} (v : Nat) (h : fieldsApart x i y j) : (d.set x i v).get y j = d.get y j :=
  RegFile.fld_setFld_other _ (fun _ _ _ => rfl) _ h

theorem fieldsApart_of_reg {x y : Fld} {i j : Nat} (h : y.reg ≠ x.reg) : fieldsApart x i y j := Or.inl h

theorem Dev.get_raise_same (x : Fld) (i : Nat) : (d.raise x i).get x i = 1 % 2 ^ x.width := Dev.get_set_same _ _ _ _

theorem StatusKept.refl (xs : List (Fld × Nat)) : StatusKept d d xs := fun _ _ _ => rfl

/-- A write of a listed field keeps what is not listed. -/
theorem StatusKept.set {d d' : Dev} {xs : List (Fld × Nat)} (h : StatusKept d d' xs) {x : Fld} {i : Nat} (v : Nat) (hx : (x, i) ∈ xs) :
    StatusKept d (d'.set x i v) xs := fun y j hy => by
  rw [Dev.get_set_other _ _ (hy _ hx), h y j hy]

/-- What changes no status word changes no status field. -/
theorem StatusKept.of_sts {d d' d'' : Dev} {xs : List (Fld × Nat)} (h : StatusKept d d' xs) (e : d''.sts = d'.sts) : StatusKept d d'' xs :=
  fun y j hy => by rw [← h y j hy]; unfold Dev.get; rw [e]

theorem StatusKept.mono {d d' : Dev} {xs ys : List (Fld × Nat)} (h : StatusKept d d' xs) (hs : ∀ p ∈ xs, p ∈ ys) : StatusKept d d' ys :=
  fun y j hy => h y j (fun p hp => hy p (hs p hp))

/-! ### Counters -/

theorem Dev.counter_count_same (f : Fam) (c : Ctr) (i n : Nat) : (d.count f c i n).counter f c i = (d.counter f c i + n) % 2 ^ 64 :=
  SMap.getD_setD_same _ _ _ _

theorem Dev.counter_count_other {f f' : Fam} {c c' : Ctr} {i i' : Nat} (n : Nat) (h : ctrKey f' c' i' ≠ ctrKey f c i) :
    (d.count f c i n).counter f' c' i' = d.counter f' c' i' := SMap.getD_setD_other _ _ _ _ h

/-- The name of a counter is part of its key. -/
theorem ctrKey_inj {f f' : Fam} {c c' : Ctr} {i i' : Nat} (h : ctrKey f c i = ctrKey f' c' i') : f = f' ∧ c = c' ∧ i % 2 ^ 20 = i' % 2 ^ 20 := by
  unfold ctrKey at h
  have hc : c.ctorIdx < 2 ^ 10 := by have : ∀ c : Ctr, c.ctorIdx < 2 ^ 10 := by intro c; cases c <;> decide
                                     exact this c
  have hc' : c'.ctorIdx < 2 ^ 10 := by have : ∀ c : Ctr, c.ctorIdx < 2 ^ 10 := by intro c; cases c <;> decide
                                       exact this c'
  have hi := Nat.mod_lt i (show 0 < 2 ^ 20 by positivity)
  have hi' := Nat.mod_lt i' (show 0 < 2 ^ 20 by positivity)
  have e1 : f.ctorIdx = f'.ctorIdx := by omega
  have e2 : c.ctorIdx = c'.ctorIdx := by omega
  refine ⟨?_, ?_, by omega⟩
  · have e := congrArg Fam.ofNat e1; simpa [Fam.ofNat_ctorIdx] using e
  · have e := congrArg Ctr.ofNat e2; simpa [Ctr.ofNat_ctorIdx] using e

theorem SMap.get?_setD_other {α : Type} [DecidableEq α] (m : SMap α) {q r : Nat} (v e : α) (h : r ≠ q) : (m.setD q v e).get? r = m.get? r := by
  unfold SMap.setD; split
  · exact SMap.get?_erase_other m h
  · exact SMap.get?_put_other m v h

theorem Dev.count_kept (f : Fam) (c : Ctr) (i n : Nat) : EntriesKept d.cnt (d.count f c i n).cnt [ctrKey f c i] :=
  fun k hk => SMap.get?_setD_other _ _ _ (by simpa using hk)

/-! ### Sparse maps -/

section Maps
variable {α : Type} {m m' m'' : SMap α} {ks : List Nat}

theorem EntriesKept.refl (m : SMap α) (ks : List Nat) : EntriesKept m m ks := fun _ _ => rfl

theorem EntriesKept.trans (h : EntriesKept m m' ks) (h' : EntriesKept m' m'' ks) : EntriesKept m m'' ks := fun k hk => by rw [h' k hk, h k hk]

theorem EntriesKept.mono {ls : List Nat} (h : EntriesKept m m' ks) (hs : ∀ k ∈ ks, k ∈ ls) : EntriesKept m m' ls := fun k hk => h k (fun e => hk (hs k e))

theorem EntriesKept.put (h : EntriesKept m m' ks) {k : Nat} (v : α) (hk : k ∈ ks) : EntriesKept m (m'.put k v) ks := fun q hq => by
  rw [SMap.get?_put_other _ _ ((ne_of_mem_of_not_mem hk hq).symm), h q hq]

theorem EntriesKept.erase (h : EntriesKept m m' ks) {k : Nat} (hk : k ∈ ks) : EntriesKept m (m'.erase k) ks := fun q hq => by
  rw [SMap.get?_erase_other _ ((ne_of_mem_of_not_mem hk hq).symm), h q hq]

theorem EntriesKept.upd (h : EntriesKept m m' ks) {k : Nat} (e : α) (f : α → α) (hk : k ∈ ks) : EntriesKept m (m'.upd k e f) ks := h.put _ hk

theorem EntriesKept.setD [DecidableEq α] (h : EntriesKept m m' ks) {k : Nat} (v e : α) (hk : k ∈ ks) : EntriesKept m (m'.setD k v e) ks := fun q hq => by
  rw [SMap.get?_setD_other _ _ _ ((ne_of_mem_of_not_mem hk hq).symm), h q hq]

end Maps

/-! ### Timers -/

theorem timerKey_inj {k k' : TimerKind} {i i' : Nat} (hi : i < 2 ^ 22) (hi' : i' < 2 ^ 22) (h : timerKey k i = timerKey k' i') : k = k' ∧ i = i' := by
  unfold timerKey at h
  have e1 : k.ctorIdx = k'.ctorIdx := by omega
  refine ⟨?_, by omega⟩
  have e := congrArg TimerKind.ofNat e1; simpa [TimerKind.ofNat_ctorIdx] using e

@[simp] theorem Dev.armed_disarm (k : TimerKind) (i : Nat) : (d.disarm k i).armed k i = false := by simp [Dev.armed, Dev.disarm]

@[simp] theorem Dev.armed_armNow (k : TimerKind) (i : Nat) : (d.armNow k i).armed k i = true := by simp [Dev.armed, Dev.armNow]

@[simp] theorem Dev.armed_armNext (k : TimerKind) (i : Nat) : (d.armNext k i).armed k i = true := by simp [Dev.armed, Dev.armNext]

/-! ### Runs -/

theorem runKey_inj {k k' : RunKind} {i i' : Nat} (hi : i < 2 ^ 22) (hi' : i' < 2 ^ 22) (h : runKey k i = runKey k' i') : k = k' ∧ i = i' := by
  unfold runKey at h
  have e1 : k.ctorIdx = k'.ctorIdx := by omega
  refine ⟨?_, by omega⟩
  have e := congrArg RunKind.ofNat e1; simpa [RunKind.ofNat_ctorIdx] using e

@[simp] theorem Dev.run_setRun_same (k : RunKind) (i n : Nat) : (d.setRun k i n).run k i = n := SMap.getD_setD_same _ _ _ _

/-! ### Records of stands, groves and boughs -/

@[simp] theorem Dev.lifeOf_updLife_same (i : Nat) (f : Life → Life) : (d.updLife i f).lifeOf i = f (d.lifeOf i) := SMap.getD_upd_same _ _ _ _
theorem Dev.lifeOf_updLife_other {i j : Nat} (f : Life → Life) (h : j ≠ i) : (d.updLife i f).lifeOf j = d.lifeOf j := SMap.getD_upd_other _ _ _ _ h
@[simp] theorem Dev.grove_updGrove_same (g : Nat) (f : Grove → Grove) : (d.updGrove g f).grove g = f (d.grove g) := SMap.getD_upd_same _ _ _ _
theorem Dev.grove_updGrove_other {g h : Nat} (f : Grove → Grove) (e : h ≠ g) : (d.updGrove g f).grove h = d.grove h := SMap.getD_upd_other _ _ _ _ e
@[simp] theorem Dev.rngOf_updRng_same (i : Nat) (f : Ranging → Ranging) : (d.updRng i f).rngOf i = f (d.rngOf i) := SMap.getD_upd_same _ _ _ _
theorem Dev.rngOf_updRng_other {i j : Nat} (f : Ranging → Ranging) (h : j ≠ i) : (d.updRng i f).rngOf j = d.rngOf j := SMap.getD_upd_other _ _ _ _ h
@[simp] theorem Dev.keysOf_updKeys_same (i : Nat) (f : StandKeys → StandKeys) : (d.updKeys i f).keysOf i = f (d.keysOf i) := SMap.getD_upd_same _ _ _ _
theorem Dev.keysOf_updKeys_other {i j : Nat} (f : StandKeys → StandKeys) (h : j ≠ i) : (d.updKeys i f).keysOf j = d.keysOf j :=
  SMap.getD_upd_other _ _ _ _ h
@[simp] theorem Dev.bough_updBough_same (b : Nat) (f : Bough → Bough) : (d.updBough b f).bough b = f (d.bough b) := SMap.getD_upd_same _ _ _ _
theorem Dev.bough_updBough_other {b q : Nat} (f : Bough → Bough) (h : q ≠ b) : (d.updBough b f).bough q = d.bough q := SMap.getD_upd_other _ _ _ _ h

/-! ### Idle clocks -/

/-- Time that passes changes the clocks counted, the two domains and the served offset only. -/
theorem Dev.passTime_eq (c : Cfg) (n : Nat) :
    d.passTime c n = { d with cyc := d.cyc + n, domA := (d.passTime c n).domA, domB := (d.passTime c n).domB, sigma := (d.passTime c n).sigma } := rfl

end Sys2Proof.Machine
end

