-- ==== Sys2Proof/WellFormed.lean ====
section
/-!
DEFINITION. Well-formed commands: the ranges of operands that the types of Syntax leave wider than the spec's fields. An index of the spec (a grove, a
stand, a queue, a register's instance) is a Fin of its range already; the checks here are for what a line, a mate, a host buffer or a board shows the block.
-/

namespace Sys2Proof.WellFormed

/-- A number fits in a field of `w` bits. -/
def fits (w n : Nat) : Bool := decide (n < 2 ^ w)

/-- Groves, lanes and clock sources that an edge names exist (R115, R480, R538). -/
def edgeOk (e : EdgeIn) : Bool := e.light.all (fun g => decide (g < 64)) && e.clamp.all (fun l => decide (l < 66)) && e.freq.all (fun p => decide (p.1 < 5))

/-- A received burst: the header is 32 bytes (R95), the equalizer has eight feed-forward taps (R149), an Alloc-ID has 14 bits and a report 24, and an XGEM Port-ID
16 bits (R234, R236). -/
def burstOk (r : RxBurst) : Bool :=
  (match r.header with | some h => h.length == 32 | none => true)
    && (match r.eq with | some e => e.ffe.length == 8 | none => true)
    && r.reports.all (fun p => fits 14 p.1 && fits 24 p.2) && r.sdus.all (fun p => fits 16 p.1)

/-- Decided symbols are PAM4 levels. -/
def rawOk (r : RawBurst) : Bool :=
  r.levels.all (fun v => [3, 1, -1, -3].contains v) && (match r.eq with | some e => e.ffe.length == 8 | none => true)

/-- A burst in either form. -/
def burstInOk (b : BurstIn) : Bool :=
  match b with
  | .heard rx => burstOk rx
  | .line r => rawOk r

/-- A result of the cascade ring: priority, global position and action index (R322, R326). -/
def hitOk (h : RingHit) : Bool := fits 4 h.prio && fits 22 h.pos && fits 14 h.act

/-- The ring's part in a pass. -/
def passOk (p : PassIn) : Bool :=
  match p.ring with
  | some (some h) => hitOk h
  | _ => true

/-- A lookup that arrives over the ring (R326). -/
def ringKeyOk (k : RingKey) : Bool :=
  decide (k.width < 4) && fits 8 k.base && fits 16 k.banks && fits (64 * 2 ^ k.width) k.key
    && (match k.best with | some h => hitOk h | none => true)

/-- A record of a descriptor's buffer (R314). -/
def recOk : TblRec → Bool
  | .bridge key _ _ kind act val => fits 64 key && decide (kind < 4) && fits 14 act && fits 16 val
  | .lpm4 p l a => fits 32 p && fits 8 l && fits 14 a
  | .lpm6 p l a => fits 64 p && fits 8 l && fits 14 a
  | .asc v m s => fits 512 v && fits 512 m && fits 32 s

/-- A record is of its table's layout. -/
def recOfTable (t : Nat) : TblRec → Bool
  | .bridge .. => t == 0
  | .lpm4 .. => t == 1
  | .lpm6 .. => t == 2
  | .asc .. => decide (3 ≤ t)

/-- A descriptor (R314): eight words, its buffer on an 8-byte boundary, and, of a descriptor whose records the device reads, as many as it counts. -/
def descOk (d : Desc) : Bool :=
  let w := d.words.getD 0 0
  d.words.length == 8 && d.words.all (fits 32) && d.words.getD 2 0 % 8 == 0
    && d.recs.all (fun r => recOk r && recOfTable (w / 2 ^ 24 % 16) r)
    && (!([2, 3, 5, 6].contains (w / 2 ^ 28)) || (w / 2 ^ 28 == 3 && w / 2 ^ 24 % 16 == 3) || d.recs.length == w % 2 ^ 16)

/-- An item of a mirror frame (R430). -/
def itemOk : MirrorItem → Bool
  | .stand i st serial flags wake => decide (i < 16384) && decide (st < 6) && fits 64 serial && fits 3 flags && fits 48 wake
  | .delay i eqd _ _ preset => decide (i < 16384) && fits 32 eqd && preset.length == 12
  | .digest b v => decide (b < 65536) && fits 32 v
  | .epoch i e _ => decide (i < 16384) && decide (e < 2)
  | .current i e => decide (i < 16384) && decide (e < 2)
  | .ceiling slot v => decide (slot < 65536) && fits 64 v
  | .shared k e _ => decide (k < 576) && decide (e < 2)
  | .sharedCur k e => decide (k < 576) && decide (e < 2)

/-- A map entry of a mirror frame (R102). -/
def entryOk (e : MirrorEntry) : Bool :=
  fits 9 e.stand && fits 16 e.start && fits 16 e.len && decide (e.cls < 4) && e.runs.all (fun r => decide (r.1 < 16) && fits 16 r.2)

/-- The part of a grove in a mirror frame. -/
def mirrorGroveOk (x : MirrorGrove) : Bool :=
  decide (x.g < 64) && fits 48 x.d && fits 48 x.mark && fits 48 x.ud && fits 48 x.frame && x.map.all entryOk

/-- A mirror frame. -/
def mirrorOk (m : MirrorFrame) : Bool := fits 128 m.tag && fits 48 m.n && decide (m.sealedAt < 187500) && fits 32 m.phase && m.items.all itemOk && m.groves.all mirrorGroveOk

/-- A pairing message (R428). -/
def pairOk : PairMsg → Bool
  | .req => true
  | .identity id lo hi modes => fits 256 id && fits 32 lo && fits 32 hi && modes.all (fun p => decide (p.1 < 64))
  | .publicValue v => fits 256 v
  | .confirm tag _ sfc => fits 128 tag && fits 48 sfc
  | .fail st => fits 8 st

/-- What a board shows at start-up: each of the two CXL ports at most once, with a capacity of the field's width (R549, R555). -/
def strapsOk (s : Straps) : Bool := s.cxl.all (fun x => decide (x.1 < 2) && fits 12 x.2.2) && (s.cxl.map Prod.fst).Nodup

end Sys2Proof.WellFormed

namespace Sys2Proof

open Sys2Proof.WellFormed in
/-- A command's operands are in the ranges of the spec. -/
def Instr.wellFormed (i : Instr) : Bool :=
  match i with
  | .commitEdge e => edgeOk e
  | .burstReceive _ _ rx => burstInOk rx
  | .tickInEdge _ => true
  | .serialNumberOnu _ frame _ serial _ mic => fits 48 frame && fits 64 serial && fits 64 mic
  | .keyReport _ _ wrapped mic => fits 320 wrapped && fits 64 mic
  | .ploamRegistrationRx _ _ mic => fits 64 mic
  | .ploamUnsupported _ ty => fits 8 ty
  | .omciRx _ bytes mic => decide (bytes.length ≤ 2048) && fits 32 mic
  | .packetPass _ inp => passOk inp
  | .recircPass _ inp => passOk inp
  | .cascadeKeyRx k => ringKeyOk k
  | .bufferFree _ _ buf gen _ => fits 26 buf && fits 8 gen
  | .flowPacketRx _ seq _ => fits 32 seq
  | .mirrorFrameRx m => mirrorOk m
  | .pairingMessageRx m => pairOk m
  | .startUp st => strapsOk st
  | .read _ d | .write _ d | .delete _ d | .flush _ d | .insertBefore _ d | .search _ d => descOk d
  | .grantComputationDone _ _ | .mapFreeze | .discoveryAnswer _ | .rangingAttempt _ | .rngFail _ | .standAdmit _ | .keyOffer | .keyAnswer _
  | .keyConfirm _ | .restRequest _ | .dyingGasp _ | .hostMsgRx _ | .restEntry _ | .restWake _ | .discTicksExpiry _ | .rngTicksExpiry _
  | .reacqTicksExpiry _ | .lostTicksExpiry _ | .silenceTicksExpiry _ | .tagSilence _ | .reasmTimeout _ | .pollDue _ | .driftCorrection _
  | .presetLearned _ | .presetRelearn _ | .presetPinned _ | .predPinned _ | .queuePinned _ | .offsetPinned _ | .trimPinned | .rxPinned _ | .rogue _
  | .phaseExcess | .alignSrcLost | .clearing _ | .checkpointWrite _ | .sfcCheckpoint | .rekeyInterval _ | .keyTicksExpiry _ | .epochRetire _
  | .groupKeySwitch _ | .deregisterKeyErase _ | .compatKeySwitch _ | .uplinkFrameRx _ _ _ | .cascadeTimeout _ | .learnEngine | .stashReturn _
  | .bridgeAged _ | .fragAged _ | .lockExpired _ | .bankDrain | .spillMove _ | .returnMove _ | .holdWrite _ | .sectorFlush _ | .holdReturn _ _
  | .shadowMove _ | .shadowRelease _ | .replayMove _ | .cacheRefill _ _ _ | .uplinkPacketTx _ | .djSlip _ | .sliceDefectChange _ | .pgFarRequest _
  | .wtrExpiry _ | .hbInEdge | .plaxonSilent | .pinSilent | .takeover | .takeoverWithdraw | .offsetLearn | .syncDone | .pairTimeout | .dsdPropose
  | .dsdSwap | .dsdRevert | .timeMarkSend _ | .domainLost _ | .sampleRecord _ | .sourceLost _ | .sourceReady _ | .stoppedSourceEscape | .linkUp _
  | .linkDown _ | .linkRetry _ | .groupMemberJoin _ | .plaxonStateChange _ _ | .elasticErr _ | .holdTierDown _ | .holdTierUp _ | .deepUe _ _
  | .deepWithdrawn | .hbmTrainDone _ | .engEccFatal _ | .rngHealthFail | .nearUe _ _ | .groveEnterService _ | .groveLeaveService _ _
  | .parkQuadrant _ | .unparkQuadrant _ | .enterQuiet | .enterStandby | .wake | .porstNAssert | .perstN | .functionLevelReset _ | .msixMessage _ _
  | .registerWrite _ _ _ _ _ | .latchedRead _ _ _ | .alignReq _ _ | .stageHold _ | .stageRelease _ | .loopDelayWrite _ _ _ | .precoderEnable _ _ _
  | .rssiArm _ _ _ | .capArm _ _ _ | .clearNow _ _ _ | .reRange _ _ _ | .forget _ _ _ | .relearn _ _ _ | .admitCmd _ _ | .silence _ _ | .unsilence _ _
  | .deregister _ _ | .hostMsgTx _ _ _ | .msgTxDonePop _ _ | .msgRxPop _ _ | .stdMcastChange _ | .boughBind _ _ _ | .forceOvr _ _ | .modeSwitch _ _ _
  | .omciTx _ _ _ | .omciRxPop _ _ | .sliceEnable _ _ _ | .sliceConnect _ _ | .sliceDisconnect _ _ | .swapReq _ | .lockout _ _ | .force _ _
  | .manual _ _ | .clear _ _ | .rsCopy _ | .rsSwap _ _ | .rsCopyDone | .ringTailWrite _ _ _ | .lockAcquire _ _ | .lockRelease _ _ | .forceRelease _ _
  | .deferredDrain | .winWrite _ _ | .winRead _ _ | .winInsertBefore _ _ | .bankWidthSet _ _ _ | .casCtrlWrite _ _ | .poolPartition _ _ _ _
  | .retrain _ | .replayMibWrite _ _ | .rekey _ _ | .unwrap _ _ | .erase _ _ | .seal _ _ | .openCmd _ _ | .hmac _ _ | .pub _ _ | .groupRekey _ _
  | .pairReq _ | .unpair _ | .dsdNow _ | .dsdAnswer | .timeSet _ _ | .timeAdj _ _ | .freqWrite _ _ _ | .timeTxInject _ _ | .capPop _
  | .clockSelect _ _ _ | .resume _ | .restart _ | .reqStateWrite _ _ | .parkMaskWrite _ _ | .flashRead _ _ | .flashProgram _ _ | .flashErase _
  | .cfgCheck _ _ | .portEnable _ _ _ | .txEqWrite _ _ _ | .loopbackTestWrite _ _ _ | .txEnWrite _ _ _ | .plaxonEnable _ _ _ | .intClaim _ _ _
  | .intComplete _ _ _ _ | .intSrcWrite _ _ _ | .accWrite _ _ _ | .cntWinSel _ _ | .smpPop _ _ | .ponTxLaneReady _ | .flashOperationDone _
  | .keyCommandDone | .ascWinCommandDone | .casMiStateChange _ => true

end Sys2Proof
end

