-- ==== Sys2Proof/Tests/Slice0.lean ====
section
/-!
SUPPORT. Tests of the model's author: ill-formed commands that the check refuses, states that meet the hypotheses of the statements (theorems named witness_…, after the
statement), and single steps whose results the spec gives.
-/

namespace Sys2Proof.Tests

open Sys2Proof Sys2Proof.Machine
set_option Elab.async false

/-! ### States -/

/-- A running device in tick 1,000, core clock 2,000. -/
def live : Dev := ({ Dev.reset with phase := .run, sfc := 1000, clock := 2000 } : Dev).raise Fields.TICK_STATUS_running 0

/-- A device with status fields set. -/
def devWith (xs : List (Fld × Nat × Nat)) (d : Dev := live) : Dev := xs.foldl (fun d p => d.set p.1 p.2.1 p.2.2) d

/-- A configuration with fields set. -/
def cfgWith (xs : List (Fld × Nat × Nat)) : Cfg := xs.foldl (fun c p => c.set p.1 p.2.1 p.2.2) Cfg.reset

/-- A state with nothing waiting. -/
def stateOf (c : Cfg) (d : Dev) : State := { pending := [], cfg := c, dev := d }

/-- A timer that has run out. -/
def runOut (k : TimerKind) (i : Nat) (d : Dev) : Dev :=
  { d with timers := d.timers.put (timerKey k i) { c := 2 ^ 40, run := true, arming := false, arr := false } }

/-- The device part of the state that a command leads to. -/
def after (c : Instr) (s : State) : Dev :=
  match exec c s with
  | .next t => t.dev
  | _ => s.dev

/-- The configuration that a command leads to. -/
def cfgAfter (c : Instr) (s : State) : Cfg :=
  match exec c s with
  | .next t => t.cfg
  | _ => s.cfg

/-! ### The machine -/

theorem witness_StepRunsFront :
    ∃ s : State, ∃ c q, s.pending = c :: q := ⟨{ stateOf Cfg.reset live with pending := [.capPop 0] }, .capPop 0, [], rfl⟩

theorem witness_IdleTick :
    (live.running = true ∧ live.clock + 1 < 187500) ∧ ¬ (Dev.reset.running = true ∧ Dev.reset.clock + 1 < 187500) := by decide +kernel

theorem witness_PinnedAt64 :
    let d := live.setRun .preset 7 64
    (d.isStandby = false ∧ 64 ≤ d.run .preset 7 ∧ d.flag Fields.GRV_RNG_FLAGS_pinned 7 = false) ∧ live.run .preset 7 < 64 ∧
      (devWith [(Fields.MATE_STATUS_pair_state, 0, 2), (Fields.MATE_STATUS_role, 0, 2)]).isStandby = true := by decide +kernel

theorem witness_PinnedAt64_pins : Pins (.presetPinned 7) .preset 7 Fields.GRV_RNG_FLAGS_pinned 7
    [(.stand, .presetPinned, 7), (.grove, .presetPinned, groveOf 7)] := Pins.preset 7

/-! ### Links, clocks and power -/

theorem witness_SerialLanes_links :
    let c := cfgWith [(Fields.LANE_UP_CFG_en, 5, 1)]
    let d := (runOut .linkRetry 5 live).setRun .linkHold 5 9
    let u := d.raise Fields.LANE_UP_STATUS_link_up 5
    (d.phase = .run ∧ portOn c d 5 = true ∧ laneSafe d 5 = false ∧ linkUp d 5 = false) ∧ d.expired .linkRetry 5 4000 = true ∧
      (linkUp u 5 = true ∧ portOn c u 5 = true ∧ 9 ≤ u.run .linkHold 5) ∧ c.get Fields.CLK_CORE_SEL_rec_lane 0 ≠ 5 ∧
      (let r := cfgWith [(Fields.LANE_UP_CFG_en, 5, 1), (Fields.CLK_CORE_SEL_rec_lane, 0, 5)];
        r.get Fields.CLK_CORE_SEL_rec_lane 0 = 5 ∧ (u.raise Fields.LANE_UP_STATUS_fec_lock 5).flag Fields.LANE_UP_STATUS_fec_lock 5 = true ∧ u.phase ≠ .held ∧
          u.srcLost.contains 3 = false) := by decide +kernel

/-- No pass of a running device's pipelines waits. -/
theorem witness_noWaits : noWaits live := fun _ => rfl

/-- A grove of a running device holds no replicas. -/
theorem witness_noReplicas (g : Nat) : noReplicas live g := fun _ _ => rfl

theorem witness_SerialLanes_plaxon :
    let c := cfgWith [(Fields.LANE_PLX_CTRL_en, 1, 1)]
    let u := live.raise Fields.LANE_PLX_STATUS_up 1
    (live.phase = .run ∧ c.flag Fields.LANE_PLX_CTRL_en 1 = true ∧ plxSafe live 1 = false ∧ plxUp live 1 = false ∧
      live.get Fields.LANE_PLX_STATUS_state 1 < 4) ∧ plxUp u 1 = true ∧ groveParked live 9 = false := by decide +kernel

theorem witness_CheckpointAndDomains_phase :
    let c := cfgWith [(Fields.TICK_CTRL_phase_src, 0, 1)]
    let d := (runOut .alignSrc 0 ({ live with sfc := 131072 } : Dev)).setRun .phase 0 64
    (d.raise Fields.TICK_STATUS_aligned 0).flag Fields.TICK_STATUS_aligned 0 = true ∧ phaseSrc c ≠ 0 ∧ d.run .phase 0 = 64 ∧
      d.expired .alignSrc 0 3 = true ∧ d.running = true ∧ d.sfc % 65536 = 0 := by decide +kernel

theorem witness_CheckpointAndDomains_domains :
    let c := cfgWith [(Fields.TIME_X_SRC_src_en, 0, 1), (Fields.TIME_MARK_CTRL_mark_en, 0, 1), (Fields.TIME_MARK_CTRL_mark_ticks, 0, 64)]
    let d := (runOut .syncA 0 ({ live with sfc := 130, clock := 0 } : Dev)).setDom 0 { set := true, t := 0, left := 0 }
    let d := ((d.set (lostFlag 0) 0 0).updGrove 2 (fun x => { x with inService := true })).updShared (bcastKey 2) (fun k => { k with valid := true })
    let d : Dev := { d with edgeSet := true }
    ((d.dom 0).set = true ∧ syncExpired c 0 d = true ∧ d.flag (lostFlag 0) 0 = false) ∧
      (compat c 2 = false ∧ markDue c 2 d.sfc = true ∧ (d.grove 2).inService = true ∧ d.isStandby = false ∧ d.edgeSet = true ∧ d.clock = 0 ∧
        (d.sharedOf (bcastKey 2)).valid = true ∧ (d.grove 2).msgQ.length < 512 ∧ (d.grove 2).marked ≠ some d.sfc) ∧ live.edgeSet = false := by decide +kernel

theorem witness_ClockSources :
    let w := { live with muxWait := [0] }
    (live.phase ≠ .held ∧ live.srcLost.contains 3 = false ∧ ∀ n ∈ selectors, selectedSrc Cfg.reset n ≠ 3) ∧
      (∃ n ∈ selectors, selectedSrc Cfg.reset n = 0 ∧ live.muxWait.contains n = false) ∧
      (w.muxWait ≠ [] ∧ ∀ n ∈ w.muxWait, w.srcLost.contains (selectedSrc Cfg.reset n) = false) ∧ live.run .srcWin 3 < 4 ∧
      4 ≤ (live.setRun .srcWin 3 4).run .srcWin 3 := by decide +kernel

/-- R484: four windows within the tolerance make a source ready, and a source out of tolerance never is. -/
theorem test_source_windows :
    let d := live.setRun .srcWin 3 4
    srcReady (after (.sourceReady 3) (stateOf Cfg.reset d)) 3 = true ∧ srcReady (after (.sourceReady 3) (stateOf Cfg.reset live)) 3 = false := by decide +kernel

theorem witness_QuietAndPark :
    let c := cfgWith [(Fields.CLK_PWR_park_mask, 0, 4)]
    let p := devWith [(Fields.CLK_PWR_STAT_parked, 0, 4)]
    (live.running = true ∧ live.isPaired = false ∧ c.get Fields.CLK_PWR_req_state 0 < 2) ∧
      ((c.get Fields.CLK_PWR_park_mask 0).testBit 2 = true ∧ quadParked live 2 = false ∧ standbyAsked c live = false) ∧
      standbyAsked (cfgWith [(Fields.CLK_PWR_req_state, 0, 2)]) live = true ∧
      ((Cfg.reset.get Fields.CLK_PWR_park_mask 0).testBit 2 = false ∧ quadParked p 2 = true ∧ p.running = true) := by decide +kernel

theorem witness_PorstKeepsTheKeepStore : ({ live with flashOp := none } : Dev).flashOp = none := rfl

theorem witness_StartAndResets :
    let c := cfgWith [(Fields.CLK_PWR_req_state, 0, 2)]
    let b : Dev := { live with phase := .standby }
    (live.running = true ∧ live.isPaired = false ∧ c.get Fields.CLK_PWR_req_state 0 = 2) ∧ (b.phase = .standby ∧ Cfg.reset.final.get Fields.CLK_PWR_req_state 0 = 0) ∧
      Dev.reset.phase = .held ∧ ({ live with vfEn := true } : Dev).vfEn = true := by decide +kernel

/-! ### Stands and keys -/

/-- A stand in a state, with a change of its lifecycle record. -/
def standIn (i : Nat) (x : StandSt) (d : Dev := live) (f : Life → Life := id) : Dev := d.updLife i (fun l => f { l with st := x })

/-- A line message of a stand that waits to be judged in its grove. -/
def judging (i ty : Nat) (body : List Byte) (d : Dev) : Dev :=
  d.updGrove (groveOf i) (fun x => { x with judge := [{ stand := i, ty := ty, body := body, raw := List.replicate 64 0 }] })

theorem witness_StandsLoseAndRange_absent :
    TakesAbsent (stateOf Cfg.reset (runOut .disc 300 (standIn 300 .discovered))) 300 (.discTicksExpiry 300) ∧
      TakesAbsent (stateOf Cfg.reset (runOut .rng 300 (standIn 300 .ranging))) 300 (.rngTicksExpiry 300) ∧
      TakesAbsent (stateOf Cfg.reset (runOut .reacq 300 (standIn 300 .ranging))) 300 (.reacqTicksExpiry 300) ∧
      TakesAbsent (stateOf Cfg.reset ((standIn 300 .ranging).updRng 300 (fun r => { r with attempts := 200 }))) 300 (.rngFail 300) ∧
      canMove (standIn 300 .ranging) 300 = true ∧ (standIn 300 .ranging).settled 300 :=
  ⟨.disc (by decide +kernel) (by decide +kernel), .rng (by decide +kernel) (by decide +kernel), .reacq (by decide +kernel) (by decide +kernel),
    .fail (by decide +kernel) (by decide +kernel), by decide +kernel, by decide +kernel, by decide +kernel⟩

theorem witness_StandsLoseAndRange_judged :
    let d := (((runOut .rng 300 (runOut .reacq 300 (standIn 300 .ranging))).updRng 300 (fun r => { r with res := some (some 1) }))).updKeys 300
      (fun k => { k with ready := true })
    d.expired .rng 300 (Cfg.reset.get Fields.GRV_RNG_RNG_T_rng_ticks (groveOf 300)) = true ∧
      d.expired .reacq 300 (Cfg.reset.get Fields.GRV_RNG_REACQ_T_reacq_ticks (groveOf 300)) = true ∧ d.st 300 = .ranging ∧
      (d.rngOf 300).res = some (some 1) ∧ (1 : Int).natAbs ≤ 1 ∧ compat Cfg.reset (groveOf 300) = false ∧ keysInPlace Cfg.reset d 300 = true ∧
      silenceDue Cfg.reset d 300 = false ∧ (∀ m ∈ (d.grove (groveOf 300)).judge, m.stand ≠ 300) ∧ canMove d 300 = true := by decide +kernel

theorem witness_StandsLoseAndRange_gasp :
    let d := judging 300 0x11 [] (standIn 300 .active)
    canMove d 300 = true ∧ (∃ m ∈ (d.grove 1).judge, m.ty = 0x11 ∧ m.stand = 300) ∧ d.st 300 ≠ .absent ∧ d.st 300 ≠ .silenced := by decide +kernel

theorem witness_StandsLoseAndRange_ranges :
    let a := standIn 300 .discovered live (fun l => { l with discEdge := 999 })
    let b := runOut .lost 300 (standIn 300 .active)
    let e := runOut .silence 300 (standIn 300 .silenced)
    (a.st 300 = .discovered ∧ (a.lifeOf 300).discEdge + 1 = a.sfc ∧ Cfg.reset.get Fields.GRV_STD_CTRL_adm_policy (groveOf 300) = 0 ∧
      mayMove Cfg.reset a 300 = true) ∧
      (b.st 300 = .active ∧ mayMove Cfg.reset b 300 = true ∧ b.expired .lost 300 (Cfg.reset.get Fields.GRV_STD_CTRL_lost_ticks (groveOf 300)) = true) ∧
      (e.st 300 = .silenced ∧ canMove e 300 = true ∧
        e.expired .silence 300 (Cfg.reset.get Fields.GRV_STD_SILENCE_T_silence_ticks (groveOf 300)) = true) := by decide +kernel

theorem witness_StandsRestAndAppear_rest :
    let c := cfgWith [(Fields.GRV_STD_SILENCE_T_silence_ticks, 1, 800)]
    let a := (standIn 300 .active).updKeys 300 (fun k => { k with fails := List.replicate 16 999 })
    let b := standIn 300 .active live (fun l => { l with rest := [{ entry := 1000, wake := 1080 }] })
    let e := standIn 300 .resting live (fun l => { l with wake := 1000 })
    (silenceDue c a 300 = true ∧ canMove a 300 = true ∧ absentDue c a 300 = false ∧ ((a.rngOf 300).res = none ∧ ∀ m ∈ (a.grove (groveOf 300)).judge, m.stand ≠ 300) ∧
      c.get Fields.GRV_STD_SILENCE_T_silence_ticks (groveOf 300) ≠ 0) ∧
      ((b.lifeOf 300).rest.find? (fun x => decide (x.entry ≤ b.sfc)) = some { entry := 1000, wake := 1080 } ∧ b.st 300 = .active ∧
        mayMove Cfg.reset b 300 = true) ∧ ((b.updLife 300 (fun l => { l with st := .ranging })).st 300 ≠ .active) ∧
      (e.st 300 = .resting ∧ (e.lifeOf 300).wake ≤ e.sfc ∧ mayMove Cfg.reset e 300 = true) := by decide +kernel

/-- The clearing of the worked example of chapter 5, and its answer. -/
def exampleClearing : Clearing := { frame := 13250, len := 2, s0 := 0, eqdDisc := 73216000, diffKm := 20, answers := 0, compat := false, tloop := 6, resume := none }

/-- The answer of the example. -/
def exampleAnswer : Answer := { frame := 13251, pos := 15878656, serial := 77, r := 5000, precoder := false }

/-- Grove 42 as the example has it, at edge 13,258. -/
def exampleDev : Dev :=
  ({ live with sfc := 13258, clock := 0 } : Dev).updGrove 42 (fun x => { x with inService := true, loopDelay := 6, clearings := [exampleClearing], answers := [exampleAnswer] })

theorem witness_StandsRestAndAppear_answer :
    let a := exampleAnswer
    clearingAt exampleDev 42 a.frame = some exampleClearing ∧
      (exampleDev.standsOf 42).all (fun j => exampleDev.st j == .absent || !((exampleDev.lifeOf j).serial == a.serial)) = true ∧
      (exampleDev.grove 42).takenSer.contains a.serial = false ∧
      eqdIn Cfg.reset 42 6 ((73216000 : Int) - ((a.pos : Int) - ((0 + answerLead Cfg.reset 42 + a.r : Nat) : Int) * 256)) = true ∧
      choosePosition Cfg.reset exampleDev 42 a.serial = some (42 * 256) ∧ canMove exampleDev (42 * 256) = true ∧ (exampleDev.grove 42).answers = [a] := by decide +kernel

/-- The worked example of chapter 5: the answer 30.065 µs after the edge gives the provisional equalization delay 58,634,240. -/
theorem test_discovery_answer :
    let d := after (.discoveryAnswer 42) (stateOf Cfg.reset exampleDev)
    (d.rngOf (42 * 256)).eqd = 58634240 ∧ d.st (42 * 256) = .discovered := by decide +kernel

theorem witness_StandsRestAndAppear_compat :
    compat (cfgWith [(Fields.GRV_MODE_compat, 42, 1)]) 42 = true ∧ exampleAnswer.precoder = false := by decide +kernel

theorem witness_RangingRecords_phases :
    let a := (standIn 300 .ranging).updRng 300 (fun r => { r with res := some (some 5), eqd := 1000000 })
    let a := a.updGrove 1 (fun x => { x with loopDelay := 6 })
    let b := ((standIn 300 .ranging).updRng 300 (fun r => { r with res := some (some 1) })).updKeys 300 (fun k => { k with ready := true })
    let e := ((standIn 300 .active).updRng 300 (fun r => { r with driftRun := 200, driftM := 3, eqd := 1000000 })).updGrove 1 (fun x => { x with loopDelay := 6 })
    (a.st 300 = .ranging ∧ (a.rngOf 300).res = some (some 5) ∧ 1 < (5 : Int).natAbs ∧ (a.rngOf 300).ranged = false ∧
      eqdOk Cfg.reset a (groveOf 300) (((a.rngOf 300).eqd : Int) - 5) = true ∧ leavesRanging Cfg.reset a 300 = false ∧ rangingOver Cfg.reset a 300 = false ∧
      (a.rngOf 300).attempts + 1 < Cfg.reset.get Fields.GRV_RNG_CTRL_rng_attempts (groveOf 300)) ∧
      (let z := a.updRng 300 (fun r => { r with attempts := 200 });
        leavesRanging Cfg.reset z 300 = false ∧ rangingOver Cfg.reset (runOut .rng 300 a) 300 = true ∧ leavesRanging Cfg.reset (runOut .rng 300 a) 300 = false ∧ Cfg.reset.get Fields.GRV_RNG_CTRL_rng_attempts (groveOf 300) ≤ (z.rngOf 300).attempts + 1) ∧
      (b.st 300 = .ranging ∧ (b.rngOf 300).res = some (some 1) ∧ (1 : Int).natAbs ≤ 1 ∧ compat Cfg.reset (groveOf 300) = false ∧
        keysInPlace Cfg.reset b 300 = true ∧ mayMove Cfg.reset b 300 = true) ∧
      (e.st 300 = .active ∧ (e.rngOf 300).res = none ∧ leavesRanging Cfg.reset e 300 = false ∧ Cfg.reset.get Fields.GRV_RNG_CTRL_drift_confirm (groveOf 300) ≤ (e.rngOf 300).driftRun ∧
        eqdOk Cfg.reset e (groveOf 300) (((e.rngOf 300).eqd : Int) - (e.rngOf 300).driftM) = true) := by decide +kernel

/-- A keep-store record. -/
def someRec : KeepRec :=
  { serial := 77, eqd := 5, tloop := 6, preset := { ffe := [], dfe := 0, ctle := 0, samp := 0, vga := 0 }, learned := false, precoder := false
    current := none, epochA := false, epochB := false, sfc := 0, compat := false, rate := 0, crcOk := true }

theorem witness_RangingRecords_presets :
    let a := live.updRng 300 (fun r => { r with learnCount := 5000 })
    let b := live.updRng 300 (fun r => { r with learned := true, missRun := 5000 })
    let e := standIn 300 .active ({ live with sfc := 8300, keep := [(300, someRec)] } : Dev)
    (a.isStandby = false ∧ (a.rngOf 300).learned = false ∧ Cfg.reset.get Fields.GRV_RNG_CTRL_learn_bursts (groveOf 300) ≤ (a.rngOf 300).learnCount) ∧
      (b.isStandby = false ∧ (b.rngOf 300).learned = true ∧ Cfg.reset.get Fields.GRV_RNG_CTRL_relearn_misses (groveOf 300) ≤ (b.rngOf 300).missRun) ∧
      (e.keep.get? 300 = some someRec ∧ e.sfc % 8000 = 300 % 8000 ∧ e.st 300 ≠ .absent ∧ someRec.eqd ≠ (e.rngOf 300).eqd) ∧
      (let z : Dev := { e with keep := [] }; z.keep.get? 300 = none ∧ z.sfc % 8000 = 300 % 8000 ∧ z.st 300 = .active) := by decide +kernel

theorem witness_StandMessages :
    let a := judging 300 0x0B [0, 0, 0, 80] (standIn 300 .active)
    let b := judging 300 0x12 [] (standIn 300 .active)
    ((∃ m ∈ (a.grove 1).judge, m.ty = 0x0B ∧ a.st m.stand = .active) ∧
      (∃ m ∈ (b.grove 1).judge, m.ty = 0x12) ∧ (b.grove 1).rxFifo.length < 64) := by decide +kernel

theorem witness_Agreements_begin :
    let a := { standIn 300 .active with keng := { live.keng with queue := [300] } }
    let b := (standIn 300 .active).updKeys 300 (fun k => { k with lastDone := some 0 })
    let c := cfgWith [(Fields.KEY_REKEY_INT_rekey_int, 0, 500)]
    let e := runOut .key 300 (live.updKeys 300 (fun k => { k with agree := .offered }))
    (a.rngGood = true ∧ nextServed a = some 300) ∧
      ((b.keysOf 300).lastDone = some 0 ∧ b.st 300 = .active ∧ 0 < b.sfc ∧ c.get Fields.KEY_REKEY_INT_rekey_int 0 ≠ 0 ∧
        (b.sfc - 0) % c.get Fields.KEY_REKEY_INT_rekey_int 0 = 0 ∧ (b.keysOf 300).queued = false ∧ (b.keysOf 300).agree = .idle ∧
        (b.keysOf 300).retiring = none) ∧
      ((e.keysOf 300).agree = .offered ∧ e.expired .key 300 (Cfg.reset.get Fields.KEY_TIMERS_key_ticks 0) = true ∧
        e.st 300 ≠ .resting ∧ e.isStandby = false ∧ ∀ m ∈ (e.grove (groveOf 300)).judge, m.stand ≠ 300) ∧
      (compat c (groveOf 300) = false ∧ compat (cfgWith [(Fields.GRV_MODE_compat, 1, 1)]) (groveOf 300) = true ∧ b.isStandby = false) := by decide +kernel

theorem witness_Agreements_complete :
    let a := (judging 300 0x07 (0 :: List.replicate 32 9) (standIn 300 .active)).updKeys 300 (fun k => { k with agree := .offered, target := 0 })
    let b := (judging 300 0x08 [0] (standIn 300 .active)).updKeys 300 (fun k => { k with agree := .answered, target := 0, ready := true })
    (∃ m ∈ (a.grove 1).judge, m.ty = 0x07 ∧ mayAgree a m.stand = true ∧ (a.keysOf m.stand).agree = .offered ∧
        ofBytesBE (m.body.take 1) = (a.keysOf m.stand).target) ∧
      (∃ m ∈ (b.grove 1).judge, m.ty = 0x08 ∧ b.st m.stand = .active ∧ (b.keysOf m.stand).agree = .answered ∧
        ofBytesBE (m.body.take 1) = (b.keysOf m.stand).target ∧ (b.keysOf m.stand).ready = true) := by decide +kernel

theorem witness_KeySwitches_native :
    let a := runOut .retire 300 (live.updKeys 300 (fun k => { k with retiring := some 1 }))
    let b := standIn 300 .absent live (fun l => { l with deregMsg := true })
    let e := live.updShared 513 (fun k => { k with pending := true, switchAt := some 1000 })
    ((a.keysOf 300).retiring = some 1 ∧ a.expired .retire 300 (Cfg.reset.get Fields.KEY_TIMERS_retire_ticks 0) = true) ∧
      (b.st 300 = .absent ∧ (b.lifeOf 300).deregMsg = true ∧
        ((b.grove (groveOf 300)).msgQ ++ (b.grove (groveOf 300)).waiting).all (fun m => !(m.ty == 0x10 && m.stand == inGrove 300)) = true ∧
        (b.grove (groveOf 300)).ploamQ.all (fun p => !(p.kind == .deactivate && p.onu == inGrove 300)) = true) ∧
      ((e.sharedOf 513).pending = true ∧ (e.sharedOf 513).switchAt = some 1000 ∧ 1000 ≤ e.sfc) := by decide +kernel

theorem witness_KeySwitches_compat :
    let c := cfgWith [(Fields.GRV_MODE_compat, 1, 1)]
    let d := (standIn 300 .active).updKeys 300 (fun k => { k with nextKey := some (2, 990) })
    compat c 1 = true ∧ d.st 300 = .active ∧ (d.grove (groveOf 300)).omciRx.length < 16 ∧ (d.keysOf 300).nextKey = some (2, 990) ∧ 990 ≤ d.sfc ∧
      (d.keysOf 300).dataKey = none ∧ silenceDue c d 300 = false ∧ gaspDue d 300 = false ∧
      d.expired .lost 300 (c.get Fields.GRV_STD_CTRL_lost_ticks (groveOf 300)) = false ∧
      groveLeaves c d (groveOf 300) = false ∧ (d.updLife 300 (fun l => { l with st := .resting })).st 300 ≠ .active ∧
      (let y := d.updGrove 1 (fun x => { x with inService := true });
        groveLeaves (cfgWith [(Fields.GRV_MODE_compat, 1, 1), (Fields.LANE_PON_CTRL_tx_en, 1, 0)]) y (groveOf 300) = true) := by decide +kernel

theorem witness_KeyCommandEnds :
    ∃ kc : KeyCmd, ({ live with keyCmd := some kc } : Dev).keyCmd = some kc ∧ kc.op = 3 :=
  ⟨{ op := 3, target := 5, len := 0, aad := 0, master := 0 }, rfl, rfl⟩

/-! ### Buffers, slices, clearings -/

/-- A packet of some bytes, admitted in tick 999, in buffer 0 of pool 0 under generation 1. -/
def packet (uid n : Nat) : QPkt :=
  { uid := uid, bytes := List.replicate n 0, pool := 0, buf := 0, gen := 1, tick := 999, clock := 0, reps := 0, moved := false, sec0 := 0, sec1 := 0, off := 0
    stay := false, stamp := none, flow := none }

/-- Bough 7 bound to stand 300, with a placement profile that spills at once. -/
def boundCfg : Cfg :=
  cfgWith [(Fields.BGH_BIND_bound, 7, 1), (Fields.BGH_BIND_stand, 7, 300), (Fields.BUF_Q_CFG_tier_max, 56, 1), (Fields.BUF_PRF_SPILL_spill_on, 0, 0),
    (Fields.BUF_PRF_KEEP_keep, 0, 0), (Fields.BUF_PRF_DEEP_deep_max, 0, 1), (Fields.BUF_Q_CFG_profile, 56, 0), (Fields.BUF_Q_CFG_shadow_en, 56, 1),
    (Fields.BUF_HOLD_CTRL_replay_mib, 0, 256)]

theorem witness_BufferPools :
    let d : Dev := { live with bufs := [(bufKey 0 1 9, { alloc := true, gen := 3 })] }
    ((d.buf 0 1 9).alloc = true ∧ (d.buf 0 1 9).gen = 3) ∧ ¬ ((d.buf 0 1 8).alloc = true ∧ (d.buf 0 1 8).gen = 3) ∧
      (d.cache 0 1 32).length < cacheCap Cfg.reset 0 1 / 2 ∧ (d.cache 1 1 32).length < cacheCap Cfg.reset 1 1 / 2 := by decide +kernel

theorem witness_TierMoves_spill :
    let d := (devWith [(Fields.BUF_DEEP_STATUS_state, 0, 1)]).setQueue 56 { Queue.init with head := [packet 1 60, packet 2 60] }
    (spillNow boundCfg d 56).isSome = true ∧ spillTurn boundCfg d = some 56 ∧
      (takeFrom boundCfg 1 (poolFor 60) srcPlacement { d with spillPtr := 57 }).isSome = true ∧
      (let e := boundCfg.set Fields.BUF_POOL_DEEP_deep_256m (poolFor 60) 0; (spillNow e d 56).isSome = true ∧ spillTurn e d = some 56 ∧
        takeFrom e 1 (poolFor 60) srcPlacement { d with spillPtr := 57 } = none) := by decide +kernel

theorem witness_TierMoves_back :
    let c := cfgWith [(Fields.BUF_PRF_KEEP_keep, 0, 4)]
    let d := (devWith [(Fields.BUF_DEEP_STATUS_state, 0, 1)]).setQueue 56 { Queue.init with deep := [packet 1 60] }
    (d.queue 56).deep = [packet 1 60] ∧ d.deepState = 1 ∧ bytesOf (d.queue 56).head < keepOf c 56 ∧ (returnBuf c d (packet 1 60)).isSome = true := by decide +kernel

theorem witness_TierMoves_errors :
    let d := live.setQueue 56 { Queue.init with head := [packet 1 60], deep := [packet 2 60] }
    ((d.queue 56).head ++ (d.queue 56).tail).any (fun p => p.uid == 1) = true ∧ (d.queue 56).deep.any (fun p => p.uid == 2) = true ∧
      0 < (({ live with shadow := [(1, [{ queue := 56, bytes := [], tick := 999, addr := 0 }])] } : Dev).shadow.getD 1 []).length := by decide +kernel

theorem witness_HoldAndShadow_hold :
    let a := (standIn 300 .resting (devWith [(Fields.BUF_HOLD_STATUS_hold_down, 0, 0)])).setQueue 56 { Queue.init with held := [packet 1 60] }
    let b : Dev := { live with hold := [(300, { next := 0, fill := 100, oldest := 900, part := [] })] }
    let e := (standIn 300 .active).setQueue 56 { Queue.init with held := [packet 1 60] }
    (standOfQueue boundCfg 56 = some 300 ∧ (a.queue 56).waits = some (packet 1 60) ∧ a.holdUp = true ∧ holdTurn boundCfg a = some 300 ∧
      a.usedOf usedHoldWrite + 60 ≤ holdBudget ∧
      (takeSectors boundCfg 300 ((packHeld (a.holdOf 300) a.sfc (packet 1 60)).1.sec1 + 1 - (a.holdOf 300).next) (a.holdOf 300).next
        { a with holdPtr := 300 }).isSome = false ∧
      (takeSectors boundCfg 300 ((packHeld (a.holdOf 300) a.sfc (packet 1 60)).1.sec1 + 1 - (a.holdOf 300).next) (a.holdOf 300).next
        { (a.set Fields.BUF_HOLD_STATUS_cap_gib 0 256) with holdPtr := 300 }).isSome = true) ∧
      ((b.holdOf 300).fill ≠ 0 ∧ (b.holdOf 300).oldest + 8 ≤ b.sfc) ∧
      (returnTurn boundCfg e = some 300 ∧ returnQueue boundCfg e 300 = some 56 ∧ (e.queue 56).held = [packet 1 60] ∧ (packet 1 60).moved = false) := by decide +kernel

theorem witness_HoldAndShadow_shadow :
    let d := (devWith [(Fields.BUF_DEEP_STATUS_state, 0, 1), (Fields.MATE_STATUS_role, 0, 2)]).setQueue 56 { Queue.init with head := [packet 1 60] }
    standOfQueue boundCfg 56 = some 300 ∧ (d.queue 56).head = [packet 1 60] ∧ d.isStandby = true ∧ boundCfg.flag Fields.BUF_Q_CFG_shadow_en 56 = true ∧
      d.deepState = 1 ∧ shadowGroves boundCfg d 56 1 = [groveOf 300] ∧ d.usedOf usedDeepWrite + 1 * 60 + d.ringCost 0 ≤ deepBudget ∧ shadowBytes ((d.shadow.getD (groveOf 300) []).filter (fun x => decide (d.sfc < x.tick + 8))) + lineSpan 60 ≤ shadowRing := by decide +kernel

theorem witness_HoldAndShadow_replay :
    let e : ShadowEnt := { queue := 56, bytes := List.replicate 60 0, tick := 999, addr := 0 }
    let d := devWith [(Fields.BUF_HOLD_STATUS_hold_down, 0, 0)]
    (∀ x ∈ [e], d.sfc < x.tick + 8) ∧ replayOk boundCfg d = true ∧ areaBytes (d.replay.getD 1 []) + areaBytes [e] ≤
      boundCfg.get Fields.BUF_HOLD_CTRL_replay_mib 0 * 2 ^ 20 ∧ d.usedOf usedHoldWrite + e.bytes.length ≤ holdBudget := by decide +kernel

theorem shadowBytes_same (e : ShadowEnt) (n : Nat) : shadowBytes (e :: List.replicate n e) = (n + 1) * lineSpan e.bytes.length := by
  simp [shadowBytes, List.map_replicate, Nat.add_mul, Nat.add_comm]

/-- A ring without room for the longest packet: 2,048 packets of 16,352 bytes in 64 lines, and the replay area holds nothing yet. -/
theorem witness_HoldAndShadow_full (e : ShadowEnt) (h : e.bytes.length = 16352) (ht : e.tick = 999) :
    (∀ x ∈ e :: List.replicate 2047 e ++ live.replay.getD 1 [], live.sfc < x.tick + 8) ∧ shadowRing < shadowBytes (e :: List.replicate 2047 e) + lineSpan 16352 := by
  constructor
  · intro x hx
    have hr : live.replay.getD 1 [] = [] := rfl
    rw [hr, List.append_nil, List.mem_cons] at hx
    have hx : x.tick = 999 := (hx.elim id List.eq_of_mem_replicate) ▸ ht
    have hs : live.sfc = 1000 := rfl
    omega
  · rw [shadowBytes_same, h]; decide

/-- A standby with one packet in a shadowed queue. -/
def shadowing : Dev :=
  (devWith [(Fields.BUF_DEEP_STATUS_state, 0, 1), (Fields.MATE_STATUS_role, 0, 2)]).setQueue 56 { Queue.init with head := [packet 1 60] }

/-- The packet waits for a ring of that fill. -/
theorem witness_HoldAndShadow_waited (e : ShadowEnt) (h : e.bytes.length = 16352) :
    ringWaited boundCfg { shadowing with shadow := [(1, e :: List.replicate 2047 e)] } 1 = true ∧ shadowing.isStandby = true := by
  have hs : shadows boundCfg shadowing 56 = true ∧ (shadowGroves boundCfg shadowing 56 (packet 1 60).uid).contains 1 = true ∧
      shadowing.isStandby = true := by decide +kernel
  have full : shadowFull { shadowing with shadow := [(1, e :: List.replicate 2047 e)] } 1 (packet 1 60) = true := decide_eq_true (by
    change shadowRing < shadowBytes (e :: List.replicate 2047 e) + lineSpan (packet 1 60).bytes.length
    rw [shadowBytes_same, h]; decide)
  refine ⟨List.any_eq_true.2 ⟨(56, { Queue.init with head := [packet 1 60] }), List.mem_singleton.2 rfl, ?_⟩, hs.2.2⟩
  exact Bool.and_eq_true_iff.2 ⟨Bool.and_eq_true_iff.2 ⟨hs.1, hs.2.1⟩, full⟩

theorem witness_HoldAndShadow_entry : ∃ e : ShadowEnt, e.bytes.length = 16352 ∧ e.tick = 999 :=
  ⟨{ queue := 56, bytes := List.replicate 16352 0, tick := 999, addr := 0 }, List.length_replicate, rfl⟩

theorem witness_TierStates :
    let a := devWith [(Fields.BUF_HOLD_STATUS_ports, 0, 2), (Fields.BUF_HOLD_STATUS_hold_down, 0, 0)]
    let b := devWith [(Fields.BUF_HOLD_STATUS_ports, 0, 2), (Fields.BUF_HOLD_STATUS_hold_down, 0, 1)]
    let e := devWith [(Fields.BUF_DEEP_STATUS_state, 0, 2)]
    (a.holdPorts.testBit 1 = true ∧ a.holdUp = true) ∧ (({ b with holdFell := true } : Dev).holdFell = true ∧ holdPortsUp { b with holdFell := true } = false) ∧
      (let u := b.set Fields.LANE_CXL_STATUS_up 1 1;
        u.holdFell = false ∧ holdPortsUp u = true ∧ u.flag Fields.BUF_HOLD_STATUS_hold_down 0 = true ∧ u.rngGood = true) ∧ ({ live with training := true } : Dev).training = true ∧
      (e.deepState = 2 ∧ deepEmpty e = true) := by decide +kernel

theorem witness_SliceDefects :
    let c := cfgWith [(Fields.SLC_SL_CTRL_en, 9, 1), (Fields.SLC_SL_CTRL_dir, 9, 1), (Fields.SLC_SL_CTRL_stand, 9, 300)]
    let a := live.setRun .los 1 2
    let b := (standIn 300 .active).updSlice 9 (fun x => { x with lodMiss := 2 })
    let e := (standIn 300 .active).updSlice 9 (fun x => { x with lodGood := 2, aisSet := 3 })
    (c.flag Fields.SLC_SL_CTRL_en 9 = true ∧ sliceUp c 9 = true) ∧ 2 ≤ a.run .los (sliceGrove c 9) ∧
      (live.run .los (sliceGrove c 9) < 2 ∧ live.st (sliceStand c 9) ≠ .active) ∧ (b.st (sliceStand c 9) = .active ∧ 2 ≤ (b.slice 9).lodMiss) ∧
      ((e.slice 9).lodMiss < 2 ∧ 2 ≤ (e.slice 9).lodGood ∧ 3 ≤ (e.slice 9).aisSet) := by decide +kernel

theorem witness_ProtectionGroups :
    let c := cfgWith [(Fields.SLC_PG_CTRL_bidir, 3, 0)]
    let d := runOut .wtr 3 (live.updPg 3 (fun x => { x with wtr := true }))
    ((d.pg 3).wtr = true ∧ d.expired .wtr 3 (c.get Fields.SLC_PG_WTR_wtr_ticks 3) = true) ∧
      (let u := d.updPg 3 (fun x => { x with standing := 0xD });
        ((pgClose c 3 u).pg 3).selected ≠ (u.pg 3).prev) ∧ ((pgClose c 3 live).pg 3).selected = (live.pg 3).prev ∧
      ((d.pg 3).standing = 0 ∧ defectReq d (pgWorking c 3) = 0 ∧ c.flag Fields.SLC_PG_CTRL_bidir 3 = false) ∧
      (cfgWith [(Fields.SLC_PG_CTRL_bidir, 3, 1)]).flag Fields.SLC_PG_CTRL_bidir 3 = true := by decide +kernel

theorem witness_FlowLocksAndSlips :
    let c := cfgWith [(Fields.SLC_FL_CTRL_en, 4, 1), (Fields.SLC_FL_DST_dst_en, 4, 1), (Fields.SLC_FL_DST_dst, 4, 40), (Fields.SLC_FL_PKT_dj_ticks, 4, 4)]
    let d := live.updFlow 4 (fun x => { x with lateRun := 8 })
    (c.flag Fields.SLC_FL_CTRL_en 4 = true ∧ flowDests c 4 ≠ [] ∧ (live.flow 4).locked = false ∧ (live.flow 4).buf = [] ∧
      2 ≤ c.get Fields.SLC_FL_PKT_dj_ticks 4 ∧ c.get Fields.SLC_FL_PKT_dj_ticks 4 ≤ 16) ∧ 8 ≤ (d.flow 4).lateRun := by decide +kernel

/-- The first packet of a frame: 300 is frame number 1, index 44, and plays dj_ticks = 4 frames ahead of tick 1,000. -/
theorem test_flow_locks :
    let c := cfgWith [(Fields.SLC_FL_CTRL_en, 4, 1), (Fields.SLC_FL_DST_dst_en, 4, 1), (Fields.SLC_FL_PKT_dj_ticks, 4, 4)]
    let d := after (.flowPacketRx 4 300 [1, 2]) (stateOf c live)
    (d.flow 4).locked = true ∧ (d.flow 4).buf = [{ frame := 1004, pkts := [(44, [1, 2])] }] := by decide +kernel

theorem witness_ClearingBegins :
    let d := live.updGrove 2 (fun x => { x with inService := true, clearAt := [1001], loopDelay := 6 })
    let bad := cfgWith [(Fields.GRV_DS_CTRL_msg_max, 2, 0)]
    (compat Cfg.reset 2 = false ∧ (d.grove 2).inService = true ∧ d.sfc + 1 ∈ (d.grove 2).clearAt ∧ (d.grove 2).clrSeen ≠ some (d.sfc + 1) ∧
      clearingAt d 2 (d.sfc + 1) = none) ∧
      (discStart (sliceTwigs Cfg.reset 2) + 19270 + 4000 * Cfg.reset.get Fields.GRV_CLEARING_CTRL_diff_km 2 ≤
        50000 * Cfg.reset.get Fields.GRV_CLEARING_CTRL_clr_len 2 ∧ 0 < Cfg.reset.get Fields.GRV_DS_CTRL_msg_max 2) ∧
      ¬ 0 < bad.get Fields.GRV_DS_CTRL_msg_max 2 := by decide +kernel

/-! ### Tables, pipelines, ports -/

/-- A packet in an ingress buffer of a pipeline: an untagged frame of 64 zero bytes from uplink lane 5. -/
def plainPkt (ok : Bool := true) : PipePkt := { kind := .uplink, bytes := List.replicate 64 0, a := 5, b := 5, tick := 1000, clock := 0, stamp := 0, bank := 0, hash := 0, tagOk := ok }

/-- A packet that is no fragment and whose profile extracts nothing. -/
def plainPass (c : Cfg) (second : Bool) (ok : Bool := true) : Parsed :=
  parsedOf c second (plainPkt ok) (netLayer c 0 (passProfile c second (plainPkt ok)) plainPkt.bytes) none

theorem plain_parses (c : Cfg) (p : Nat) (second ok : Bool) (d : Dev)
    (h : let prof := profileOf c 0 (if second then PktKind.recirc.code else 0) (tagCount c plainPkt.bytes) (etherType c plainPkt.bytes)
      (netLayer c 0 prof plainPkt.bytes).later = false ∧ (netLayer c 0 prof plainPkt.bytes).first = false ∧ extractions c 0 prof = []) :
    parsePass c p second (plainPkt ok) d = (plainPass c second ok, false, d) := by
  obtain ⟨hl, hf, he⟩ := h
  cases second <;> simp [plainPass, passProfile, PktKind.code, plainPkt] at hl hf he ⊢ <;>
    simp [parsePass, passProfile, PktKind.code, hl, hf, he, extsShort]

theorem plain_taken (c : Cfg) (d : Dev) (p : Fin 32) (second ok : Bool) (rest : List PipePkt)
    (h : pipeRuns d p = true ∧ (d.pipe p).wait = none ∧ waitingFor (d.pipe p) second = plainPkt ok :: rest ∧
      (second = false → flowOfPkt c (plainPkt ok) = none ∧ (d.pipe p).recirc = []) ∧ activeBank c = 0)
    (hp : let prof := profileOf c 0 (if second then PktKind.recirc.code else 0) (tagCount c plainPkt.bytes) (etherType c plainPkt.bytes)
      (netLayer c 0 prof plainPkt.bytes).later = false ∧ (netLayer c 0 prof plainPkt.bytes).first = false ∧ extractions c 0 prof = []) :
    Takes (stateOf c d) p second (plainPkt ok) rest (plainPass c second ok) := by
  refine ⟨h.1, h.2.1, h.2.2.1, h.2.2.2.1, fun d' => ?_⟩
  have e : ({ plainPkt ok with bank := activeBank c } : PipePkt) = plainPkt ok := by rw [h.2.2.2.2]; rfl
  have : (if second = true then plainPkt ok else { plainPkt ok with bank := activeBank (stateOf c d).cfg }) = plainPkt ok := by
    cases second <;> simp [stateOf, e]
  rw [this]; exact plain_parses c p second ok d' hp

/-- Bank A of a rule set whose uplink and second-pass profiles miss in the routes with action record 9, and that record. -/
def pipeCfg (word : Nat) : Cfg :=
  cfgWith [(Fields.PIPE_PRF_LKP0_table, 0, 3), (Fields.PIPE_PRF_LKP1_miss_index, 0, 9), (Fields.PIPE_PRF_LKP0_table, 6, 3), (Fields.PIPE_PRF_LKP1_miss_index, 6, 9),
    (Fields.PIPE_ACT_W0_word, 9, word), (Fields.LANE_UP_CFG_en, 6, 1)]

/-- A pipeline with the packet in its ingress buffer, or, for a second pass, in its recirculation queue. -/
def pipeDev (second : Bool := false) (ok : Bool := true) : Dev :=
  (live.raise Fields.LANE_UP_STATUS_link_up 6).updPipe 16 (fun x =>
    if second then { x with recirc := [plainPkt ok] } else { x with ingress := [plainPkt ok] })

theorem witness_PassesEnd_drop : Takes (stateOf Cfg.reset pipeDev) 16 false plainPkt [] (plainPass Cfg.reset false) ∧
    runSlots Cfg.reset pipeDev (plainPass Cfg.reset false) [0, 1, 2] [] Merged.init none 0 = .done Merged.init none 0 ∧ Merged.init.destKind = 0 ∧
    (plainPass Cfg.reset false).pkt.tagOk = true :=
  ⟨plain_taken _ _ _ _ _ _ (by decide +kernel) (by decide +kernel), by decide +kernel, rfl, rfl⟩

theorem witness_PassesEnd_tag : Takes (stateOf Cfg.reset (pipeDev false false)) 16 false (plainPkt false) [] (plainPass Cfg.reset false false) ∧
    runSlots Cfg.reset (pipeDev false false) (plainPass Cfg.reset false false) [0, 1, 2] [] Merged.init none 0 = .done Merged.init none 0 ∧
    (plainPass Cfg.reset false false).pkt.tagOk = false :=
  ⟨plain_taken _ _ _ _ _ _ (by decide +kernel) (by decide +kernel), by decide +kernel, rfl⟩

theorem witness_PassesEnd_recirc : Takes (stateOf (pipeCfg (7 * 2 ^ 28)) pipeDev) 16 false plainPkt [] (plainPass (pipeCfg (7 * 2 ^ 28)) false) ∧
    Takes (stateOf (pipeCfg (7 * 2 ^ 28)) (pipeDev true)) 16 true plainPkt [] (plainPass (pipeCfg (7 * 2 ^ 28)) true) ∧
    (∀ second, runSlots (pipeCfg (7 * 2 ^ 28)) (pipeDev second) (plainPass (pipeCfg (7 * 2 ^ 28)) second) [0, 1, 2] [] Merged.init none 0
      = .done { Merged.init with destKind := 7 } none 0) ∧ ∀ second, (plainPass (pipeCfg (7 * 2 ^ 28)) second).pkt.tagOk = true :=
  ⟨plain_taken _ _ _ _ _ _ (by decide +kernel) (by decide +kernel), plain_taken _ _ _ _ _ _ (by decide +kernel) (by decide +kernel), by decide +kernel, by decide +kernel⟩

theorem witness_PassToPort :
    let c := pipeCfg (3 * 2 ^ 28 + 6)
    let m : Merged := { Merged.init with destKind := 3, dest := 6 }
    Takes (stateOf c pipeDev) 16 false plainPkt [] (plainPass c false) ∧ runSlots c pipeDev (plainPass c false) [0, 1, 2] [] Merged.init none 0 = .done m none 0 ∧
      (portOn c pipeDev 6 = true ∧ linkUp pipeDev 6 = true) ∧
      (pipeDev.queue (upQueue 6 (upClass c 6 plainPkt.bytes))).depth + 64 ≤ 1024 * c.get Fields.SCH_UP_GLIM_g_limit (6 * 8 + upClass c 6 plainPkt.bytes) ∧
      (takeBuf c 0 16 (poolsFrom 64) pipeDev).1.isSome = true :=
  ⟨plain_taken _ _ _ _ _ _ (by decide +kernel) (by decide +kernel), by decide +kernel, by decide +kernel, by decide +kernel, by decide +kernel⟩

/-- The uplink profile searches a shared bank of the associative memory. -/
def ringCfg : Cfg :=
  cfgWith [(Fields.PIPE_PRF_LKP0_table, 0, 1), (Fields.PIPE_PRF_LKP1_bank_mask, 0, 1), (Fields.ASC_BANK_CFG_cas, 0, 1), (Fields.ASC_CAS_CTRL_cas_size, 0, 2)]

theorem witness_CascadeWaits :
    let d := pipeDev.set Fields.ASC_CAS_STATUS_cas_down 0 0
    let k : RingKey := { width := 0, base := 0, banks := 1, key := 0, best := none }
    let w : CasWait := { pass := plainPass Cfg.reset false, answers := [], since := 0 }
    let e := live.updPipe 16 (fun x => { x with wait := some w })
    (d.running = true ∧ d.flag Fields.ASC_CAS_STATUS_cas_down 0 = false ∧ ringCfg.get Fields.ASC_CAS_CTRL_cas_size 0 ≠ 0) ∧
      Takes (stateOf ringCfg d) 16 false plainPkt [] (plainPass ringCfg false) ∧
      runSlots ringCfg d (plainPass ringCfg false) [0, 1, 2] [] Merged.init none 0 = .ring k ∧
      ((e.pipe 16).wait = some w ∧ w.since + Cfg.reset.get Fields.ASC_CAS_TIMEOUT_cas_timeout 0 ≤ e.now ∧
        runSlots Cfg.reset e w.pass [0, 1, 2] (w.answers ++ [none]) Merged.init none 0 = .done Merged.init none 0 ∧
        pipeRuns e 16 = true ∧ w.pass.pkt.tagOk = true) :=
  ⟨by decide +kernel, plain_taken _ _ _ _ _ _ (by decide +kernel) (by decide +kernel), by decide +kernel, by decide +kernel⟩

theorem witness_CascadeWaits_full :
    let c := pipeCfg (7 * 2 ^ 28)
    let w : CasWait := { pass := plainPass c false, answers := [], since := 0 }
    let e := live.updPipe 16 (fun x => { x with wait := some w, recirc := List.replicate 8192 plainPkt })
    (pipeRuns e 16 = true ∧ (e.pipe 16).wait = some w ∧ w.pass.pkt.tagOk = true ∧ w.since + c.get Fields.ASC_CAS_TIMEOUT_cas_timeout 0 ≤ e.now ∧
      w.pass.second = false ∧ 8192 ≤ (e.pipe 16).recirc.length) ∧
      runSlots c e w.pass [0, 1, 2] (w.answers ++ [none]) Merged.init none 0 = .done { Merged.init with destKind := 7 } none 0 := by decide +kernel

/-- A learn request. -/
def learnReq : LearnReq := { key := 5, kind := 2, val := 7 }

/-- A bridging entry of the same key with another source. -/
def brEntry (static : Bool) : BrEntry := { key := 5, static := static, act := 0, kind := 2, val := 6, age := { c := 2 ^ 40, run := true, arming := false, arr := false } }

theorem witness_LearningAndStash_learns :
    let d := live.updPipe 3 (fun x => { x with learn := [learnReq] })
    let e := fun b => { d with bridge := [(brBucket Cfg.reset 5 * 8, brEntry b)] }
    let f : Dev := { d with deferred := [learnReq], locks := [(0, 2)] }
    (d.running = true ∧ d.usedOf usedLearn < 12500 ∧ d.usedOf usedTable < 12500 ∧ nextLearner d = some 3 ∧ (d.pipe 3).learn = [learnReq]) ∧ learnDeferred f = true ∧
      (¬ ((d.lockOf 0).isSome = true ∨ d.deferred ≠ []) ∧ brFind Cfg.reset d 5 = none ∧ (brFree Cfg.reset d 5).isSome = true) ∧
      (∀ b, brFind Cfg.reset (e b) 5 = some (brBucket Cfg.reset 5 * 8, brEntry b) ∧ ¬ ((brEntry b).kind = 2 ∧ (brEntry b).val = 7)) ∧
      ((f.lockOf 0).isSome = true ∧ f.deferred.length < 65536) ∧
      (cfgWith [(Fields.TBL_BR_DOM_move_en, 0, 1)]).flag Fields.TBL_BR_DOM_move_en (brDomain 5) = true ∧
      (cfgWith [(Fields.TBL_BR_DOM_move_en, 0, 0)]).flag Fields.TBL_BR_DOM_move_en (brDomain 5) = false := by decide +kernel

theorem witness_LearningAndStash_deferred :
    let d : Dev := { live with deferred := [learnReq] }
    let e : Dev := { live with bridge := [(stashBase + 3, brEntry false)] }
    (d.lockOf 0 = none ∧ d.running = true ∧ d.usedOf usedTable < 12500 ∧ d.deferred = [learnReq] ∧ brFind Cfg.reset d 5 = none ∧
      (brFree Cfg.reset d 5).isSome = true) ∧
      ((List.range 8).find? (fun w => (e.bridge.get? (brBucket Cfg.reset 5 * 8 + w)).isNone) = some 0 ∧
        (e.bridge.find? (fun p => decide (stashBase ≤ p.1) && brBucket Cfg.reset p.2.key == brBucket Cfg.reset 5)).isSome = true) := by decide +kernel

theorem witness_AgingAndLockExpiry :
    let e : FragEntry := { key := [], ports := [], age := { c := 2 ^ 40, run := true, arming := false, arr := false } }
    let d := runOut .lock 2 { live with bridge := [(9, brEntry false), (10, brEntry true)], frag := [(4, e)], locks := [(2, 1)] }
    (d.bridge.get? 9 = some (brEntry false) ∧ (brEntry false).age.expired (Cfg.reset.get Fields.TBL_BR_AGE_age_ticks 0) = true ∧ d.lockOf 0 = none ∧ d.ageHold = false) ∧ ({ d with ageHold := true } : Dev).ageHold = true ∧
      ({ d with locks := [(0, 1)] } : Dev).lockOf 0 ≠ none ∧ d.bridge.get? 10 = some (brEntry true) ∧
      (d.frag.get? 4 = some e ∧ e.age.expired (Cfg.reset.get Fields.PIPE_FRAG_CTRL_age_ticks 0) = true) ∧
      (d.lockOf 2 ≠ none ∧ d.expired .lock 2 (Cfg.reset.get Fields.TBL_LOCK_T_lock_ticks 2) = true) := by decide +kernel

/-- A ring of 16 descriptors with one waiting. -/
def tableCfg : Cfg :=
  cfgWith [(Fields.TBL_RING_CTRL_en, 1, 1), (Fields.TBL_RING_SIZE_ring_size, 1, 4), (Fields.TBL_RING_TAIL_tail, 1, 1)]

/-- A descriptor of an operation for one record of a table, as R314 lays its words out. -/
def descr (o t : Nat) (recs : List TblRec) (index : Nat := 0) : Desc :=
  { words := [o * 2 ^ 28 + t * 2 ^ 24 + 1, 2 ^ 31, 0, 0, index, 0, 0, 0], recs := recs, fault := none }

theorem witness_RingDescriptors :
    let c := tableCfg
    let rec_ := TblRec.bridge 5 true false 0 9 0
    let d : Dev := { live with bridge := [(brBucket c 5 * 8, { brEntry false with kind := 0, val := 0 })] }
    ringReady c live 1 = true ∧ nextRing c live = some 1 ∧ c.get Fields.TBL_RING_SIZE_ring_size 1 ≤ 16 ∧ lockedFor live 1 0 = false ∧ (descr 2 0 [rec_]).recs = [rec_] ∧ descOp (descr 2 0 [rec_]) = some .write ∧ (descr 2 0 [rec_]).count = 1 ∧
      (descr 2 0 [rec_]).table = 0 ∧
      brFind c live (brKeyOf (toBytesBE 8 5)) = none ∧ (brFree c live (brKeyOf (toBytesBE 8 5))).isSome = true ∧
      (brFind c d (brKeyOf (toBytesBE 8 5))).isSome = true ∧ (d.bridge.get? (brBucket c 5 * 8)).isSome = true ∧ brBucket c 5 * 8 < 2101248 := by decide +kernel

/-- R315: a WRITE of a valid bridging record is done with ST_OK, and a READ beyond the table answers ST_BAD_INDEX. -/
theorem test_descriptors :
    let w := after (.write 1 (descr 2 0 [.bridge 5 true false 0 9 0])) (stateOf tableCfg live)
    let r := after (.read 1 (descr 1 0 [] 2101248)) (stateOf tableCfg live)
    w.outbox = [.descDone 1 (descAddr tableCfg live 1) [0x20000001, 0x80000000, 0, 0, 0, 0, 1000, 0] 0 []] ∧ w.bridge.map (fun p => p.2.act) = [9] ∧
      r.outbox = [.descDone 1 (descAddr tableCfg live 1) [0x10020000, 0x80000000, 0, 0, 2101248, 0, 1000, 0] 0 []] := by decide +kernel

theorem witness_AssociativeMemory :
    let c := cfgWith [(Fields.TBL_RING_CTRL_en, 1, 1), (Fields.TBL_RING_SIZE_ring_size, 1, 4), (Fields.TBL_RING_TAIL_tail, 1, 1), (Fields.ASC_BANK_CFG_width, 0, 0)]
    let k : WinCmd := { op := 1, addr := 5, master := 0 }
    ringReady c live 1 = true ∧ nextRing c live = some 1 ∧ lockedFor live 1 3 = false ∧ (ascPos c 5).isSome = true ∧
      (∀ w, ascPos c 5 = some w → (ascChain c live w (2 ^ 20) 5 [5]).isSome = true) ∧ ({ live with winCmd := some k } : Dev).winCmd = some k := by decide +kernel

theorem witness_RuleSetBanks :
    (devWith [(Fields.PIPE_RS_STATUS_draining, 0, 1)]).flag Fields.PIPE_RS_STATUS_draining 0 = true ∧
      (∀ x ∈ live.pipes, pipeHolds x.2 (1 - activeBank Cfg.reset) = false) ∧
      (devWith [(Fields.PIPE_RS_STATUS_copy_busy, 0, 1)]).flag Fields.PIPE_RS_STATUS_copy_busy 0 = true ∧ Cfg.reset.regs.cells = [] := by decide +kernel

theorem witness_FlashOperationEnds :
    ({ live with flashOp := some (.erase 65536) } : Dev).flashOp = some (.erase 65536) ∧
      ({ live with flashOp := some (.program 256 [1, 2]) } : Dev).flashOp = some (.program 256 [1, 2]) := ⟨rfl, rfl⟩

/-- R522: programming stores its bytes and leaves the next byte erased. -/
theorem test_flash_program :
    let d := after (.flashOperationDone true) (stateOf Cfg.reset { live with flashOp := some (.program 256 [1, 2]) })
    flashAt d 256 = 1 ∧ flashAt d 257 = 2 ∧ flashAt d 258 = 0xFF := by decide +kernel

/-- A record of a pass. -/
def passRec : PassRec :=
  { second := false, outcome := 0, dest := 0, drop := none, md := [], hash := 0, bytes := [], tick := 1000, clock := 5 }

theorem witness_SamplerRecords :
    let d := { live.updPipe 3 (fun x => { x with last := some passRec }) with samplers := [(3, { count := 0, armed := some 0, recs := [], seq := 65535 })] }
    let e := { d with samplers := [(3, { count := 0, armed := some 0, recs := List.replicate 16 [], seq := 0 })] }
    (pipeRuns d 3 = true ∧ (d.sampler 3).armed = some 0 ∧ (d.pipe 3).last = some passRec ∧ (d.sampler 3).recs.length < 16) ∧ 16 ≤ (e.sampler 3).recs.length ∧ pipeRuns e 3 = true := by decide +kernel

theorem witness_UplinkPorts_receive :
    let c := pipeCfg 0
    let bs : List Byte := List.replicate 60 0
    let pause : List Byte := List.replicate 12 0 ++ [0x88, 0x08, 0, 1] ++ List.replicate 44 0
    (pipeDev.running = true ∧ portOn c pipeDev 6 = true ∧ linkUp pipeDev 6 = true) ∧ ([] : List Byte).length + 4 < 64 ∧
      (64 ≤ bs.length + 4 ∧ bs.length + 4 ≤ 16356 ∧ numAt bs 12 2 ≠ 0x8808 ∧ ptpEvent c bs = none ∧ (pipeDev.pipe (ingressPipe c 6 bs)).ingress.length < 2048) ∧
      (64 ≤ pause.length + 4 ∧ numAt pause 12 2 = 0x8808 ∧ numAt pause 14 2 = 1) := by decide +kernel

/-- R534: a frame with a wrong FCS is counted by its lane. -/
theorem test_fcs_error :
    (after (.uplinkFrameRx 6 (List.replicate 60 0) false) (stateOf (pipeCfg 0) pipeDev)).counter .device .rxFcsErr 6 = 1 := by decide +kernel

theorem witness_UplinkPorts_send :
    let c := pipeCfg 0
    let a := pipeDev.setQueue (flowQueue 6) { Queue.init with head := [packet 1 60] }
    let b := pipeDev.setQueue (upQueue 6 2) { Queue.init with head := [packet 1 60] }
    let m : TxMsg := { port := 7, onestep := false, bytes := [] }
    let e : Dev := { live with txMsg := some m }
    let f : Dev := pipeDev.setQueue (flowQueue 6) { Queue.init with head := [{ packet 1 60 with flow := some (3, 0, 0) }] }
    (a.txMsg.filter (fun m => m.port == 6) = none ∧ portOn c a 6 = true ∧ linkUp a 6 = true ∧ (a.queue (flowQueue 6)).head = [packet 1 60] ∧ (packet 1 60).flow = none) ∧
      (f.txMsg = none ∧ portOn c f 6 = true ∧ linkUp f 6 = true ∧ (f.queue (flowQueue 6)).head.map (fun p => p.flow) = [some (3, 0, 0)]) ∧
      ((b.queue (flowQueue 6)).head = [] ∧ firstClass b 6 = some 2 ∧ (b.queue (upQueue 6 2)).head = [packet 1 60] ∧ (packet 1 60).stamp = none) ∧
      (e.txMsg = some m ∧ m.port = 7 ∧ portOn c e 7 = false) := by decide +kernel

/-! ### The edge, bursts, the grant engine and the mate -/

theorem witness_CommitEdgeAdvances :
    let w : Staged := { master := 0, reg := .GRV_STD_CTRL, idx := 3, mask := 255, value := 9, cyc := 0, due := some 1001 }
    let c : Cfg := { Cfg.reset with staged := [w] }
    live.running = true ∧ c.staged = [w] ∧ w.dueBy ((live.sfc + 1) % 2 ^ 48) = true ∧ w.reg ∉ [.BGH_CTRL, .BGH_FIXED, .SLC_PAGE_CTRL, .CLK_PWR] ∧
      Cfg.reset.staged = [] := by decide +kernel

theorem witness_MapFreezeBuilds :
    let d := live.updGrove 2 (fun x => { x with inService := true })
    (∀ h ∈ live.groves.map Prod.fst, worksOn Cfg.reset live h (live.grove h).inService = false) ∧
      (d.groves.map Prod.fst = [2] ∧ (d.grove 2).inService = true ∧ (d.grove 2).frame.map DsFrame.sfc ≠ some (d.sfc + 1) ∧ compat Cfg.reset 2 = false) ∧
      (live.running = true ∧ live.edgeOpen = false) := by
  decide +kernel

/-- R49: the frame that map freeze builds is that of the next tick. -/
theorem test_map_freeze :
    let d := after .mapFreeze (stateOf Cfg.reset (live.updGrove 2 (fun x => { x with inService := true, loopDelay := 6 })))
    (d.grove 2).frame.map DsFrame.sfc = some 1001 ∧ d.clock = 172500 := by decide +kernel

/-- A map entry of stand 44 of its grove. -/
def entryOf (k : TwigKind) : MapEntry := { kind := k, stand := 44, start := 20000, len := 22, cls := 1, rpt := false, msg := false, runs := [⟨0, 4, 65536, 0⟩] }

/-- The sealed map of frame 994 with one entry. -/
def mapWith (e : MapEntry) : SealedMap := { frame := 994, kind := .engine, entries := [e], got := [], tloop := 6, precoder := false }

/-- Grove 1 receives the map of frame 994. -/
def receivingOf (e : MapEntry) (x : StandSt) : Dev :=
  (standIn 300 x).updGrove 1 (fun y => { y with inService := true, loopDelay := 6, maps := [mapWith e] })

/-- Grove 1 receives a frame whose map holds an entry of the kind. -/
def receiving (k : TwigKind) (x : StandSt) : Dev := receivingOf (entryOf k) x

/-- What the receiver heard. -/
def heard (locked : Bool) (pos : Option Int) (header : Option (List Byte)) (cws : List CwRx := []) : RxBurst :=
  { locked := locked, pos := pos, header := header, cws := cws, eq := none, reports := [], sdus := [] }

/-- A good burst header of stand 44. -/
def goodHeader : List Byte :=
  let h : List Byte := [0x16, 0x00, 7, 0] ++ List.replicate 26 0
  h ++ toBytesBE 2 (crc16 h)

/-- The entry of a map of one has no other before it. -/
theorem lone_first (e : MapEntry) (k : Nat) (x : MapEntry) (h : (mapWith e).entries[k]? = some x) (hx : x.start < e.start) :
    x.kind = .discovery ∨ (mapWith e).got.contains k = true := by
  cases k with
  | zero => obtain rfl : e = x := by simpa [mapWith] using h
            exact absurd hx (Nat.lt_irrefl _)
  | succ k => simp [mapWith] at h

theorem witness_UpstreamBursts_awaited (k : TwigKind) (hk : k = .ordinary ∨ k = .rangingGrant) (x : StandSt) (hx : x = .active ∨ x = .silenced) :
    Awaited (stateOf Cfg.reset (receiving k x)) 1 0 (mapWith (entryOf k)) (entryOf k) := by
  rcases hk with rfl | rfl <;> rcases hx with rfl | rfl <;>
    exact ⟨⟨by decide +kernel, by decide +kernel, by decide +kernel, rfl, by decide, fun _ => (by simp [entryOf]), by decide, by decide⟩, lone_first _⟩

theorem witness_UpstreamBursts_missed :
    let d := receiving .ordinary .active
    let far : Int := expectedPos d 1 (entryOf .ordinary) + 17
    let v := (receiving .ordinary .ranging).updMail (standId 1 44) (fun m => { m with voidTo := some 994 })
    (receiving .ordinary .silenced).st (standId 1 44) = .silenced ∧ ((v.mailOf (standId 1 44)).voidTo = some 994 ∧ 994 ≤ 994) ∧
      (d.st (standId 1 44) ≠ .silenced ∧ d.st (standId 1 44) ≠ .absent ∧ (d.mailOf (standId 1 44)).voidTo = none) ∧
      (heard true (some far) none) = grantRx Cfg.reset d 1 (mapWith (entryOf .ordinary)) (entryOf .ordinary) (.heard (heard true (some far) none)) ∧
      (heard true (some far) none).pos = some far ∧ wideFrame d 994 = false ∧ 16 < (far - expectedPos d 1 (entryOf .ordinary)).natAbs := by decide +kernel

/-- A twig of 20 payload leaves for bough 7, with its report. -/
def dataEntry : MapEntry := { entryOf .ordinary with len := 38, rpt := true, runs := [⟨0, 20, 7, 0⟩] }

/-- The header of a fragment of bough 7 that ends no packet. -/
def dataHdr : EncapHdr := { bough := 7, len := 1152, last := false, keyIndex := 0, options := 0 }

/-- A codeword whose data is that fragment. -/
def dataCw : CwRx := { info := some (toBytesBE 8 (encapWord dataHdr) ++ List.replicate 1152 0), fixed := 0 }

/-- Bough 7 is bound to stand 300. -/
def dataCfg : Cfg := cfgWith [(Fields.BGH_BIND_bound, 7, 1), (Fields.BGH_BIND_stand, 7, 300)]

theorem witness_DataBurstReceived_awaited : Awaited (stateOf dataCfg (receivingOf dataEntry .active)) 1 0 (mapWith dataEntry) dataEntry :=
  ⟨⟨by decide +kernel, by decide +kernel, by decide +kernel, rfl, by decide, fun _ => (by simp [dataEntry, entryOf]), by decide, by decide⟩, lone_first _⟩

theorem witness_UpstreamBursts_ranging :
    let d := receiving .rangingGrant .active
    let p : Int := expectedPos d 1 (entryOf .rangingGrant) + 2048
    (entryOf .rangingGrant).msg = false ∧ (∀ r ∈ (entryOf .rangingGrant).runs, 65536 ≤ r.bough ∧ boughAt Cfg.reset (standId 1 44) r.idx = none) ∧ compat Cfg.reset 1 = false ∧
      d.st (standId 1 44) ≠ .silenced ∧ (p - expectedPos d 1 (entryOf .rangingGrant)).natAbs ≤ 2048 ∧ headerGood goodHeader = true ∧
      ofBytesBE (goodHeader.take 2) / 128 = 44 := by decide +kernel

theorem witness_DataBurstReceived :
    let d := receivingOf dataEntry .active
    let bs := (dataStream (cwSizes 20) [dataCw]).take (58 * 20)
    (dataEntry.kind = .ordinary ∧ dataEntry.msg = false ∧ dataEntry.rpt = true ∧ dataEntry.runs.map Run.bough = [7] ∧
        standOfBough dataCfg 7 = some (standId 1 44) ∧ compat dataCfg 1 = false) ∧
      (d.st (standId 1 44) = .active ∧ (d.mailOf (standId 1 44)).voidTo = none ∧ wideFrame d 994 = false ∧ (d.mailOf (standId 1 44)).reps = none) ∧
      (headerGood goodHeader = true ∧ ofBytesBE (goodHeader.take 2) / 128 = dataEntry.stand) ∧
      ((readShare (58 * 20 / 8 + 1) false bs).1 = [.frag dataHdr (List.replicate 1152 0)] ∧ dataHdr.last = false ∧ bs.length = 58 * 20 ∧ (d.bough 7).part = none) := by
  decide +kernel

/-- R101: a share that is one fragment that ends no packet leaves a partial packet and starts the reassembly timer. -/
theorem test_first_fragment :
    let d := receivingOf dataEntry .active
    let e := after (.burstReceive 1 0 (.heard (heard true (some (expectedPos d 1 dataEntry)) (some goodHeader) [dataCw]))) (stateOf dataCfg d)
    (e.bough 7).part.map (fun q => q.bytes.length) = some 1152 ∧ e.armed .reasm 7 = true ∧ e.counter .stand .burstsReceived 300 = 1 := by decide +kernel

/-- R116: a burst whose delimiter lies 17 symbols off its place is a delimiter miss of its stand. -/
theorem test_delimiter_miss :
    let d := receiving .ordinary .active
    (after (.burstReceive 1 0 (.heard (heard true (some (expectedPos d 1 (entryOf .ordinary) + 17)) none))) (stateOf Cfg.reset d)).counter .stand .delimMiss 300 = 1 := by
  decide +kernel

theorem witness_EngineAndReceiverEvents :
    let d := (runOut .reasm 7 live).updBough 7 (fun x => { x with part := some { keyIndex := 0, bytes := [], stamp := 0, doubt := false, twig := (994, 20000) } })
    let c := cfgWith [(Fields.BGH_BIND_bound, 7, 1), (Fields.BGH_BIND_stand, 7, 300), (Fields.BGH_CTRL_type, 7, 1), (Fields.BGH_POLL_poll_int, 7, 8)]
    (standOfBough c 7 = some 300 ∧ (d.bough 7).part.isSome = true ∧ d.expired .reasm 7 (c.get Fields.GRV_US_CTRL_reasm_ticks (groveOf 300)) = true) ∧
      (8 ≤ (live.setRun .light 2 8).run .light 2 ∧ live.flag Fields.GRV_US_STATUS_rogue 2 = false) ∧
      (boughType c 7 ≠ .fixed ∧ c.get Fields.BGH_POLL_poll_int 7 ≠ 0 ∧ (runOut .poll 7 live).expired .poll 7 (c.get Fields.BGH_POLL_poll_int 7) = true) ∧
      (live.grove 2).computed = none := by decide +kernel

theorem witness_GrantComputationEnds :
    let d := live.updGrove 2 (fun x => { x with inService := true })
    ((live.updGrove 2 (fun x => { x with forceNow := true })).grove 2).forceNow = true ∧
      ((d.grove 2).forceNow = false ∧ d.running = true ∧ (d.grove 2).inService = true ∧ (d.grove 2).abandoned = false ∧ (d.grove 2).computed = none ∧
        clearingAt d 2 (d.sfc + 1) = none ∧ (1024 ≤ 149999 ∧ 149999 < 150000) ∧ (d.grove 2).frame.map DsFrame.sfc ≠ some (d.sfc + 1)) ∧
      d.edgeOpen = false := by decide +kernel

theorem witness_ServiceBeginsAndEnds :
    let c := cfgWith [(Fields.LANE_PON_CTRL_tx_en, 2, 1)]
    let d : Dev := { (live.raise Fields.LANE_PON_STATUS_tx_ready 2) with clock := 0 }
    let e := live.updGrove 2 (fun x => { x with inService := true })
    (compat c 2 = false ∧ compat (cfgWith [(Fields.GRV_MODE_compat, 2, 1)]) 2 = true) ∧ ((d.grove 2).inService = false ∧ txOn c d 2 = true ∧ d.clock = 0) ∧
      ((e.grove 2).inService = true ∧ causeHolds c e 2 .laneLost = true ∧ causeHolds (cfgWith [(Fields.LANE_PON_CTRL_tx_en, 2, 0)]) e 2 .txDisabled = true) := by
  decide +kernel

/-- A device that pairs, in a step, with Plaxon west up. -/
def pairing (step : Nat) : Dev :=
  let d := devWith [(Fields.MATE_STATUS_pair_state, 0, 1), (Fields.LANE_PLX_STATUS_up, 0, 1), (Fields.CLK_STRAP_mate_en, 0, 1)]
  { d with mate := { d.mate with step := step } }

theorem witness_MatePairing :
    let up := (pairing 4).updGrove 2 (fun x => { x with inService := true })
    ((∀ k ∈ [1, 2, 3, 4], (pairing k).get Fields.MATE_STATUS_pair_state 0 = 1 ∧ mateUp Cfg.reset (pairing k) = true ∧
        (pairing k).flag Fields.CLK_STRAP_mate_en 0 = true ∧ (pairing k).mate.step = k) ∧ peerId Cfg.reset ≠ 5 ∧
      Cfg.reset.get Fields.MATE_GRV_EN_LO_groves_lo 0 ≠ 5) ∧ (anyInService up = true ∧ up.mate.step = 4) ∧ anyInService (pairing 4) = false ∧
      (runOut .pairing 0 (pairing 1)).expired .pairing 0 8000 = true := by decide +kernel

theorem witness_PairingSteps_tag (d : Dev) (n : Nat) : confirmTag d (peerId Cfg.reset) true n + 1 ≠ confirmTag d (peerId Cfg.reset) true n := Nat.succ_ne_self _

/-- A paired device in a role. -/
def paired (role : Nat) (xs : List (Fld × Nat × Nat) := []) : Dev :=
  devWith ([(Fields.MATE_STATUS_pair_state, 0, 2), (Fields.MATE_STATUS_role, 0, role), (Fields.LANE_PLX_STATUS_up, 0, 1)] ++ xs)

theorem witness_MateFollowing :
    let d := (paired 2).armNow .plaxonSilent 0 |>.armNow .pinSilent 0
    let e := runOut .pinSilent 0 (runOut .plaxonSilent 0 (paired 2))
    let f : Dev := { paired 1 with mate := { Mate.reset with learnFrom := some 900, bulkEnd := true } }
    (d.isPaired = true ∧ mateUp Cfg.reset d = true ∧ (d.timers.get? (timerKey .plaxonSilent 0)).isSome = true ∧
      (d.timers.get? (timerKey .pinSilent 0)).isSome = true) ∧
      (e.expired .plaxonSilent 0 3 = true ∧ e.flag Fields.MATE_STATUS_plaxon_silent 0 = false ∧ e.expired .pinSilent 0 3 = true ∧
        e.flag Fields.MATE_STATUS_pin_silent 0 = false) ∧
      (f.isPaired = true ∧ f.mate.bulkEnd = true) ∧ (f.mate.learnFrom = some 900 ∧ f.role = 1 ∧ 900 + 8 + pairedLoop Cfg.reset f ≤ f.sfc) := by decide +kernel

theorem witness_TakeoverAndWithdrawal :
    let c := cfgWith [(Fields.MATE_CTRL_auto_takeover, 0, 1), (Fields.MATE_GRV_EN_LO_groves_lo, 0, 4)]
    let d := runOut .pinSilent 0 (runOut .plaxonSilent 0 ({ paired 2 [(Fields.MATE_STATUS_sync_done, 0, 1)] with clock := 0 } : Dev))
    let e := ({ paired 1 [(Fields.MATE_STATUS_fibre_master, 0, 1)] with mate := { Mate.reset with tookAt := some 998, witness := true, peerGroves := 4 } } : Dev).updGrove 2
      (fun x => { x with loopDelay := 6 })
    (d.running = true ∧ d.isStandby = true ∧ d.flag Fields.MATE_STATUS_sync_done 0 = true ∧ c.flag Fields.MATE_CTRL_auto_takeover 0 = true ∧
      d.expired .plaxonSilent 0 3 = true ∧ d.expired .pinSilent 0 3 = true ∧ d.flag Fields.MATE_STATUS_fibre_master 0 = false ∧ d.clock = 0 ∧
      d.get Fields.MATE_LAST_CAUSE_cause 0 ≠ 2) ∧
      (e.mate.tookAt = some 998 ∧ e.role = 1 ∧ e.mate.witness = true ∧ e.flag Fields.MATE_STATUS_fibre_master 0 = true ∧ 998 < e.sfc ∧
        e.sfc ≤ 998 + pairedLoop c e) := by decide +kernel

/-- A mirror frame of the mate, as its key seals it. -/
def mateFrame (d : Dev) : MirrorFrame :=
  let m : MirrorFrame := { tag := 0, n := 999, active := true, phase := 0, sealedAt := 5, items := [], groves := [], bulk := false, ready := true, swap := none }
  { m with tag := mirrorTag d m }

theorem witness_MateHeartbeats (d : Dev) :
    (mateFrame d).tag = mirrorTag d (mateFrame d) ∧ { mateFrame d with tag := (mateFrame d).tag + 1 }.tag ≠ mirrorTag d { mateFrame d with tag := (mateFrame d).tag + 1 } := by
  constructor
  · rfl
  · exact Nat.succ_ne_self _

theorem witness_DoSiDo :
    let c := cfgWith [(Fields.MATE_CTRL_dsd_en, 0, 1), (Fields.MATE_GRV_EN_LO_groves_lo, 0, 4)]
    let day := 86400 * secUnits
    let d : Dev := ({ paired 1 with edgeTime := 2 * day + 10800 * secUnits, prevEdge := 2 * day + 10800 * secUnits - 1, sfc := 2 ^ 40 } : Dev).setDom 0 { set := true, t := 0, left := 0 }
    let b : Dev := { paired 2 with mate := { Mate.reset with swapAt := some 1064 } }
    let s := fun role => ({ paired role with mate := { Mate.reset with swapAt := some 1000, swapOk := some true } } : Dev)
    let r := ({ paired 1 with mate := { Mate.reset with revert := some 990, peerGroves := 4 } } : Dev).updGrove 2 (fun x => { x with loopDelay := 6, lastTally := (20, 20) })
    let a : Dev := { paired 2 with mate := { Mate.reset with revert := some 990 } }
    (c.flag Fields.MATE_CTRL_dsd_en 0 = true ∧ dsdDue c d = true ∧ mayPropose d = true) ∧
      (b.isPaired = true ∧ b.isStandby = true ∧ b.mate.swapAt.isSome = true ∧ b.mate.swapOk = none) ∧
      (∀ k ∈ [1, 2], (s k).isPaired = true ∧ (s k).mate.swapOk = some true ∧ (s k).mate.swapAt = some (s k).sfc) ∧ (s 1).isStandby = false ∧ (s 2).isStandby = true ∧
      (r.mate.revert = some 990 ∧ r.role = 1 ∧ 2 ∈ pairedGroves c r ∧ revertCause c r 990 2 = true) ∧
      (a.mate.revert = some 990 ∧ a.role = 2 ∧ a.mate.peerActive = false) ∧ d.mate.swapAt = none ∧ mateDead r = false ∧ mateDead (s 1) = false ∧
      mateDead (runOut .pinSilent 0 (runOut .plaxonSilent 0 r)) = true ∧
      (let b : Dev := { r with edgeOpen := true, mate := { r.mate with peerActive := true } }.set Fields.MATE_STATUS_role 0 2;
        b.edgeOpen = true ∧ b.role = 2 ∧ 2 ∈ pairedGroves c b ∧ inRevert b 990 2 = true) := by decide +kernel

/-! ### Register accesses -/

/-- A write is accepted, as a test. -/
def accepted (s : State) (m : Nat) (r : Reg) (i w : Nat) : Bool :=
  makesAccess m && (judgeReg s.cfg s.dev m r i (some w) == none) && (checkReg s.cfg s.looked.dev m r i w == .ok)

theorem accepted_iff (s : State) (m : Nat) (r : Reg) (i w : Nat) : accepted s m r i w = true ↔ WriteAccepted s m r i w := by
  simp [accepted, WriteAccepted, and_assoc]

/-- A running device with grove 1 in service, mate_en, and stand 300 ACTIVE with its keys in place. -/
def serving : Dev :=
  let d := devWith [(Fields.CLK_STRAP_mate_en, 0, 1), (Fields.LANE_PLX_STATUS_up, 0, 1)]
  let d := (standIn 300 .active d).updGrove 1 (fun x => { x with inService := true, loopDelay := 6 })
  d.updKeys 300 (fun k => { k with ready := true })

theorem witness_LineCommands :
    let s := stateOf Cfg.reset serving
    let k := stateOf (cfgWith [(Fields.GRV_MODE_compat, 1, 1)]) serving
    accepted s 0 .GRV_US_RSSI_CTRL 1 (2 ^ 31) = true ∧ accepted s 0 .GRV_US_CAP_CTRL 1 (2 ^ 31) = true ∧
      accepted s 0 .GRV_CLEARING_CTRL 1 (Cfg.reset.word .GRV_CLEARING_CTRL 1 ||| 2) = true ∧
      accepted s 0 .GRV_RNG_CMD 1 (2 ^ 31 + 2 ^ 16 + 44) = true ∧ accepted s 0 .GRV_RNG_CMD 1 (2 ^ 31 + 3 * 2 ^ 16 + 44) = true ∧
      accepted (stateOf Cfg.reset live) 0 .GRV_RNG_CMD 1 (2 ^ 31 + 2 * 2 ^ 16 + 44) = true ∧
      accepted (stateOf Cfg.reset (standIn 300 .discovered)) 0 .STD_CMD 300 (2 ^ 31 + 1) = true ∧ accepted s 0 .STD_CMD 300 (2 ^ 31 + 2) = true ∧
      accepted (stateOf Cfg.reset (standIn 300 .silenced)) 0 .STD_CMD 300 (2 ^ 31 + 3) = true ∧ accepted s 0 .STD_CMD 300 (2 ^ 31 + 4) = true ∧
      accepted s 0 .GRV_MSG_TX_CMD 1 (2 ^ 31 + 44) = true ∧ accepted k 0 .GRV_CPT_OMCI_TXCTL 1 (2 ^ 31 + 44 + 512 * 8) = true ∧
      accepted s 0 .GNT_GRV_CTRL 1 (cfgShown Cfg.reset .GNT_GRV_CTRL 1 ||| 2 ^ 31) = true ∧ accepted s 0 .GRV_MSG_RX_STAT 1 (2 ^ 31) = true ∧
      accepted k 0 .GRV_CPT_OMCI_RXSTAT 1 (2 ^ 31) = true := by decide +kernel

/-- A paired active device that may propose a role swap. -/
def swapping : Dev := paired 1 [(Fields.CLK_STRAP_mate_en, 0, 1)]

theorem witness_DeviceCommands :
    let s := stateOf Cfg.reset serving
    let r := stateOf Cfg.reset (devWith [(Fields.CLK_STATUS_ready, 0, 2 ^ 16 - 1)])
    let x := stateOf Cfg.reset swapping
    let a := cfgShown Cfg.reset .MATE_CTRL 0
    (accepted (stateOf (cfgWith [(Fields.TICK_CTRL_phase_src, 0, 1)]) live) 0 .TICK_CTRL 0 (4 + 1) = true ∧ accepted r 0 .CLK_CTRL 0 (2 ^ 31) = true ∧
      accepted s 0 .CLK_CTRL 0 (2 ^ 30) = true ∧ accepted s 0 .CFG_FLASH_CMD 0 (2 ^ 31 + 2 ^ 28 + 16) = true ∧
      accepted s 0 .CFG_FLASH_CMD 0 (2 ^ 31 + 2 * 2 ^ 28 + 16) = true ∧ accepted s 0 .CFG_FLASH_CMD 0 (2 ^ 31 + 3 * 2 ^ 28) = true ∧
      accepted s 0 .CFG_CHECK 0 (2 ^ 31 + 256 * 1) = true) ∧
    (accepted s 0 .TIME_X_CMD 0 (2 ^ 31 + 1) = true ∧
      accepted (stateOf Cfg.reset (live.setDom 0 { set := true, t := 0, left := 0 })) 0 .TIME_X_CMD 0 (2 ^ 31 + 2) = true ∧
      accepted (stateOf (pipeCfg 0) pipeDev) 0 .TIME_TX_CTRL 0 ((6 * 2 ^ 24 + 64) ||| 2 ^ 31) = true ∧ accepted s 0 .TIME_CAP_STAT 0 (2 ^ 31) = true ∧
      accepted s 0 .CNT_SMP_POP 3 (2 ^ 31) = true) ∧
    (accepted s 0 .MATE_CTRL 0 (a ||| 2 ^ 31) = true ∧ accepted x 0 .MATE_CTRL 0 (a ||| 2 ^ 30) = true ∧
      accepted x 0 .MATE_CTRL 0 (a ||| 2 ^ 29) = true ∧ a / 2 ^ 29 = 0 ∧ mayPropose x.dev = true) := by decide +kernel

theorem witness_DeviceCommands_keys :
    let s := stateOf Cfg.reset serving
    accepted s 0 .KEY_CMD 0 (2 ^ 31 + 1 * 2 ^ 24 + 300 % 65536) = true ∧ (s.dev.keysOf 300).queued = false ∧ (s.dev.keysOf 300).agree = .idle ∧
      (s.dev.keysOf 300).retiring = none ∧
      (∀ n ∈ [2, 3, 4, 5, 6], accepted s 0 .KEY_CMD 0 (2 ^ 31 + n * 2 ^ 24 + 50400 % 65536) = true) ∧
      (∀ n ∈ [7, 8], accepted s 0 .KEY_CMD 0 (2 ^ 31 + n * 2 ^ 24 + 300 % 65536) = true) ∧ compat Cfg.reset (groveOf 300) = false ∧
      (let k := stateOf (cfgWith [(Fields.GRV_MODE_compat, 1, 1)]) serving;
        accepted k 0 .KEY_CMD 0 (2 ^ 31 + 1 * 2 ^ 24 + 300 % 65536) = true ∧ compat k.cfg (groveOf 300) = true) := by decide +kernel

/-- Slices 5 (upstream, stand 300) and 6 (downstream) of four slots each are enabled. -/
def connCfg : Cfg := cfgWith [(Fields.SLC_SL_CTRL_en, 5, 1), (Fields.SLC_SL_CTRL_dir, 5, 1), (Fields.SLC_SL_SLOTS_n, 5, 4), (Fields.SLC_SL_CTRL_en, 6, 1),
  (Fields.SLC_SL_SLOTS_n, 6, 4)]

theorem witness_TrafficCommands :
    let s := stateOf Cfg.reset live
    let l := stateOf Cfg.reset { live with locks := [(2, 0)] }
    accepted (stateOf connCfg live) 0 .SLC_CONN_CMD 0 (2 ^ 31 + 2 ^ 28 + (5 + 6 * 2 ^ 16) % 2 ^ 28) = true ∧
      accepted (stateOf connCfg live) 0 .SLC_CONN_CMD 0 (2 ^ 31 + 2 * 2 ^ 28 + (5 + 6 * 2 ^ 16) % 2 ^ 28) = true ∧
      (∀ n ∈ [1, 2, 3, 4], accepted s 0 .SLC_PG_CMD 3 (2 ^ 31 + n) = true) ∧
      accepted s 0 .PIPE_RS_CTRL 0 (cfgShown Cfg.reset .PIPE_RS_CTRL 0 ||| 2 ^ 31) = true ∧ accepted s 0 .TBL_LOCK 2 1 = true ∧ accepted l 0 .TBL_LOCK 2 0 = true ∧
      accepted l 0 .TBL_LOCK 2 2 = true ∧ (∀ n ∈ [1, 2, 3], accepted s 0 .ASC_WIN_CMD 0 (2 ^ 31 + n * 2 ^ 28 + 5) = true) ∧
      accepted s 0 .BUF_DEEP_CTRL 0 (2 ^ 31) = true := by decide +kernel

/-- A write of the silence time of grove 3 (R185), as a command. -/
def silenceWrite (m : Fin 20) (v : Word) : Instr := .registerWrite m .bar0 17584132 v 15

/-- Its address is that register's. -/
theorem test_silence_address : (decodeAddr 17584132).map (fun p => (p.1.reg, p.2)) = some (.GRV_STD_SILENCE_T, 3) := by decide +kernel

/-- That command is a write of that register. -/
theorem writes_silence (s : State) (m : Fin 20) (v : Word) : Writes s (silenceWrite m v) m .GRV_STD_SILENCE_T 3 v.toNat := by
  obtain ⟨⟨x, i⟩, h, e⟩ := Option.map_eq_some_iff.1 test_silence_address
  simp only [Prod.mk.injEq] at e
  obtain ⟨hr, rfl⟩ := e
  exact hr ▸ Writes.registerWrite m 17584132 v x _ h (fun e => absurd (hr.symm.trans e) (by decide))

theorem witness_AcceptedWrites :
    let s := stateOf Cfg.reset live
    Writes s (silenceWrite 0 77) 0 .GRV_STD_SILENCE_T 3 77 ∧ WriteAccepted s 0 .GRV_STD_SILENCE_T 3 77 ∧
      ¬ (Reg.GRV_STD_SILENCE_T = .CLK_CTRL ∧ Nat.testBit 77 30 = true) :=
  ⟨writes_silence _ 0 77, (accepted_iff ..).1 (by decide +kernel), by decide⟩

theorem witness_RejectedWrites :
    let s := stateOf Cfg.reset live
    Writes s (silenceWrite 0 0xFFFFFFFF) 0 .GRV_STD_SILENCE_T 3 0xFFFFFFFF ∧ judgeReg s.cfg s.dev 0 .GRV_STD_SILENCE_T 3 (some 0xFFFFFFFF) = none ∧
      checkReg s.cfg s.looked.dev 0 .GRV_STD_SILENCE_T 3 0xFFFFFFFF = .badValue ∧ ownEntry 0 .GRV_STD_SILENCE_T 3 = false ∧
      Writes s (silenceWrite 1 7) 1 .GRV_STD_SILENCE_T 3 7 ∧ judgeReg s.cfg s.dev 1 .GRV_STD_SILENCE_T 3 (some 7) = some .denied :=
  ⟨writes_silence _ 0 0xFFFFFFFF, by decide +kernel, by decide +kernel, by decide +kernel, writes_silence _ 1 7, by decide +kernel⟩

/-- The hold of PF0 is set. -/
def heldCfg : Cfg := cfgWith [(Fields.TICK_STAGE_CTL_hold, 0, 1)]

theorem witness_HoldAndRelease :
    let s := stateOf heldCfg live
    WriteAccepted (stateOf Cfg.reset live) 0 .TICK_STAGE_CTL 0 1 ∧
      (holding s.cfg 0 = true ∧ Writes s (silenceWrite 0 77) 0 .GRV_STD_SILENCE_T 3 77 ∧ WriteAccepted s 0 .GRV_STD_SILENCE_T 3 77 ∧
        Reg.GRV_STD_SILENCE_T.staged = true) ∧ s.dev.running = true ∧ WriteAccepted s 0 .TICK_STAGE_CTL 0 0 :=
  ⟨(accepted_iff ..).1 (by decide +kernel), ⟨by decide +kernel, writes_silence _ 0 77, (accepted_iff ..).1 (by decide +kernel), by decide +kernel⟩,
    by decide +kernel, (accepted_iff ..).1 (by decide +kernel)⟩

/-- A full staging area. -/
def fullCfg : Cfg :=
  { Cfg.reset with staged := List.replicate 4096 { master := 0, reg := .GRV_STD_SILENCE_T, idx := 3, mask := 0, value := 0, cyc := 0, due := none } }

theorem witness_StagingFull :
    let s := stateOf fullCfg live
    s.cfg.fill = 4096 ∧ Writes s (silenceWrite 0 77) 0 .GRV_STD_SILENCE_T 3 77 ∧ makesAccess 0 = true ∧ Reg.GRV_STD_SILENCE_T.staged = true ∧
      judgeReg s.cfg s.dev 0 .GRV_STD_SILENCE_T 3 (some 77) = none ∧ modeCheck s.cfg s.looked.dev .GRV_STD_SILENCE_T 3 77 = .ok ∧
      inRange .GRV_STD_SILENCE_T 77 = true :=
  ⟨by decide +kernel, writes_silence _ 0 77, by decide, by decide +kernel, by decide +kernel, by decide +kernel, by decide +kernel⟩

theorem witness_ReadsAndStrays :
    let s := stateOf Cfg.reset live
    (decodeAddr (0 / 4 * 4)).map (fun p => (p.1.reg, p.2)) = some (.TOP_ID, 0) ∧ judgeReg s.cfg s.dev 0 .TOP_ID 0 none = none ∧ lowWord .TOP_ID 0 = none ∧
      judgeReg s.cfg s.dev 1 .TOP_ID 0 none = some .denied ∧ judgeAddr s.cfg s.dev 0 (0 / 4 * 4) (some 0) = none ∧ ownEntry 0 .TOP_ID 0 = false ∧
      decodeAddr (0xB00000 / 4 * 4) = none ∧ judgeAddr s.cfg s.dev 0 (0xB00000 / 4 * 4) none = none ∧ judgeAddr s.cfg s.dev 0 (0xB00000 / 4 * 4) (some 0) = none ∧
      judgeReg s.cfg s.dev 0 .GRV_MSG_TX_DONE2 3 none = none := by decide +kernel

/-- The address of CLK_PWR. -/
def pwrAddr : Nat := addrOf .CLK_PWR 0

theorem witness_RejectedWrites_paired :
    let s := stateOf Cfg.reset (paired 1)
    s.dev.isPaired = true ∧ makesAccess 0 = true ∧ (decodeAddr (pwrAddr / 4 * 4)).map (fun p => (p.1.reg, p.2)) = some (.CLK_PWR, 0) ∧ pwrAddr < 536870912 ∧
      judgeReg s.cfg s.dev 0 .CLK_PWR 0 (some 1) = none ∧
      judgeReg s.cfg s.dev 0 .CLK_PWR 0 (some (setBits (cfgShown s.cfg .CLK_PWR 0) 0 2 1)) = none := by decide +kernel

/-- Addresses of a low word, of another word of its group, and of a register of no group. -/
def readAddrs : List (Reg × Nat) := [(.TIME_EDGE_SFC_LO, 0), (.TIME_EDGE_NS, 0), (.TOP_ID, 0)]

theorem witness_ReadsComplete :
    let s := stateOf Cfg.reset live
    makesAccess 0 = true ∧
      (∀ x ∈ readAddrs, (decodeAddr (addrOf x.1 x.2 / 4 * 4)).map (fun p => (p.1.reg, p.2)) = some x ∧ addrOf x.1 x.2 < 536870912 ∧
        judgeReg s.cfg s.dev 0 x.1 x.2 none = none) ∧
      (lowWord .TIME_EDGE_SFC_LO 0 = none ∧ otherWords .TIME_EDGE_SFC_LO ≠ [] ∧ lowWord .TIME_EDGE_NS 0 = some (.TIME_EDGE_SFC_LO, 0) ∧ otherWords .TOP_ID = []) ∧
      judgeReg s.cfg s.dev 0 .GRV_MSG_TX_DONE2 3 none = none := by decide +kernel

/-- R9: a low word latches its group for the master that reads it, and no other. -/
theorem test_latched_read :
    let s := stateOf Cfg.reset (devWith [(Fields.TIME_EDGE_NS_ns, 0, 77)])
    let d := (addrOf .TIME_EDGE_SFC_LO 0, addrOf .TIME_EDGE_NS 0)
    let t := readAt 0 d.2 15 (readAt 0 d.1 15 s)
    let u := readAt 1 d.2 15 (readAt 0 d.1 15 s)
    t.dev.outbox.head? = some (.readData 0 d.2 77) ∧ u.dev.outbox.head? ≠ some (.readData 1 d.2 77) := by decide +kernel

theorem witness_MapFreezeCompletes :
    live.running = true ∧ ((live.updGrove 2 (fun x => { x with inService := true })).grove 2).inService = true := by decide +kernel

/-- Source 528 has priority 3 on vector 5 of function 0, and so has source 529. -/
def intCfg : Cfg := cfgWith [(Fields.INT_SRC_priority, 528, 3), (Fields.INT_SRC_vector, 528, 5), (Fields.INT_SRC_priority, 529, 3), (Fields.INT_SRC_vector, 529, 5)]

/-- Rings 0 and 1 have finished a descriptor, and the function's MSI-X is enabled with the vector's mask clear. -/
def intDev : Dev :=
  let d := devWith [(Fields.INT_DEV_CAUSE_ring_done, 0, 3)]
  ({ d with msixEn := [0] } : Dev).updVec 5 (fun x => { x with masked := false })

/-- A claim takes source 528. -/
def served (f v : Nat) : Dev := { intDev with inServ := (intDev.inServ.put 528 { vec := f * 64 + v, last := true, released := false }) }

theorem witness_InterruptsAndEndpoint :
    let s := stateOf intCfg intDev
    makesAccess 0 = true ∧ judgeReg s.cfg s.dev 0 .INT_CLAIM (0 * 64 + 5) none = none ∧ claimable s.cfg s.dev (0 * 64 + 5) = some 528 ∧
      claimable s.cfg s.dev (0 * 64 + 6) = none ∧ WriteAccepted (stateOf intCfg (served 0 5)) 0 .INT_COMPLETE (0 * 64 + 5) 528 ∧
      (functionUp s.dev 0 = true ∧ s.dev.msixEn.contains 0 = true ∧ (s.dev.vec 5).out = false ∧ pendingOn s.cfg s.dev 5 ≠ [] ∧ (s.dev.vec 5).masked = false ∧
        s.dev.funcMask.contains 0 = false ∧ (s.dev.vec 5).pba = false) :=
  ⟨by decide, by decide +kernel, by decide +kernel, by decide +kernel, (accepted_iff ..).1 (by decide +kernel), by decide +kernel⟩

/-- No other source has a priority. -/
theorem test_priorities :
    ∀ a < 64, ∀ b < 48, srcPriority intCfg (48 * a + b) ≠ 0 → 48 * a + b = 528 ∨ 48 * a + b = 529 := by decide +kernel

/-- The only pending sources of vector 5 are those two. -/
theorem pends_five (x : Nat) (h : pendsOn (stateOf intCfg intDev) 5 x) : x = 528 ∨ x = 529 := by
  have h := h.1
  simp only [stateOf, srcPending, sourceListed, Bool.and_eq_true] at h
  have hx : x < 3072 := by have := of_decide_eq_true h.1.1.1; omega
  have := test_priorities (x / 48) (by omega) (x % 48) (by omega)
  rw [show 48 * (x / 48) + x % 48 = x from Nat.div_add_mod x 48] at this
  exact this (of_decide_eq_true h.1.2)

theorem witness_SourceClaimed :
    let s := stateOf intCfg intDev
    pendsOn s 5 528 ∧ (∀ x, pendsOn s 5 x → srcPriority s.cfg x < srcPriority s.cfg 528 ∨ (srcPriority s.cfg x = srcPriority s.cfg 528 ∧ 528 ≤ x)) ∧
      pendingOn s.cfg s.dev 6 = [] := by
  refine ⟨by unfold pendsOn; decide +kernel, fun x h => ?_, by decide +kernel⟩
  rcases pends_five x h with rfl | rfl <;> decide +kernel

theorem witness_SourceCompleted :
    let s := stateOf intCfg (served 0 5)
    judgeReg s.cfg s.dev 0 .INT_COMPLETE (0 * 64 + 5) (some 528) = none ∧ s.dev.inServ.get? 528 = some { vec := 5, last := true, released := false } ∧
      (sourceListed 528 = true ∧ asserted s.dev 528 = true ∧ srcPriority s.cfg 528 ≠ 0) ∧
      judgeReg s.cfg s.dev 0 .INT_COMPLETE (0 * 64 + 6) (some 528) = none ∧ (5 : Nat) ≠ 0 * 64 + 6 := by decide +kernel

theorem witness_Invariants :
    ∃ s t : State, s.cfg.regs.canonical (cfgBase s.cfg.alone) ∧ s.bounded ∧ step s = .next t :=
  ⟨State.reset, State.reset.withDev { State.reset.dev with cyc := State.reset.dev.cyc + 1 }, ⟨rfl, fun _ h => nomatch h⟩,
    ⟨by decide, fun g => ⟨Nat.zero_le _, Nat.zero_le _, Nat.zero_le _⟩, Nat.zero_le _, fun p => Nat.zero_le _, by decide⟩, rfl⟩

/-! ### Ill-formed commands -/

/-- A burst that the receiver handed on. -/
def someBurst : RxBurst := { locked := true, pos := none, header := none, cws := [], eq := none, reports := [], sdus := [] }

/-- A map part of a mirror frame. -/
def someEntry : MirrorEntry := { stand := 44, start := 0, len := 4, cls := 1, rpt := false, msg := false, runs := [(16, 4)] }

/-- A mirror frame with nothing in it. -/
def someMirror : MirrorFrame := { tag := 0, n := 0, active := true, phase := 0, sealedAt := 0, items := [], groves := [], bulk := false, ready := false, swap := none }

/-- A descriptor with no records. -/
def someDesc : Desc := { words := [0x10000001, 0, 64, 0, 0, 0, 0, 0], recs := [], fault := none }

theorem test_wellFormed_accepts :
    (Instr.commitEdge { light := [63], clamp := [65], trim := 0 }).wellFormed ∧ (Instr.burstReceive 1 0 (.heard someBurst)).wellFormed ∧
      (Instr.burstReceive 1 0 (.line { start := 0, levels := [3, -3], tone := none, eq := none })).wellFormed ∧
      (Instr.read 0 { someDesc with recs := [.bridge 1 true false 0 5 0] }).wellFormed := by decide

theorem test_wellFormed_refuses :
    (∀ c ∈ [Instr.commitEdge { light := [64], clamp := [], trim := 0 }, .commitEdge { light := [], clamp := [66], trim := 0 },
        .burstReceive 1 0 (.heard { someBurst with header := some [1, 2, 3] }), .burstReceive 1 0 (.heard { someBurst with reports := [(2 ^ 14, 0)] }),
        .burstReceive 1 0 (.heard { someBurst with sdus := [(2 ^ 16, [])] }), .burstReceive 1 0 (.line { start := 0, levels := [2], tone := none, eq := none }),
        .serialNumberOnu 1 (2 ^ 48) 0 0 0 0, .serialNumberOnu 1 0 0 (2 ^ 64) 0 0, .serialNumberOnu 1 0 0 0 0 (2 ^ 64), .keyReport 300 0 (2 ^ 160 * 2 ^ 160) 0,
        .keyReport 300 0 0 (2 ^ 64), .ploamRegistrationRx 300 0 (2 ^ 64), .ploamUnsupported 1 256, .omciRx 300 (List.replicate 2049 0) 0, .omciRx 300 [] (2 ^ 32),
        .packetPass 0 { replays := 0, ring := some (some { prio := 16, pos := 0, act := 0 }) },
        .recircPass 0 { replays := 0, ring := some (some { prio := 0, pos := 2 ^ 22, act := 0 }) },
        .cascadeKeyRx { width := 4, base := 0, banks := 0, key := 0, best := none }, .cascadeKeyRx { width := 0, base := 0, banks := 0, key := 2 ^ 64, best := none }],
      c.wellFormed = false) ∧
    (∀ c ∈ [Instr.bufferFree 0 0 (2 ^ 26) 0 0, .bufferFree 0 0 0 256 0, .flowPacketRx 0 (2 ^ 32) [],
        .mirrorFrameRx { someMirror with n := 2 ^ 48 }, .mirrorFrameRx { someMirror with tag := 2 ^ 128 }, .mirrorFrameRx { someMirror with sealedAt := 187500 },
        .mirrorFrameRx { someMirror with items := [.epoch 300 2 none] },
        .mirrorFrameRx { someMirror with groves := [{ g := 1, d := 0, mark := 0, ud := 0, frame := 0, map := [someEntry] }] },
        .pairingMessageRx (.identity (2 ^ 256) 0 0 []), .pairingMessageRx (.confirm 0 true (2 ^ 48)), .pairingMessageRx (.confirm (2 ^ 128) true 0),
        .startUp { devnum := 0, xoWait := 0, cfgSrc := 0, mateEn := false, flash := true, cxl := [(2, false, 0)] },
        .startUp { devnum := 0, xoWait := 0, cfgSrc := 0, mateEn := false, flash := true, cxl := [(1, false, 0), (1, false, 0)] },
        .pairingMessageRx (.fail 256), .mirrorFrameRx { someMirror with items := [.sharedCur 576 0] },
        .write 0 { someDesc with words := [1] }, .write 0 { someDesc with words := [0x20000000, 0, 4, 0, 0, 0, 0, 0] },
        .write 0 { someDesc with words := [0x20000001, 0, 0, 0, 0, 0, 0, 0] }, .write 0 { someDesc with words := [2 ^ 32, 0, 0, 0, 0, 0, 0, 0] },
        .read 0 { someDesc with recs := [.lpm4 0 0 0] }, .read 0 { someDesc with recs := [.bridge (2 ^ 64) true false 0 0 0] }],
      c.wellFormed = false) := by decide +kernel

end Sys2Proof.Tests
end

section
/-!
SUPPORT. Which operations of the device and of the configuration leave the staging area as it is.
-/

namespace Sys2Proof.Machine

/-! ## Configurations whose staging area is the same -/

section Staged
variable (c : Cfg)

-- `(rfl)` and not `rfl`: rewriting with these two, and not unfolding a write of a named register, keeps the terms small for the kernel.
@[simp] theorem Cfg.set_staged (x : Fld) (i v : Nat) : (c.set x i v).staged = c.staged := (rfl)
@[simp] theorem Cfg.setWord_staged (r : Reg) (i v : Nat) : (c.setWord r i v).staged = c.staged := (rfl)

/-- A fold of changes that each keep the staging area keeps it. -/
theorem foldl_staged {β : Type} {f : Cfg → β → Cfg} (hf : ∀ c b, (f c b).staged = c.staged) (xs : List β) : (xs.foldl f c).staged = c.staged :=
  List.foldlRecOn (motive := fun c' : Cfg => c'.staged = c.staged) xs f rfl (fun c' h b _ => (hf c' b).trans h)

@[simp] theorem Cfg.setAll_staged (x : Fld) (is : List Nat) (v : Nat → Nat) : (c.setAll x is v).staged = c.staged :=
  foldl_staged c (fun c i => c.set_staged x i (v i)) is

@[simp] theorem Cfg.writeNow_staged (r : Reg) (i w : Nat) : (c.writeNow r i w).staged = c.staged := by
  unfold Cfg.writeNow
  extract_lets k
  split <;> rfl

@[simp] theorem Cfg.putBytes_staged (r : Reg) (n : Nat) : ∀ (c : Cfg) (i : Nat) (bs : List Byte), (c.putBytes r i n bs).staged = c.staged := by
  induction n with
  | zero => exact fun _ _ _ => rfl
  | succ n ih => exact fun c i bs => ih (c.setWord r i (ofBytesBE (padTo 4 bs))) (i + 1) (bs.drop 4)

@[simp] theorem putKeyBuf_staged (off : Nat) (bs : List Byte) : (putKeyBuf c off bs).staged = c.staged := Cfg.putBytes_staged _ _ _ _ _

theorem fixBough_staged (b rate : Nat) : (fixBough b rate c).staged = c.staged := by simp [fixBough]

@[simp] theorem sliceBinds_staged (old new : Cfg) : (sliceBinds old new).staged = new.staged := by
  have hfix (rate : Nat × Nat → Nat) (xs : List (Nat × Nat)) (c : Cfg) : (xs.foldl (fun c p => fixBough p.1 (rate p) c) c).staged = c.staged := by
    apply foldl_staged
    exact fun c p => fixBough_staged c p.1 (rate p)
  unfold sliceBinds
  extract_lets off on
  rw [hfix (fun p => 256 * p.2), hfix (fun _ => 0)]

@[simp] theorem clampTx_staged (lane : Nat) : (clampTx lane c).staged = c.staged := by simp [clampTx]

/-! ### The ends of operations -/

theorem keyCmdEffect_staged (k : KeyCmd) (d : Dev) : (keyCmdEffect k c d).2.1.staged = c.staged := by
  have hseal : (sealBuf k c d).2.1.staged = c.staged := by
    unfold sealBuf
    split <;> simp
  have hopen : (openBuf k c d).2.1.staged = c.staged := by
    unfold openBuf
    extract_lets buf nonce tag r
    split <;> simp
  unfold keyCmdEffect
  split_ifs <;> simp [hseal, hopen]

theorem keyCommandDone_staged (s : State) : (keyCommandDone s).cfg.staged = s.cfg.staged := by
  unfold keyCommandDone
  split
  · rfl
  · exact keyCmdEffect_staged _ _ _

theorem winDone_staged (s : State) : (winDone s).cfg.staged = s.cfg.staged := by
  have hload (e : AscEntry) (c : Cfg) : (winLoad e c).staged = c.staged := by simp [winLoad]
  have heff (k : WinCmd) : (winEffect k s.cfg s.dev).2.1.staged = s.cfg.staged := by
    unfold winEffect
    split
    · rfl
    · split_ifs
      · exact hload _ _
      all_goals rfl
  unfold winDone
  split
  · rfl
  · exact heff _

theorem flashDone_staged (ok : Bool) (s : State) : (flashDone ok s).cfg.staged = s.cfg.staged := by
  have heff (op : FlashOp) : (flashEffect op s.cfg s.dev).1.staged = s.cfg.staged := by
    cases op with
    | read a n => exact Cfg.putBytes_staged _ _ _ _ _
    | program | erase | check => rfl
  unfold flashDone
  split
  · rfl
  · split
    · exact heff _
    · rfl

theorem rsCopyDone_staged (s : State) : (rsCopyDone s).cfg.staged = s.cfg.staged := by
  have hreg (a b : Nat) (c : Cfg) (r : Reg) : (copyBankReg a b r c).staged = c.staged := by
    unfold copyBankReg
    extract_lets n words cleared
    rw [foldl_staged _ (fun c p => Cfg.setWord_staged c r _ _)]
  unfold rsCopyDone
  split
  · exact foldl_staged _ (hreg _ _) _
  · rfl

/-! ### The stand-alone defaults -/

theorem applyDefaults_staged (dark : Bool) (s : State) : (applyDefaults dark s).cfg.staged = s.cfg.staged := by
  have hregs (c : Cfg) : (defaultRegs dark c).staged = c.staged := by
    unfold defaultRegs
    cases dark <;> simp [aloneBoughs]
  have hrules (c : Cfg) : (defaultRules c).staged = c.staged := by simp [defaultRules, setExt, setSlot, setAction]
  unfold applyDefaults
  extract_lets c
  exact (hrules _).trans (hregs _)

/-! ### Reads -/

theorem hostRead_cfg (m : Nat) (r : Reg) (i : Nat) (s : State) : (hostRead m r i s).cfg = s.cfg := by
  unfold hostRead
  split
  · rfl
  · split <;> rfl

theorem readAt_cfg (m addr be : Nat) (s : State) : (readAt m addr be s).cfg = s.cfg := by
  unfold readAt
  split_ifs
  · rfl
  · rfl
  · split
    · exact hostRead_cfg _ _ _ _
    · split <;> rfl

end Staged

end Sys2Proof.Machine
end

section
/-!
SUPPORT. The fill of the staging area (R36), the checks of a register with staged fields, and what a write of a master leaves in the staging area (R34, R36, R37).
-/

namespace Sys2Proof.Machine

/-! ## The fill of the staging area -/

/-- The fill counts the staged writes alone. -/
theorem Cfg.fill_of_staged {c c' : Cfg} (h : c'.staged = c.staged) : c'.fill = c.fill := by simp [Cfg.fill, h]

/-- What maps staged writes to staged writes of the same masters keeps the fill. -/
theorem Cfg.fill_of_map {c c' : Cfg} {f : Staged → Staged} (hf : ∀ x, (f x).master = x.master) (h : c'.staged = c.staged.map f) : c'.fill = c.fill := by
  simp [Cfg.fill, h, List.filter_map, Function.comp_def, hf]

/-- What takes staged writes out does not raise the fill. -/
theorem Cfg.fill_le_of_sublist {c c' : Cfg} (h : c'.staged.Sublist c.staged) : c'.fill ≤ c.fill := (h.filter _).length_le

theorem Cfg.fill_append {c c' : Cfg} {x : Staged} (h : c'.staged = c.staged ++ [x]) : c'.fill = c.fill + if x.master = 18 then 0 else 1 := by
  by_cases hx : x.master = 18 <;> simp [Cfg.fill, h, hx]

/-- The entry of the staging area that a write takes (R34, R37). -/
theorem Cfg.stageWrite_staged (d : Dev) (m : Nat) (r : Reg) (i mask w : Nat) (c : Cfg) :
    (c.stageWrite d m r i mask w).staged = c.staged ++
      [{ master := m, reg := r, idx := i, mask := mask, value := w, cyc := d.cyc, due := if holding c m then none else some (dueEdge d) }] := (rfl)

theorem Cfg.release_staged (d : Dev) (m : Nat) (c : Cfg) :
    (c.release d m).staged = c.staged.map (fun x => if x.master = m ∧ x.due = none then { x with due := some (dueEdge d) } else x) := by
  simp [Cfg.release]

theorem Cfg.release_fill (d : Dev) (m : Nat) (c : Cfg) : (c.release d m).fill = c.fill :=
  Cfg.fill_of_map (fun x => by split <;> rfl) (Cfg.release_staged d m c)

/-! ## Registers with staged fields -/

/-- A register with staged fields is none of those without. -/
theorem Reg.ne_of_staged {r q : Reg} (hr : r.staged = true) (hq : q.staged = false) : r ≠ q := by
  rintro rfl
  simp [hr] at hq

theorem Reg.readOnly_of_staged {r : Reg} (h : r.staged = true) : r.readOnly = false := by
  obtain ⟨f, hf, hty⟩ := List.any_eq_true.mp h
  refine List.all_eq_false.mpr ⟨f, hf, ?_⟩
  rw [eq_of_beq hty]
  decide

theorem counterReg_of_staged {r : Reg} (h : r.staged = true) : counterReg r = false := by
  have h1 := Reg.ne_of_staged h (q := .CNT_DEV_LO) (by decide)
  have h2 := Reg.ne_of_staged h (q := .CNT_DEV_HI) (by decide)
  have h3 := Reg.ne_of_staged h (q := .CNT_WIN_LO) (by decide)
  have h4 := Reg.ne_of_staged h (q := .CNT_WIN_HI) (by decide)
  simp [counterReg, h1, h2, h3, h4]

theorem ownEntry_of_staged {m : Nat} {r : Reg} {i : Nat} (h : r.staged = true) : ownEntry m r i = false := by
  have h1 := Reg.ne_of_staged h (q := .TOP_LAST_STAT) (by decide)
  have h2 := Reg.ne_of_staged h (q := .TOP_LAST_ADDR) (by decide)
  have h3 := Reg.ne_of_staged h (q := .TOP_FIRST_ADDR) (by decide)
  have h4 := Reg.ne_of_staged h (q := .TOP_LAST_SFC) (by decide)
  simp [ownEntry, h1, h2, h3, h4]

theorem stageFull_iff {c : Cfg} {m : Nat} {r : Reg} (hr : r.staged = true) (hm : m ≠ 18) : stageFull c m r = true ↔ stageRoom ≤ c.fill := by
  simp [stageFull, hr, hm]

/-- The checks of a register with staged fields, in their order. -/
theorem checkReg_of_staged {c : Cfg} {d : Dev} {m : Nat} {r : Reg} {i w : Nat} (hr : r.staged = true) :
    checkReg c d m r i w = if modeCheck c d r i w = .ok then
        if inRange r w = false then rangeStatus r
        else (checkBlock c (c.judged m) ((c.accept d m r i w).judged m) d m r i w).orElse (need (!(stageFull c m r)) .noRoom)
      else modeCheck c d r i w := by
  simp [checkReg, counterReg_of_staged hr, Reg.readOnly_of_staged hr]

/-- A write of a register with staged fields is refused where the staging area is full for its master (R36). -/
theorem checkReg_ne_ok_of_full {c : Cfg} {d : Dev} {m : Nat} {r : Reg} {i w : Nat} (hr : r.staged = true) (hf : stageFull c m r = true) :
    checkReg c d m r i w ≠ .ok := by
  rw [checkReg_of_staged hr, hf]
  split
  · split
    · unfold rangeStatus
      split <;> decide
    · unfold Status.orElse
      split
      · decide
      · assumption
  · assumption

/-- Where no other check refuses it, such a write is refused for want of room (R36). -/
theorem checkReg_noRoom_of_full {c : Cfg} {d : Dev} {m : Nat} {r : Reg} {i w : Nat} (hr : r.staged = true) (hf : stageFull c m r = true)
    (hmode : modeCheck c d r i w = .ok) (hin : inRange r w = true)
    (hblock : checkBlock c (c.judged m) ((c.accept d m r i w).judged m) d m r i w = .ok) : checkReg c d m r i w = .noRoom := by
  simp [checkReg_of_staged hr, hf, hmode, hin, hblock, Status.orElse, need]

/-! ## Writes of a master -/

theorem Status.orElse_eq_ok {a b : Status} : a.orElse b = .ok ↔ a = .ok ∧ b = .ok := by
  unfold Status.orElse
  split <;> simp_all

section Writes
variable (m : Nat) (r : Reg) (i w : Nat) (s : State)

/-- The end of an access: the sources in service are looked at once more (R575). -/
def State.seen (m : Nat) (s : State) : State := s.withDev (watchSources (fun f => f == m) s.dev)

/-- A write that the access rules let pass. -/
theorem hostWrite_passed (hm : makesAccess m = true) (hj : judgeReg s.cfg s.dev m r i (some w) = none) :
    hostWrite m r i w s = (if checkReg s.cfg s.looked.dev m r i w = .ok then acceptWrite m r i w s.looked
      else rejectWrite m r i w (checkReg s.cfg s.looked.dev m r i w) s.looked).seen m := by
  have hj' : judgeReg s.looked.cfg s.looked.dev m r i (some w) = none := hj
  unfold State.looked at hj'
  simp only [hostWrite, writeWith, hm, hj']
  rfl

theorem hostWrite_accepted (h : WriteAccepted s m r i w) : hostWrite m r i w s = (acceptWrite m r i w s.looked).seen m := by
  obtain ⟨hm, hj, hc⟩ := h
  rw [hostWrite_passed m r i w s hm hj, if_pos hc]

/-- What a write can do to the configuration: nothing, or what an accepted write does. -/
theorem writeWith_cfg (e : Status) : (writeWith e m r i w s).cfg = s.cfg ∨
    checkReg s.cfg s.looked.dev m r i w = .ok ∧ (writeWith e m r i w s).cfg = (acceptWrite m r i w s.looked).cfg := by
  unfold writeWith
  split
  · exact .inl rfl
  · extract_lets s₁ s₂
    have hs₂ : s₂.cfg = s.cfg ∨ checkReg s.cfg s.looked.dev m r i w = .ok ∧ s₂.cfg = (acceptWrite m r i w s.looked).cfg := by
      unfold s₂
      split
      · exact .inl rfl
      · unfold passedWrite
        extract_lets st
        split
        · next hst => exact .inr ⟨(Status.orElse_eq_ok.mp hst).2, rfl⟩
        · exact .inl rfl
    exact hs₂

/-- What an accepted write that is no restart leaves in the configuration. -/
theorem acceptWrite_cfg (hr : ¬ (r = .CLK_CTRL ∧ bitsOf w 30 1 = 1)) :
    (acceptWrite m r i w s).cfg = runCfg s.cfg (s.cfg.accept s.dev m r i w)
      (noteFill (s.cfg.accept s.dev m r i w) (recordWrite m r i .ok s.dev)) r i w := by
  simp [acceptWrite, runWrite, hr]

/-- The entry that a write of a register with staged fields takes (R34, R37). -/
def stagedEntry : Staged :=
  { master := m, reg := r, idx := i, mask := r.rwsMask, value := w, cyc := s.dev.cyc
    due := if holding s.cfg m then none else some (dueEdge s.dev) }

theorem holding_writeNow_other (hr : r ≠ .TICK_STAGE_CTL) (c : Cfg) (k : Nat) : holding (c.writeNow r i w) k = holding c k := by
  have hword (v : Nat) : (c.setWord r i v).word .TICK_STAGE_CTL k = c.word .TICK_STAGE_CTL k := RegFile.word_setWord_other _ _ _ (.inl hr.symm)
  have hget (v : Nat) : (c.setWord r i v).get Fields.TICK_STAGE_CTL_hold k = c.get Fields.TICK_STAGE_CTL_hold k :=
    congrArg (bitsOf · 0 1) (hword v)
  unfold Cfg.writeNow
  extract_lets b
  split
  · rfl
  · simp only [holding, Cfg.flag, hget]

/-- An accepted write of a register with staged fields takes one entry of the staging area, behind all others (R36). -/
theorem acceptWrite_staged (hr : r.staged = true) : (acceptWrite m r i w s).cfg.staged = s.cfg.staged ++ [stagedEntry m r i w s] := by
  have hclk : ¬ (r = .CLK_CTRL ∧ bitsOf w 30 1 = 1) := fun h => Reg.ne_of_staged hr (by decide) h.1
  have hctl : r ≠ .TICK_STAGE_CTL := Reg.ne_of_staged hr (by decide)
  have hbound : r ≠ .LANE_TX_BOUND := Reg.ne_of_staged hr (by decide)
  rw [acceptWrite_cfg m r i w s hclk]
  unfold runCfg
  split
  · contradiction
  · contradiction
  · simp only [Cfg.accept, hr, if_true, Cfg.stageWrite_staged, Cfg.writeNow_staged, holding_writeNow_other r i w hctl, stagedEntry]

/-- An accepted write of any other register takes no entry. -/
theorem acceptWrite_fill_unstaged_le (hr : r.staged = false) : (acceptWrite m r i w s).cfg.fill ≤ s.cfg.fill := by
  by_cases hclk : r = .CLK_CTRL ∧ bitsOf w 30 1 = 1
  · have hreset : (acceptWrite m r i w s).cfg = Cfg.reset := by simp [acceptWrite, runWrite, hclk, restartAll]
    rw [hreset]
    exact Nat.zero_le _
  · have hnow : (s.cfg.accept s.dev m r i w).fill = s.cfg.fill := Cfg.fill_of_staged (by simp [Cfg.accept, hr])
    rw [acceptWrite_cfg m r i w s hclk, ← hnow]
    unfold runCfg
    split
    · split
      · exact (Cfg.release_fill _ _ _).le
      · exact le_rfl
    · exact (Cfg.fill_of_staged (clampTx_staged _ _)).le
    · exact le_rfl

/-- An accepted write keeps the staging area within its entries (R36). -/
theorem acceptWrite_fill_le (hs : s.cfg.fill ≤ stageRoom) (hc : checkReg s.cfg s.dev m r i w = .ok) : (acceptWrite m r i w s).cfg.fill ≤ stageRoom := by
  cases hr : r.staged with
  | true =>
    rw [Cfg.fill_append (acceptWrite_staged m r i w s hr)]
    by_cases hm : m = 18
    · simpa [stagedEntry, hm] using hs
    · have hroom : s.cfg.fill < stageRoom := not_le.mp (fun h => checkReg_ne_ok_of_full hr ((stageFull_iff hr hm).mpr h) hc)
      simpa [stagedEntry, hm] using hroom
  | false => exact (acceptWrite_fill_unstaged_le m r i w s hr).trans hs

/-- Every write keeps the staging area within its entries (R36). -/
theorem writeWith_fill_le (e : Status) (hs : s.cfg.fill ≤ stageRoom) : (writeWith e m r i w s).cfg.fill ≤ stageRoom := by
  rcases writeWith_cfg m r i w s e with h | ⟨hc, h⟩
  · rw [h]
    exact hs
  · rw [h]
    exact acceptWrite_fill_le m r i w s.looked hs hc

end Writes

end Sys2Proof.Machine
end

section
/-!
SUPPORT. What a command can do to the staging area, and that every step keeps it within its entries (R36).
-/

namespace Sys2Proof.Machine

/-! ## Writes through an address -/

/-- A write through an address leaves the configuration as it is, or is the write of a register. -/
theorem writeAt_cfg (m addr w be : Nat) (s : State) :
    (writeAt m addr w be s).cfg = s.cfg ∨ ∃ e r i, writeAt m addr w be s = writeWith e m r i w s := by
  have hstray (st : Status) (b : Bool) : (strayWrite m addr w st b s).cfg = s.cfg := by
    unfold strayWrite
    split
    · rfl
    · split <;> rfl
  unfold writeAt
  split
  · exact .inl rfl
  · split
    · split_ifs
      · exact .inr ⟨_, _, _, rfl⟩
      · exact .inl rfl
      · exact .inl (hstray _ _)
    · exact .inl (hstray _ _)

theorem writeAt_fill_le (m addr w be : Nat) (s : State) (hs : s.cfg.fill ≤ stageRoom) : (writeAt m addr w be s).cfg.fill ≤ stageRoom := by
  rcases writeAt_cfg m addr w be s with h | ⟨e, r, i, h⟩
  · rw [h]
    exact hs
  · rw [h]
    exact writeWith_fill_le m r i w s e hs

/-! ## What a command can do to the staging area -/

/-- How a command can change the staging area: not at all, or as a write of a master, or as one of the events of the device that reach it. -/
inductive StagingStep (s : State) : State → Prop
  | kept {t : State} (h : t.cfg.staged = s.cfg.staged) : StagingStep s t
  | device (d : Dev) : StagingStep s (s.withDev d)
  | write (e : Status) (m : Nat) (r : Reg) (i w : Nat) : StagingStep s (writeWith e m r i w s)
  | writeAt (m addr w be : Nat) : StagingStep s (writeAt m addr w be s)
  | edge (e : EdgeIn) : StagingStep s (commitEdge e s)
  | pairing (msg : PairMsg) : StagingStep s (pairingMessage msg s)
  | porst : StagingStep s (porst s)
  | standby : StagingStep s (enterStandby s)
  | startUp (st : Straps) : StagingStep s (startUp st s)
  | functionReset (f : Nat) : StagingStep s (functionReset f s)

/-- A device that wakes keeps its configuration. -/
theorem wake_cfg (s : State) : (wake s).cfg = s.cfg := by
  unfold wake
  split <;> rfl

/-- Every command leads to a next state, and changes the staging area in one of those ways only: most are events of the device, and most others writes. -/
theorem exec_stagingStep (c : Instr) (s : State) : ∃ t, exec c s = .next t ∧ StagingStep s t := by
  cases c with
  | commitEdge => exact ⟨_, rfl, .edge _⟩
  | pairingMessageRx => exact ⟨_, rfl, .pairing _⟩
  | porstNAssert => exact ⟨_, rfl, .porst⟩
  | enterStandby => exact ⟨_, rfl, .standby⟩
  | startUp => exact ⟨_, rfl, .startUp _⟩
  | functionLevelReset => exact ⟨_, rfl, .functionReset _⟩
  | wake => exact ⟨_, rfl, .kept (congrArg Cfg.staged (wake_cfg s))⟩
  | keyCommandDone => exact ⟨_, rfl, .kept (keyCommandDone_staged s)⟩
  | rsCopyDone => exact ⟨_, rfl, .kept (rsCopyDone_staged s)⟩
  | ascWinCommandDone => exact ⟨_, rfl, .kept (winDone_staged s)⟩
  | flashOperationDone => exact ⟨_, rfl, .kept (flashDone_staged _ s)⟩
  | latchedRead => exact ⟨_, rfl, .kept (congrArg Cfg.staged (readAt_cfg _ _ _ s))⟩
  | intClaim | msgTxDonePop => exact ⟨_, rfl, .kept (congrArg Cfg.staged (hostRead_cfg _ _ _ s))⟩
  | registerWrite m target addr value be =>
    cases target with
    | bar0 => exact ⟨_, rfl, .writeAt _ _ _ _⟩
    | vecMask | funcMask | msixEnable | vfEnable => exact ⟨_, rfl, .device _⟩
  | accWrite => exact ⟨_, rfl, .writeAt _ _ _ _⟩
  | grantComputationDone | mapFreeze | burstReceive | discoveryAnswer | rangingAttempt | rngFail | standAdmit | keyOffer | keyAnswer | keyConfirm
  | restRequest | dyingGasp | hostMsgRx | restEntry | restWake | discTicksExpiry | rngTicksExpiry | reacqTicksExpiry | lostTicksExpiry
  | silenceTicksExpiry | tagSilence | reasmTimeout | pollDue | driftCorrection | presetLearned | presetRelearn | presetPinned | predPinned
  | queuePinned | offsetPinned | trimPinned | rxPinned | rogue | phaseExcess | alignSrcLost | tickInEdge | clearing | checkpointWrite | sfcCheckpoint
  | rekeyInterval | keyTicksExpiry | epochRetire | groupKeySwitch | deregisterKeyErase | compatKeySwitch | serialNumberOnu | keyReport
  | ploamUnsupported | omciRx | uplinkFrameRx | packetPass | recircPass | cascadeTimeout | cascadeKeyRx | learnEngine | stashReturn | bridgeAged
  | fragAged | lockExpired | bankDrain | spillMove | returnMove | holdWrite | sectorFlush | holdReturn | shadowMove | shadowRelease | replayMove
  | bufferFree | cacheRefill | uplinkPacketTx | flowPacketRx | djSlip | sliceDefectChange | pgFarRequest | wtrExpiry | mirrorFrameRx | hbInEdge
  | plaxonSilent | pinSilent | takeover | takeoverWithdraw | offsetLearn | syncDone | pairTimeout | dsdPropose | dsdSwap | dsdRevert | timeMarkSend
  | domainLost | sampleRecord | sourceLost | sourceReady | stoppedSourceEscape | linkUp | linkDown | linkRetry | groupMemberJoin | plaxonStateChange
  | elasticErr | holdTierDown | holdTierUp | deepUe | deepWithdrawn | hbmTrainDone | engEccFatal | rngHealthFail | nearUe | groveEnterService
  | groveLeaveService | parkQuadrant | unparkQuadrant | enterQuiet | perstN | msixMessage | stdMcastChange | read | write | delete | flush
  | insertBefore | search | deferredDrain | dsdAnswer | ponTxLaneReady | casMiStateChange | ploamRegistrationRx =>
    exact ⟨_, rfl, .device _⟩
  | _ => exact ⟨_, rfl, .write _ _ _ _ _⟩

/-! ## The events of the device that reach the staging area -/

section Events
variable (s : State)

theorem withDev_fill (d : Dev) : (s.withDev d).cfg.fill = s.cfg.fill := rfl

theorem unpairEdge_staged : (unpairEdge s).cfg.staged = s.cfg.staged := by
  unfold unpairEdge
  extract_lets d dark d₁ d₂ d₃ d₄
  split_ifs
  · rfl
  · exact Cfg.set_staged _ _ _ _
  · rfl

theorem edgeCfg_staged (n : Nat) (c : Cfg) : (edgeCfg n c).staged = c.staged.filter (fun x => !(x.dueBy n)) := by
  rw [edgeCfg, Cfg.set_staged, sliceBinds_staged, Cfg.commit]

/-- Where the edge comes, the writes due by it leave the staging area, and no other does (R32, R34). -/
theorem commitEdge_staged (e : EdgeIn) (h : (s.dev.phase == .run && (s.dev.running || lanesReady (nextEdge s.dev) s)) = true) :
    (commitEdge e s).cfg.staged = s.cfg.staged.filter (fun x => !(x.dueBy (nextEdge s.dev))) := by
  unfold commitEdge
  rw [if_pos h]
  extract_lets c n d₀ d new d'
  rw [unpairEdge_staged]
  exact edgeCfg_staged n c

theorem commitEdge_fill_le (e : EdgeIn) : (commitEdge e s).cfg.fill ≤ s.cfg.fill := by
  by_cases h : (s.dev.phase == .run && (s.dev.running || lanesReady (nextEdge s.dev) s)) = true
  · apply Cfg.fill_le_of_sublist
    rw [commitEdge_staged s e h]
    exact List.filter_sublist
  · unfold commitEdge
    rw [if_neg h]

theorem pairingMessage_fill (msg : PairMsg) : (pairingMessage msg s).cfg.fill = s.cfg.fill := by
  have hfollow (old new : Nat) : (followMate old new s.cfg).fill = s.cfg.fill :=
    Cfg.fill_of_map (f := fun x => { x with due := x.due.map (shiftEdge old new) }) (fun _ => rfl) (by rw [followMate])
  unfold pairingMessage
  extract_lets c d busy
  split
  · rfl
  · cases msg with
    | req => exact withDev_fill s _
    | identity | publicValue | fail =>
      dsimp only
      split
      · exact withDev_fill s _
      · rfl
    | confirm =>
      dsimp only
      split
      · split
        · exact hfollow _ _
        · exact withDev_fill s _
      · rfl

theorem enterStandby_fill_le : (enterStandby s).cfg.fill ≤ s.cfg.fill := by
  have hretain (n : Nat) : (retainCfg n s.cfg).fill ≤ s.cfg.fill := by
    have hkept := Cfg.fill_le_of_sublist (c := s.cfg)
      (c' := { s.cfg with staged := s.cfg.staged.filter (fun x => alwaysUp x.reg.region && x.due.isSome) }) List.filter_sublist
    exact (Cfg.fill_of_map (f := fun x => { x with due := some n }) (fun _ => rfl) rfl).trans_le hkept
  unfold enterStandby
  extract_lets c
  split
  · exact hretain _
  · exact le_rfl

theorem resetFn_fill_le (f : Nat) : (resetFn f s).cfg.fill ≤ s.cfg.fill := by
  apply Cfg.fill_le_of_sublist
  change (resetFnCfg f s.cfg).staged.Sublist _
  simp only [resetFnCfg, Cfg.set_staged, Cfg.discardHeld]
  exact List.filter_sublist

theorem functionReset_fill_le (f : Nat) : (functionReset f s).cfg.fill ≤ s.cfg.fill := by
  have hall : ((List.range 16).foldl (fun s k => resetFn k s) s).cfg.fill ≤ s.cfg.fill :=
    List.foldlRecOn (motive := fun t : State => t.cfg.fill ≤ s.cfg.fill) _ _ le_rfl (fun t h k _ => (resetFn_fill_le t k).trans h)
  unfold functionReset
  split_ifs
  · exact le_rfl
  · exact hall
  · exact resetFn_fill_le s f

/-- The loader's writes, as any others, keep the staging area within its entries. -/
theorem loadItem_fill_le (x : ImgItem) (hs : s.cfg.fill ≤ stageRoom) : (loadItem x s).cfg.fill ≤ stageRoom := by
  cases x with
  | write a v =>
    unfold loadItem
    dsimp only
    split
    · exact hs
    · exact writeAt_fill_le _ _ _ _ s hs
  | entry | blob => exact hs

theorem applyImage_fill_le (which : Nat) (v : ImageView) (hs : s.cfg.fill ≤ stageRoom) : (applyImage which v s).cfg.fill ≤ stageRoom := by
  have hload : (v.items.foldl (fun s x => loadItem x s) s).cfg.fill ≤ stageRoom :=
    List.foldlRecOn (motive := fun t : State => t.cfg.fill ≤ stageRoom) v.items _ hs (fun t h x _ => loadItem_fill_le t x h)
  unfold applyImage
  extract_lets s' d₁ d₂ d₃
  rw [withDev_fill]
  exact hload

theorem configure_fill_le (src : Nat) (hs : s.cfg.fill ≤ stageRoom) : (configure src s).cfg.fill ≤ stageRoom := by
  unfold configure
  extract_lets r s'
  split
  · exact applyImage_fill_le s' _ _ hs
  · rw [Cfg.fill_of_staged (applyDefaults_staged _ _)]
    exact hs

theorem startUp_fill_le (st : Straps) (hs : s.cfg.fill ≤ stageRoom) : (startUp st s).cfg.fill ≤ stageRoom := by
  unfold startUp
  split
  · extract_lets b c s'
    have hc : c.fill ≤ stageRoom := (Cfg.fill_of_staged (Cfg.set_staged _ _ _ _)).trans_le hs
    have hs' : s'.cfg.fill ≤ stageRoom := configure_fill_le _ _ hc
    rw [withDev_fill]
    exact hs'
  · exact hs

end Events

/-! ## The bound on every step -/

/-- Every change of the staging area keeps it within its entries (R36). -/
theorem StagingStep.fill_le {s t : State} (h : StagingStep s t) (hs : s.cfg.fill ≤ stageRoom) : t.cfg.fill ≤ stageRoom := by
  cases h with
  | kept h => exact (Cfg.fill_of_staged h).trans_le hs
  | device d => exact hs
  | write e m r i w => exact writeWith_fill_le m r i w s e hs
  | writeAt m addr w be => exact writeAt_fill_le m addr w be s hs
  | edge e => exact (commitEdge_fill_le s e).trans hs
  | pairing msg => exact (pairingMessage_fill s msg).trans_le hs
  | porst => exact Nat.zero_le _
  | standby => exact (enterStandby_fill_le s).trans hs
  | startUp st => exact startUp_fill_le s st hs
  | functionReset f => exact (functionReset_fill_le s f).trans hs

theorem idle_cfg (s : State) : (idle s).cfg = s.cfg := by
  unfold idle
  split_ifs <;> rfl

/-- The staging area never holds more than its entries: every step keeps the bound (R36). -/
theorem step_fill_le {s t : State} (hs : s.cfg.fill ≤ stageRoom) (h : step s = .next t) : t.cfg.fill ≤ stageRoom := by
  unfold step at h
  split at h
  · rw [← Host.Outcome.next.inj h, idle_cfg]
    exact hs
  · next c q _ =>
    obtain ⟨u, hu, hstep⟩ := exec_stagingStep c (s.withPending q)
    obtain rfl : u = t := Host.Outcome.next.inj (hu.symm.trans h)
    exact hstep.fill_le hs

end Sys2Proof.Machine
end

section
/-!
SUPPORT. The commands that are a master's write of a whole register, and hold and release (R37).
-/

namespace Sys2Proof.Machine

/-! ## The commands that are writes -/

theorem findReg_mem {ds : List RegDesc} {off i : Nat} {x : RegDesc} (h : findReg ds off = some (x, i)) : x ∈ ds := by
  induction ds with
  | nil => simp [findReg] at h
  | cons d ds ih =>
    unfold findReg at h
    split at h
    · split at h
      · simp_all
      · exact List.mem_cons_of_mem _ (ih h)
    · exact List.mem_cons_of_mem _ (ih h)

theorem blockOf_acc {a : Nat} (hlo : 0x400000 ≤ a) (hhi : a < 0x500000) : blockOf a = some (4, a - 0x400000) := by
  have h0 : ¬ a < 0x100000 := by omega
  have h1 : ¬ a < 0x200000 := by omega
  have h2 : ¬ a < 0x300000 := by omega
  have h3 : ¬ a < 0x400000 := by omega
  simp [blockOf, blocks, h0, h1, h2, h3, hlo, hhi]

/-- An offset of the ACC block lies in it. -/
theorem accAddr_bounds (o : Fin 2048) : 0x400000 ≤ accAddr o ∧ accAddr o < 0x500000 := by
  have hbase : addrOf .ACC_RGN_LO 0 - Reg.ACC_RGN_LO.desc.off = 0x400000 := by decide +kernel
  have ho := o.isLt
  unfold accAddr dwordOf
  omega

/-- ACC_WRITE reaches the registers of its own block alone. -/
theorem decodeAddr_accAddr_ne_pwr {o : Fin 2048} {x : RegDesc} {i : Nat} (h : decodeAddr (accAddr o) = some (x, i)) : x.reg ≠ .CLK_PWR := by
  obtain ⟨hlo, hhi⟩ := accAddr_bounds o
  have hacc : ∀ x ∈ regsOfAcc, x.reg ≠ .CLK_PWR := by decide
  unfold decodeAddr at h
  rw [blockOf_acc hlo hhi] at h
  exact hacc x (findReg_mem h)

/-- A whole DWORD written to a register through an address is a write of the register, unless a rule of the whole word stops it. -/
theorem writeAt_whole {m addr w i : Nat} {x : RegDesc} {s : State} (h : decodeAddr addr = some (x, i)) (hw : wordCheck s.dev x.reg = .ok) :
    writeAt m addr w 15 s = hostWrite m x.reg i w s := by
  cases hm : makesAccess m with
  | false => simp [writeAt, hostWrite, writeWith, hm]
  | true => simp [writeAt, hostWrite, hm, h, hw]

/-- A command that is a master's write of a whole register runs that write. -/
theorem exec_of_writes {s : State} {c : Instr} {m : Nat} {r : Reg} {i w : Nat} (h : Writes s c m r i w) : exec c s = .next (hostWrite m r i w s) := by
  cases h with
  | registerWrite m a v x i h hp =>
    have hw : wordCheck s.dev x.reg = .ok := by
      unfold wordCheck
      split
      · next hx => simp [need, hp hx]
      · rfl
    exact congrArg Host.Outcome.next (writeAt_whole h hw)
  | accWrite m o v x i h =>
    have hw : wordCheck s.dev x.reg = .ok := if_neg (decodeAddr_accAddr_ne_pwr h)
    exact congrArg Host.Outcome.next (writeAt_whole h hw)
  | reqState m st h =>
    have hw : need (!s.dev.isPaired) .mode = .ok := by simp [need, h]
    change Host.Outcome.next (writeWith _ _ _ _ _ _) = _
    rw [hw]
    rfl
  | _ => rfl

/-- An accepted write leads to the state behind the acceptance, with the sources in service looked at once more. -/
theorem leadsTo_of_accepted {s : State} {c : Instr} {m : Nat} {r : Reg} {i w : Nat} {P : State → Prop} (hc : Writes s c m r i w)
    (ha : WriteAccepted s m r i w) (hP : P ((acceptWrite m r i w s.looked).seen m)) : LeadsTo c s P :=
  ⟨_, (exec_of_writes hc).trans (congrArg Host.Outcome.next (hostWrite_accepted m r i w s ha)), hP⟩

/-! ## Hold and release (R37) -/

theorem Dev.flag_set_other {x y : Fld} (d : Dev) (i j v : Nat) (h : y.reg ≠ x.reg) : (d.set x i v).flag y j = d.flag y j :=
  congrArg (· == 1) (Dev.get_set_other d v (fieldsApart_of_reg h))

/-- The edge at which a write commits does not depend on the status fields but one. -/
theorem dueEdge_set (d : Dev) (x : Fld) (i v : Nat) (h : Reg.TICK_STATUS ≠ x.reg) : dueEdge (d.set x i v) = dueEdge d := by
  have hrun : (d.set x i v).running = d.running := by
    unfold Dev.running
    rw [Dev.flag_set_other d i 0 v h, Dev.set_phase]
  unfold dueEdge startSfc
  rw [hrun]
  rfl

theorem dueEdge_noteFill (c : Cfg) (d : Dev) : dueEdge (noteFill c d) = dueEdge d := dueEdge_set d _ _ _ (by decide)

theorem dueEdge_recordWrite_ok (m : Nat) (r : Reg) (i : Nat) (d : Dev) : dueEdge (recordWrite m r i .ok d) = dueEdge d := by
  unfold recordWrite
  split
  · rfl
  · simp only [record, true_or, if_true]
    rw [dueEdge_set _ _ _ _ (by decide), dueEdge_set _ _ _ _ (by decide), dueEdge_set _ _ _ _ (by decide)]

/-- A write of TICK_STAGE_CTL sets the hold of its master to its lowest bit. -/
theorem holding_writeNow_ctl (m w : Nat) (c : Cfg) : holding (c.writeNow .TICK_STAGE_CTL m w) m = (bitsOf w 0 1 == 1) := by
  have hmask : Reg.TICK_STAGE_CTL.rwMask = 1 := by decide
  have hnow : c.writeNow .TICK_STAGE_CTL m w = c.setWord .TICK_STAGE_CTL m (c.word .TICK_STAGE_CTL m - c.word .TICK_STAGE_CTL m % 2 + w % 2) := by
    simp [Cfg.writeNow, hmask, Nat.and_one_is_mod]
  have hword (v : Nat) : (c.setWord .TICK_STAGE_CTL m v).word .TICK_STAGE_CTL m = v := RegFile.word_setWord_same _ _ _ _ _
  have hbit (v : Nat) : bitsOf (v - v % 2 + w % 2) 0 1 = bitsOf w 0 1 := by
    simp only [bitsOf]
    omega
  rw [hnow]
  change (bitsOf ((c.setWord .TICK_STAGE_CTL m _).word .TICK_STAGE_CTL m) 0 1 == 1) = _
  rw [hword, hbit]

/-- An accepted write of a master's own TICK_STAGE_CTL sets its hold. Where that ends a hold, every held write of the master, and no other, gets the edge of this
write (R34, R37). -/
theorem acceptWrite_ctl (m w : Nat) (s : State) :
    holding (acceptWrite m .TICK_STAGE_CTL m w s).cfg m = (bitsOf w 0 1 == 1) ∧ (acceptWrite m .TICK_STAGE_CTL m w s).cfg.staged =
      if holding s.cfg m = true ∧ bitsOf w 0 1 = 0 then
        s.cfg.staged.map (fun x => if x.master = m ∧ x.due = none then { x with due := some (dueEdge s.dev) } else x)
      else s.cfg.staged := by
  have hacc : s.cfg.accept s.dev m .TICK_STAGE_CTL m w = s.cfg.writeNow .TICK_STAGE_CTL m w := by
    have hstaged : Reg.TICK_STAGE_CTL.staged = false := by decide
    simp [Cfg.accept, hstaged]
  have hrel (d : Dev) (c : Cfg) : holding (c.release d m) m = holding c m := rfl
  rw [acceptWrite_cfg m .TICK_STAGE_CTL m w s (by simp), hacc]
  simp only [runCfg, Bool.and_eq_true, beq_iff_eq]
  split
  · rw [hrel, holding_writeNow_ctl, Cfg.release_staged, Cfg.writeNow_staged, dueEdge_noteFill, dueEdge_recordWrite_ok]
    exact ⟨rfl, rfl⟩
  · exact ⟨holding_writeNow_ctl m w s.cfg, Cfg.writeNow_staged _ _ _ _⟩

/-- Setting hold stages nothing and takes nothing out. -/
theorem acceptWrite_hold (m : Nat) (s : State) :
    holding (acceptWrite m .TICK_STAGE_CTL m 1 s).cfg m = true ∧ (acceptWrite m .TICK_STAGE_CTL m 1 s).cfg.staged = s.cfg.staged := by
  obtain ⟨hhold, hstaged⟩ := acceptWrite_ctl m 1 s
  exact ⟨hhold, hstaged.trans (if_neg (fun h => absurd h.2 (by decide)))⟩

/-- Clearing hold releases what the master has accumulated. -/
theorem acceptWrite_release (m : Nat) (s : State) (hh : holding s.cfg m = true) :
    holding (acceptWrite m .TICK_STAGE_CTL m 0 s).cfg m = false ∧ (acceptWrite m .TICK_STAGE_CTL m 0 s).cfg.staged =
      s.cfg.staged.map (fun x => if x.master = m ∧ x.due = none then { x with due := some (dueEdge s.dev) } else x) := by
  obtain ⟨hhold, hstaged⟩ := acceptWrite_ctl m 0 s
  exact ⟨hhold, hstaged.trans (if_pos ⟨hh, by decide⟩)⟩

/-- An edge of a running device commits no held write, and leaves none that is due (R32, R37). -/
theorem commitEdge_running (e : EdgeIn) (s : State) (hrun : s.dev.running = true) :
    (∀ x ∈ s.cfg.staged, x.due = none → x ∈ (commitEdge e s).cfg.staged) ∧
      ∀ x ∈ (commitEdge e s).cfg.staged, x.dueBy ((s.dev.sfc + 1) % 2 ^ 48) = false := by
  have hphase : (s.dev.phase == .run) = true := by
    unfold Dev.running at hrun
    exact (Bool.and_eq_true_iff.mp hrun).1
  have hnext : nextEdge s.dev = (s.dev.sfc + 1) % 2 ^ 48 := if_pos hrun
  rw [commitEdge_staged s e (by rw [hphase, hrun]; rfl), hnext]
  refine ⟨fun x hx hdue => List.mem_filter.mpr ⟨hx, ?_⟩, fun x hx => ?_⟩
  · simp [Staged.dueBy, hdue]
  · simpa using (List.mem_filter.mp hx).2

/-- Settles O48: a held write is staged without an edge, an edge passes it by, and the clearing of the hold gives all of the master's held writes one edge. -/
theorem holdAndRelease : Obligations.HoldAndRelease := by
  intro m s
  refine ⟨fun ha => ?_, fun hh c r i w hc ha hr => ?_, fun hrun e => ⟨_, rfl, commitEdge_running e s hrun⟩, fun ha hh => ?_⟩
  · exact leadsTo_of_accepted (.stageHold m) ha (acceptWrite_hold m s.looked)
  · have hstaged := acceptWrite_staged m r i w s.looked hr
    have hdue : (stagedEntry m r i w s.looked).due = none := if_pos hh
    refine leadsTo_of_accepted hc ha ⟨stagedEntry m r i w s.looked, hstaged, rfl, hdue, rfl, rfl, fun hm => ?_⟩
    exact (Cfg.fill_append hstaged).trans (congrArg (s.cfg.fill + ·) (if_neg hm))
  · exact leadsTo_of_accepted (.stageRelease m) ha (acceptWrite_release m s.looked hh)

end Sys2Proof.Machine
end

section
/-!
SUPPORT. A write that finds the staging area full (R36).
-/

namespace Sys2Proof.Machine

/-! ## A full staging area (R36) -/

/-- A write of a status field, behind changes of status fields alone, is one more of them. -/
theorem Dev.set_sts {d d' : Dev} (h : ∃ f, d' = { d with sts := f }) (x : Fld) (i v : Nat) : ∃ f, d'.set x i v = { d with sts := f } := by
  obtain ⟨f, rfl⟩ := h
  exact ⟨_, rfl⟩

/-- A record of a status changes status fields alone. -/
theorem record_sts (m addr : Nat) (st : Status) (d : Dev) : ∃ f, record m addr st d = { d with sts := f } := by
  unfold record Dev.raise
  extract_lets d'
  have hd' : ∃ f, d' = { d with sts := f } := Dev.set_sts (Dev.set_sts (Dev.set_sts ⟨d.sts, rfl⟩ _ _ _) _ _ _) _ _ _
  split
  · exact hd'
  · exact Dev.set_sts (Dev.set_sts (Dev.set_sts hd' _ _ _) _ _ _) _ _ _

/-- The last status of a master is the one recorded (R561). -/
theorem record_lastStatus (m addr : Nat) (st : Status) (d : Dev) : (record m addr st d).lastStatus m = st.code := by
  have hcode : st.code % 2 ^ 8 = st.code := by cases st <;> rfl
  have hfirst : ((((d.set Fields.TOP_LAST_STAT_status m st.code).set Fields.TOP_LAST_ADDR_addr m addr).set Fields.TOP_LAST_SFC_sfc m (lo32 d.sfc)).get
      Fields.TOP_LAST_STAT_status m) = st.code := by
    rw [Dev.get_set_other _ _ (.inl (by decide)), Dev.get_set_other _ _ (.inl (by decide)), Dev.get_set_same]
    exact hcode
  unfold record
  extract_lets d'
  split
  · exact hfirst
  · unfold Dev.lastStatus Dev.raise
    rw [Dev.get_set_other _ _ (.inr (.inr (by decide))), Dev.get_set_other _ _ (.inl (by decide)),
      Dev.get_set_other _ _ (.inr (.inr (by decide)))]
    exact hfirst

/-- A record of a status shows in the last-status entries alone. -/
theorem record_get_tick (m addr : Nat) (st : Status) (d : Dev) (j : Nat) :
    (record m addr st d).get Fields.TICK_STATUS_staging_full j = d.get Fields.TICK_STATUS_staging_full j := by
  have hset (d : Dev) {x : Fld} (i v : Nat) (hx : Reg.TICK_STATUS ≠ x.reg) :
      (d.set x i v).get Fields.TICK_STATUS_staging_full j = d.get Fields.TICK_STATUS_staging_full j := Dev.get_set_other d v (.inl hx)
  unfold record Dev.raise
  extract_lets d'
  have hfirst : d'.get Fields.TICK_STATUS_staging_full j = d.get Fields.TICK_STATUS_staging_full j := by
    unfold d'
    rw [hset _ _ _ (by decide), hset _ _ _ (by decide), hset _ _ _ (by decide)]
  split
  · exact hfirst
  · rw [hset _ _ _ (by decide), hset _ _ _ (by decide), hset _ _ _ (by decide), hfirst]

/-- What a refused write of a register with staged fields leaves in the device, beside its record (R36). -/
theorem refuseWrite_staged {c : Cfg} {m : Nat} {r : Reg} {i w : Nat} {d : Dev} (hr : r.staged = true) (st : Status) :
    refuseWrite c m r i w st d =
      if st = .noRoom ∧ stageFull c m r = true then (d.raise Fields.TICK_STATUS_staging_full 0).count .device .stagingFull m else d := by
  have hint : r ≠ .INT_COMPLETE := Reg.ne_of_staged hr (by decide)
  have hmsg : r ≠ .GRV_MSG_TX_CMD := Reg.ne_of_staged hr (by decide)
  unfold refuseWrite
  split
  · contradiction
  · contradiction
  · rfl

/-- A register with staged fields is no last-status entry: every write of it is recorded. -/
theorem recordWrite_staged {m : Nat} {r : Reg} {i : Nat} (hr : r.staged = true) (st : Status) (d : Dev) :
    recordWrite m r i st d = record m (addrOf r i) st d := by
  simp [recordWrite, ownEntry_of_staged hr]

section Full
variable {m : Nat} {r : Reg} (i w : Nat) {s : State}

theorem rejectWrite_seen (st : Status) : ((rejectWrite m r i w st s).seen m).dev =
    watchSources (fun f => f == m) (recordWrite m r i st (refuseWrite s.cfg m r i w st s.dev)) := rfl

/-- A write of a register with staged fields that a check refuses: its status shows, and the configuration is as it was. -/
theorem rejectWrite_staged (hr : r.staged = true) (st : Status) :
    ((rejectWrite m r i w st s).seen m).cfg = s.cfg ∧ ((rejectWrite m r i w st s).seen m).dev.lastStatus m = st.code := by
  refine ⟨rfl, ?_⟩
  rw [rejectWrite_seen, recordWrite_staged hr]
  exact record_lastStatus _ _ _ _

/-- One that finds no room sets staging_full and is counted for its master, and changes nothing else of the device but what is recorded (R36). -/
theorem rejectWrite_noRoom (hr : r.staged = true) (hf : stageFull s.cfg m r = true) :
    let t := ((rejectWrite m r i w .noRoom s).seen m).dev
    t.flag Fields.TICK_STATUS_staging_full 0 = true ∧ Counted s.dev t .device .stagingFull m 1 ∧
      t = { s.dev with sts := t.sts, cnt := t.cnt, inServ := t.inServ } := by
  have hdev : ((rejectWrite m r i w .noRoom s).seen m).dev = watchSources (fun f => f == m) (record m (addrOf r i) .noRoom
      ((s.dev.raise Fields.TICK_STATUS_staging_full 0).count .device .stagingFull m)) := by
    rw [rejectWrite_seen, recordWrite_staged hr, refuseWrite_staged hr, if_pos ⟨rfl, hf⟩]
  rw [hdev]
  have hflag : (record m (addrOf r i) .noRoom ((s.dev.raise Fields.TICK_STATUS_staging_full 0).count .device .stagingFull m)).get
      Fields.TICK_STATUS_staging_full 0 = 1 := by
    rw [record_get_tick]
    exact Dev.get_raise_same _ _ _
  obtain ⟨f, hrec⟩ := record_sts m (addrOf r i) .noRoom ((s.dev.raise Fields.TICK_STATUS_staging_full 0).count .device .stagingFull m)
  refine ⟨beq_iff_eq.mpr hflag, ?_, ?_⟩
  · rw [hrec]
    exact Dev.counter_count_same s.dev .device .stagingFull m 1
  · rw [hrec]
    rfl

end Full

/-- Settles O60: every step keeps the bound, an accepted write takes one entry, and a write that finds all of them taken is refused. -/
theorem stagingFull : Obligations.StagingFull := by
  refine ⟨fun s t hs h => step_fill_le hs h, fun c m r i w s hc hm _ h18 hr hj => ⟨fun ha => ?_, fun hfill => ?_⟩⟩
  · refine leadsTo_of_accepted hc ha ((Cfg.fill_append (acceptWrite_staged m r i w s.looked hr)).trans ?_)
    exact congrArg (s.cfg.fill + ·) (if_neg h18)
  · have hf : stageFull s.cfg m r = true := (stageFull_iff hr h18).mpr hfill.ge
    have hne : checkReg s.cfg s.looked.dev m r i w ≠ .ok := checkReg_ne_ok_of_full hr hf
    obtain ⟨hcfg, hst⟩ := rejectWrite_staged i w (s := s.looked) hr (checkReg s.cfg s.looked.dev m r i w)
    have hexec := (exec_of_writes hc).trans (congrArg Host.Outcome.next ((hostWrite_passed m r i w s hm hj).trans (by rw [if_neg hne])))
    refine ⟨checkReg s.cfg s.looked.dev m r i w, hne, _, hexec, hcfg, hst, fun hmode hin hblock => ?_⟩
    have hno : checkReg s.cfg s.looked.dev m r i w = .noRoom := checkReg_noRoom_of_full hr hf hmode hin hblock
    rw [hno]
    exact ⟨rfl, rejectWrite_noRoom i w (s := s.looked) hr hf⟩

end Sys2Proof.Machine
end

section
/-!
SUPPORT. Which source a claim of a vector returns, and what the claim does (R572).
-/

namespace Sys2Proof.Machine

/-! ## The pending sources of a vector -/

theorem SMap.mem_of_get? {α : Type} {m : SMap α} {q : Nat} {v : α} (h : m.get? q = some v) : (q, v) ∈ m := by
  induction m with
  | nil => cases h
  | cons p t ih =>
    obtain ⟨k, w⟩ := p
    unfold SMap.get? at h
    split at h
    · next hk =>
      cases h
      exact hk ▸ List.mem_cons_self
    · exact List.mem_cons_of_mem _ (ih h)

/-- A register whose word is not that of an unlisted one is listed. -/
theorem Cfg.mem_cellsOf {c : Cfg} {r : Reg} {i : Nat} (hi : i < 2 ^ 22) (h : c.word r i ≠ cfgBase c.alone r i) : i ∈ (c.cellsOf r).map Prod.fst := by
  obtain ⟨hidx, hid⟩ := regKey_index r i
  cases hget : c.regs.cells.get? (regKey r i) with
  | none => exact absurd (by simp [Cfg.word, RegFile.word, SMap.getD, hget]) h
  | some w =>
    refine List.mem_map.mpr ⟨(i, w), List.mem_filterMap.mpr ⟨_, SMap.mem_of_get? hget, ?_⟩, rfl⟩
    simp only [hid, if_true, hidx, Nat.mod_eq_of_lt hi]

/-- A source with a priority has its register listed: an unlisted one reads priority 0. -/
theorem mem_listed_of_srcPriority {c : Cfg} {x : Nat} (hx : x < 2 ^ 22) (h : srcPriority c x ≠ 0) : x ∈ (c.listed .INT_SRC).map Prod.fst := by
  have hbase : bitsOf (cfgBase c.alone .INT_SRC x) 24 3 = 0 := by
    simp only [cfgBase, aloneWord, cfgReset, resetSpecial, reduceCtorEq, if_false, Option.getD_none, ite_self]
    decide
  have hlisted : c.listed .INT_SRC = c.cellsOf .INT_SRC := by simp [Cfg.listed, aloneWord]
  rw [hlisted]
  refine Cfg.mem_cellsOf hx (fun hw => h ?_)
  change bitsOf (c.word .INT_SRC x) 24 3 = 0
  rw [hw, hbase]

/-- The controller's list of a vector's pending sources holds exactly the sources that are pending on it (R568). -/
theorem mem_pendingOn (s : State) (vec x : Nat) : x ∈ pendingOn s.cfg s.dev vec ↔ pendsOn s vec x := by
  unfold pendingOn pendsOn
  rw [List.mem_filter, Bool.and_eq_true, beq_iff_eq]
  constructor
  · rintro ⟨-, hvec, hpend⟩
    exact ⟨hpend, hvec⟩
  · rintro ⟨hpend, hvec⟩
    refine ⟨?_, hvec, hpend⟩
    simp only [srcPending, sourceListed, Bool.and_eq_true, decide_eq_true_eq] at hpend
    obtain ⟨⟨⟨hsrc, -⟩, hprio⟩, -⟩ := hpend
    exact mem_listed_of_srcPriority (by omega) hprio

/-! ## The best of them -/

/-- A source that a claim prefers to another, or that other itself: a higher priority, or an equal one and no higher number (R572). -/
def claimsFirst (c : Cfg) (a b : Nat) : Prop := srcPriority c b < srcPriority c a ∨ (srcPriority c b = srcPriority c a ∧ a ≤ b)

section Best
variable {c : Cfg} {src y : Nat} {best : Option Nat}

/-- The better of two sources is one of the two. -/
theorem betterSource_eq_or (c : Cfg) (best : Option Nat) (y : Nat) : betterSource c best y = some y ∨ betterSource c best y = best := by
  cases best with
  | none => exact .inl rfl
  | some b =>
    unfold betterSource
    dsimp only
    split
    · exact .inl rfl
    · exact .inr rfl

/-- What comes before the best so far takes its place. -/
theorem betterSource_new (h : ∀ b ∈ best, claimsFirst c src b) : betterSource c best src = some src := by
  cases best with
  | none => rfl
  | some b =>
    have hb := h b rfl
    unfold claimsFirst at hb
    unfold betterSource
    dsimp only
    split
    · rfl
    · exact congrArg some (by omega)

/-- What comes before a further source keeps its place. -/
theorem betterSource_kept (h : claimsFirst c src y) : betterSource c (some src) y = some src := by
  unfold claimsFirst at h
  exact if_neg (by omega)

/-- The source that comes before all others is the best of them, wherever in the list it stands. -/
theorem foldl_betterSource (xs : List Nat) : ∀ best : Option Nat, (∀ b ∈ best, claimsFirst c src b) → (∀ x ∈ xs, claimsFirst c src x) →
    best = some src ∨ src ∈ xs → xs.foldl (betterSource c) best = some src := by
  induction xs with
  | nil => exact fun best _ _ h => h.resolve_right List.not_mem_nil
  | cons y ys ih =>
    intro best hbest hxs h
    obtain ⟨hy, hys⟩ := List.forall_mem_cons.mp hxs
    refine ih _ (fun b hb => ?_) hys ?_
    · rcases betterSource_eq_or c best y with he | he
      · rw [he] at hb
        exact Option.mem_some.mp hb ▸ hy
      · exact hbest b (he ▸ hb)
    · rcases h with rfl | h
      · exact .inl (betterSource_kept hy)
      · rcases List.mem_cons.mp h with rfl | h
        · exact .inl (betterSource_new hbest)
        · exact .inr h

end Best

/-- A claim returns the pending source that comes before all others that are pending on the vector. -/
theorem claimable_eq_some {s : State} {vec src : Nat} (hsrc : pendsOn s vec src) (hbest : ∀ x, pendsOn s vec x → claimsFirst s.cfg src x) :
    claimable s.cfg s.dev vec = some src :=
  foldl_betterSource _ none (fun _ h => nomatch h) (fun x hx => hbest x ((mem_pendingOn s vec x).mp hx)) (.inr ((mem_pendingOn s vec src).mpr hsrc))

theorem claimable_eq_none {s : State} {vec : Nat} (h : ∀ x, ¬ pendsOn s vec x) : claimable s.cfg s.dev vec = none := by
  have hnil : pendingOn s.cfg s.dev vec = [] := List.eq_nil_iff_forall_not_mem.mpr (fun x hx => h x ((mem_pendingOn s vec x).mp hx))
  unfold claimable
  rw [hnil]
  rfl

/-! ## The claim -/

section Claim
variable {c : Cfg} {f v : Nat} {d : Dev}

/-- A claim that finds a source returns it with its priority, and puts it in service (R572). -/
theorem claim_some {src : Nat} (h : claimable c d (f * 64 + v) = some src) : ∃ vecs cnt,
    claim c f v d = (2 ^ 31 + srcPriority c src * 2 ^ 24 + src,
      { d with inServ := d.inServ.put src { vec := f * 64 + v, last := asserted d src, released := false }
               savedPend := d.savedPend.filter (fun x => x ≠ src), vecs := vecs, cnt := cnt }) := by
  simp only [claim, h]
  exact ⟨_, _, rfl⟩

/-- One that finds none returns valid = 0, and takes nothing into service. -/
theorem claim_none (h : claimable c d (f * 64 + v) = none) : ∃ vecs cnt, claim c f v d = (0, { d with vecs := vecs, cnt := cnt }) := by
  simp only [claim, h]
  split
  · exact ⟨_, _, rfl⟩
  · exact ⟨_, _, rfl⟩

end Claim

/-- The index of a vector's registers names its function and its number there. -/
theorem vecIndex_div_mod (f : Fin 16) (v : Fin 64) : (f.val * 64 + v) / 64 = f ∧ (f.val * 64 + v) % 64 = v := by omega

/-- A source in service is not pending (R568). -/
theorem srcPending_of_inService {c : Cfg} {d : Dev} {x : Nat} (h : inService d x = true) : srcPending c d x = false := by simp [srcPending, h]

/-- A read of INT_CLAIM that the access rules let pass claims, and returns what the claim found. -/
theorem runsTo_intClaim {m : Fin 20} {f : Fin 16} {v : Fin 64} {s : State} {P : Dev → Prop} {w : Nat} {d : Dev} (hm : makesAccess m = true)
    (hj : judgeReg s.cfg s.dev m .INT_CLAIM (f * 64 + v) none = none) (hclaim : claim s.cfg f v s.dev = (w, d))
    (hP : P (d.emit (.readData m (addrOf .INT_CLAIM (f * 64 + v)) w))) : RunsTo (.intClaim m f v) s P := by
  obtain ⟨hf, hv⟩ := vecIndex_div_mod f v
  have hlow : lowWord .INT_CLAIM (f * 64 + v) = none := by
    have hfind : wordGroups.find? (fun g => g.2.any (fun x => x.1 == .INT_CLAIM)) = none := by decide
    simp only [lowWord, hfind]
  have hread : readValue s.cfg m .INT_CLAIM (f * 64 + v) s.dev = (w, d) := by
    simp only [readValue, hlow, if_true, hf, hv, hclaim]
  refine ⟨_, ?_, hP⟩
  change Host.Outcome.next (hostRead m .INT_CLAIM (f * 64 + v) s) = _
  simp only [hostRead, hm, hj, hread, Bool.not_true, Bool.false_eq_true, if_false]

/-- Settles O54: the claim folds over the pending sources of the vector, and what comes before all of them is what the fold ends with. -/
theorem sourceClaimed : Obligations.SourceClaimed := by
  intro m f v s hm hj
  refine ⟨fun src hsrc hbest => ?_, fun hnone => ?_⟩
  · obtain ⟨vecs, cnt, hclaim⟩ := claim_some (f := f) (v := v) (claimable_eq_some hsrc hbest)
    have hin (e : Dev) (x : InServ) (h : e.inServ = s.dev.inServ.put src x) : inService e src = true := by simp [inService, h]
    exact runsTo_intClaim hm hj hclaim
      ⟨hin _ _ rfl, srcPending_of_inService (hin _ _ rfl), (EntriesKept.refl _ _).put _ List.mem_cons_self, rfl, rfl⟩
  · obtain ⟨vecs, cnt, hclaim⟩ := claim_none (f := f) (v := v) (claimable_eq_none hnone)
    exact runsTo_intClaim hm hj hclaim ⟨rfl, rfl⟩

end Sys2Proof.Machine
end

section
/-!
SUPPORT. What a completion does, written by a master to a vector (R573).
-/

namespace Sys2Proof.Machine

/-! ## The watch of the sources in service (R575) -/

theorem SMap.get?_mapVals {α : Type} (m : SMap α) (f : Nat → α → α) (q : Nat) : (m.mapVals f).get? q = (m.get? q).map (f q) := by
  induction m with
  | nil => rfl
  | cons p t ih =>
    obtain ⟨k, w⟩ := p
    by_cases hk : k = q
    · simp [SMap.mapVals, SMap.get?, hk]
    · simpa [SMap.mapVals, SMap.get?, hk] using ih

/-- A source is in service on a vector (R573). -/
def servedOn (d : Dev) (vec n : Nat) : Prop := ∃ x, d.inServ.get? n = some x ∧ x.vec = vec

theorem inService_of_inServ {d d' : Dev} (h : d'.inServ = d.inServ) (k : Nat) : inService d' k = inService d k := by simp [inService, h]

theorem State.looked_dev (s : State) : s.looked.dev = watchSources (fun _ => false) s.dev := rfl

section Watch
variable (mine : Nat → Bool) (d : Dev)

/-- The watch takes no source out of service, and none into it. -/
@[simp] theorem inService_watchSources (k : Nat) : inService (watchSources mine d) k = inService d k := by
  simp [inService, watchSources, SMap.get?_mapVals]

/-- The watch leaves each source in service on its vector. -/
@[simp] theorem servedOn_watchSources (vec n : Nat) : servedOn (watchSources mine d) vec n ↔ servedOn d vec n := by
  unfold servedOn watchSources
  simp only [SMap.get?_mapVals, Option.map_eq_some_iff]
  constructor
  · rintro ⟨_, ⟨x, hx, rfl⟩, hvec⟩
    exact ⟨x, hx, hvec⟩
  · rintro ⟨x, hx, hvec⟩
    exact ⟨_, ⟨x, hx, rfl⟩, hvec⟩

end Watch

/-! ## The completion -/

section Complete
variable {f v n : Nat} {d : Dev}

/-- A completion of a source that is in service on the vector takes it out of service. -/
theorem complete_served (h : servedOn d (f * 64 + v) n) : ∃ vecs cnt,
    complete f v n d = (.ok, { d with inServ := d.inServ.erase n, vecs := vecs, cnt := cnt }) := by
  obtain ⟨x, hx, hvec⟩ := h
  simp only [complete, hx, hvec, if_true]
  split
  · exact ⟨_, _, rfl⟩
  · exact ⟨_, _, rfl⟩

/-- One of any other source is counted, and does nothing else. -/
theorem complete_stray (h : ¬ servedOn d (f * 64 + v) n) : complete f v n d = (.wrongState, d.count .device .completeStray f) := by
  unfold complete
  split
  · next x hx => exact if_neg (fun hvec => h ⟨x, hx, hvec⟩)
  · rfl

/-- A completion changes no status field, so no status of a master. -/
@[simp] theorem complete_lastStatus (f v n : Nat) (d : Dev) (m : Nat) : (complete f v n d).2.lastStatus m = d.lastStatus m := by
  by_cases h : servedOn d (f * 64 + v) n
  · obtain ⟨vecs, cnt, hdone⟩ := complete_served h
    rw [hdone]
    rfl
  · rw [complete_stray h]
    rfl

/-- It takes the source that it completes out of service, and no other. -/
theorem inService_complete (h : servedOn d (f * 64 + v) n) (k : Nat) : inService (complete f v n d).2 k = (inService d k && k != n) := by
  obtain ⟨vecs, cnt, hdone⟩ := complete_served h
  rw [hdone]
  by_cases hk : k = n
  · simp [inService, hk]
  · simp [inService, hk]

end Complete

/-! ## The write of INT_COMPLETE -/

section Write
variable {m : Nat} {f : Fin 16} {v : Fin 64} {n : Fin 4096} {s : State}

/-- The command that a written word of INT_COMPLETE gives. -/
theorem completeWord (d : Dev) : complete ((f * 64 + v : Nat) / 64) ((f * 64 + v : Nat) % 64) (bitsOf n 0 12) d = complete f v n d := by
  obtain ⟨hf, hv⟩ := vecIndex_div_mod f v
  have hn : bitsOf n 0 12 = n := by
    simp only [bitsOf]
    omega
  rw [hf, hv, hn]

/-- INT_COMPLETE has no other check than that of the completion itself. -/
theorem checkReg_intComplete (c : Cfg) (d : Dev) : checkReg c d m .INT_COMPLETE (f * 64 + v) n = (complete f v n d).1 := by
  have hctr : counterReg .INT_COMPLETE = false := by decide
  have hmode : modeCheck c d .INT_COMPLETE (f * 64 + v) n = .ok := by
    have hn : nativeOnly .INT_COMPLETE = false := by decide
    have hc : compatOnly .INT_COMPLETE = false := by decide
    have hr : Reg.INT_COMPLETE.region ≠ 8 := by decide
    simp [modeCheck, hn, hc, hr]
  have hro : Reg.INT_COMPLETE.readOnly = false := by decide
  have hin : inRange .INT_COMPLETE n = true := by
    have hfields : Reg.INT_COMPLETE.desc.fields.all (fun x => !x.ty.isCfg) = true := by decide
    exact List.all_eq_true.mpr (fun x hx => by simp [List.all_eq_true.mp hfields x hx])
  have hfull : stageFull c m .INT_COMPLETE = false := by
    have hs : Reg.INT_COMPLETE.staged = false := by decide
    simp [stageFull, hs]
  have hblock (old prev new : Cfg) : checkBlock old prev new d m .INT_COMPLETE (f * 64 + v) n = (complete f v n d).1 := by
    rw [← completeWord d]
    rfl
  simp only [checkReg, hctr, hmode, hro, hin, hfull, hblock]
  cases (complete f v n d).1 <;> rfl

/-- What an accepted write of it does to the device is the completion. -/
theorem runDev_intComplete (old new : Cfg) (d : Dev) : runDev old new m .INT_COMPLETE (f * 64 + v) n d = (complete f v n d).2 := by
  have hk : Reg.INT_COMPLETE.w1cMask = 0 := by decide
  have hclear : clearFlags .INT_COMPLETE (f * 64 + v) n d = d := by simp [clearFlags, hk]
  have hreg : Reg.INT_COMPLETE.region = 3 := by decide
  have hshared : runShared old new m .INT_COMPLETE (f * 64 + v) n d = (complete f v n d).2 := congrArg Prod.snd (completeWord d)
  simpa [runDev, hclear, hreg] using hshared

theorem recordWrite_intComplete (i : Nat) (st : Status) (d : Dev) :
    recordWrite m .INT_COMPLETE i st d = record m (addrOf .INT_COMPLETE i) st d := by
  simp [recordWrite, ownEntry]

/-- An accepted write of it is recorded, and completes; the fill of the staging area that is noted is a status field. -/
theorem acceptWrite_intComplete : acceptWrite m .INT_COMPLETE (f * 64 + v) n s =
    s.withDev (complete f v n (noteFill s.cfg (record m (addrOf .INT_COMPLETE (f * 64 + v)) .ok s.dev))).2 := by
  have hacc : s.cfg.accept s.dev m .INT_COMPLETE (f * 64 + v) n = s.cfg := by
    have hs : Reg.INT_COMPLETE.staged = false := by decide
    have hk : Reg.INT_COMPLETE.rwMask = 0 := by decide
    simp [Cfg.accept, Cfg.writeNow, hs, hk]
  have hcfg (old new : Cfg) (d : Dev) (i w : Nat) : runCfg old new d .INT_COMPLETE i w = new := rfl
  have hclk (w : Nat) : ¬ (Reg.INT_COMPLETE = .CLK_CTRL ∧ bitsOf w 30 1 = 1) := by simp
  unfold acceptWrite runWrite
  rw [if_neg (hclk _), hacc]
  dsimp only
  rw [hcfg, runDev_intComplete, recordWrite_intComplete]
  rfl

/-- A refused one does what the completion still does, and is recorded. -/
theorem rejectWrite_intComplete (st : Status) : rejectWrite m .INT_COMPLETE (f * 64 + v) n st s =
    s.withDev (record m (addrOf .INT_COMPLETE (f * 64 + v)) st (complete f v n s.dev).2) := by
  have href (c : Cfg) (d : Dev) : refuseWrite c m .INT_COMPLETE (f * 64 + v) n st d = (complete f v n d).2 := congrArg Prod.snd (completeWord d)
  rw [rejectWrite, recordWrite_intComplete, href]

/-- What a write of INT_COMPLETE that the access rules let pass leads to, by what the completion says. -/
theorem hostWrite_intComplete (hm : makesAccess m = true) (hj : judgeReg s.cfg s.dev m .INT_COMPLETE (f * 64 + v) (some n) = none) :
    hostWrite m .INT_COMPLETE (f * 64 + v) n s = (if (complete f v n s.looked.dev).1 = .ok then acceptWrite m .INT_COMPLETE (f * 64 + v) n s.looked
      else rejectWrite m .INT_COMPLETE (f * 64 + v) n (complete f v n s.looked.dev).1 s.looked).seen m := by
  rw [hostWrite_passed m _ _ _ s hm hj, checkReg_intComplete]

/-- The status recorded for a write is the last of its master behind it; the fill that is noted is none (R561). -/
theorem noteFill_record_lastStatus (c : Cfg) (a : Nat) (st : Status) (d : Dev) : (noteFill c (record m a st d)).lastStatus m = st.code :=
  (Dev.get_set_other _ _ (.inl (by decide))).trans (record_lastStatus m a st d)

/-- The record of a status leaves the sources in service, the vectors and the counters as they are. -/
theorem record_kept (a : Nat) (st : Status) (d : Dev) :
    (record m a st d).inServ = d.inServ ∧ (record m a st d).vecs = d.vecs ∧ (record m a st d).cnt = d.cnt := by
  obtain ⟨sts, hrec⟩ := record_sts m a st d
  rw [hrec]
  exact ⟨rfl, rfl, rfl⟩

theorem noteFill_record_inServ (c : Cfg) (a : Nat) (st : Status) (d : Dev) : (noteFill c (record m a st d)).inServ = d.inServ := by
  rw [noteFill, Dev.set_inServ]
  exact (record_kept a st d).1

/-- A completion of a source in service on the vector, with ST_OK recorded in front of it. -/
theorem seen_complete_served {d : Dev} (h : servedOn s.dev (f * 64 + v) n) (hin : d.inServ = s.looked.dev.inServ)
    (hlast : d.lastStatus m = Status.ok.code) :
    let t := (s.looked.withDev (complete f v n d).2).seen m
    t.cfg = s.cfg ∧ t.dev.lastStatus m = Status.ok.code ∧ ∀ k, inService t.dev k = (inService s.dev k && k != n.val) := by
  have hserved : servedOn d (f * 64 + v) n := by
    unfold servedOn
    rw [hin]
    exact (servedOn_watchSources _ s.dev _ _).mpr h
  refine ⟨rfl, (complete_lastStatus f v n d m).trans hlast, fun k => ?_⟩
  calc inService (watchSources (fun g => g == m) (complete f v n d).2) k
    _ = inService (complete f v n d).2 k := inService_watchSources _ _ k
    _ = (inService d k && k != n.val) := inService_complete hserved k
    _ = (inService s.looked.dev k && k != n.val) := by rw [inService_of_inServ hin k]
    _ = (inService s.dev k && k != n.val) := congrArg (· && k != n.val) (inService_watchSources _ s.dev k)

/-- A stray completion is counted, with ST_WRONG_STATE recorded behind it. -/
theorem seen_record_stray (a : Nat) :
    let t := (s.looked.withDev (record m a .wrongState (s.looked.dev.count .device .completeStray f))).seen m
    t.cfg = s.cfg ∧ t.dev.lastStatus m = Status.wrongState.code ∧ (∀ k, inService t.dev k = inService s.dev k) ∧ t.dev.vecs = s.dev.vecs ∧
      Counted s.dev t.dev .device .completeStray f 1 := by
  intro t
  obtain ⟨hserv, hvecs, hcnt⟩ := record_kept (m := m) a .wrongState (s.looked.dev.count .device .completeStray f)
  have hcounted : t.dev.counter .device .completeStray f = (s.looked.dev.count .device .completeStray f).counter .device .completeStray f :=
    congrArg (fun cnt => SMap.getD cnt (ctrKey .device .completeStray f) 0) hcnt
  refine ⟨rfl, record_lastStatus m a .wrongState _, fun k => ?_, hvecs, hcounted.trans (Dev.counter_count_same _ _ _ _ _)⟩
  calc inService t.dev k
    _ = inService (record m a .wrongState (s.looked.dev.count .device .completeStray f)) k := inService_watchSources _ _ k
    _ = inService s.looked.dev k := inService_of_inServ hserv k
    _ = inService s.dev k := inService_watchSources _ s.dev k

end Write

/-- A source that is out of service is pending while it is asserted, on and listed (R568). -/
theorem srcPending_of_asserted {c : Cfg} {d : Dev} {x : Nat} (hl : sourceListed x = true) (ha : asserted d x = true) (hp : srcPriority c x ≠ 0)
    (hs : inService d x = false) : srcPending c d x = true := by simp [srcPending, hl, ha, hp, hs]

/-- Settles O55: a completion is judged by whether the source is in service on the vector, is accepted where it is, and is counted as stray where it is not. -/
theorem sourceCompleted : Obligations.SourceCompleted := by
  intro m f v n s hm hj
  have hexec := (exec_of_writes (Writes.intComplete m f v n)).trans (congrArg Host.Outcome.next (hostWrite_intComplete hm hj))
  refine ⟨fun x hx hvec => ?_, fun hstray => ?_⟩
  · have hserved : servedOn s.dev (f * 64 + v) n := ⟨x, hx, hvec⟩
    obtain ⟨vecs, cnt, hdone⟩ := complete_served ((servedOn_watchSources (fun _ => false) s.dev _ _).mpr hserved)
    rw [State.looked_dev, hdone, if_pos rfl, acceptWrite_intComplete] at hexec
    obtain ⟨hcfg, hlast, hserv⟩ := seen_complete_served hserved (noteFill_record_inServ s.looked.cfg (addrOf .INT_COMPLETE (f * 64 + v)) .ok s.looked.dev)
      (noteFill_record_lastStatus (m := m) _ _ _ _)
    refine ⟨_, hexec, hcfg, hlast, hserv, fun hl ha hp => srcPending_of_asserted hl ha (hcfg ▸ hp) ?_⟩
    simp [hserv]
  · have hout : ¬ servedOn s.dev (f * 64 + v) n := fun ⟨x, hx, hvec⟩ => hstray x hx hvec
    have hdone := complete_stray (mt (servedOn_watchSources (fun _ => false) s.dev _ _).mp hout)
    rw [State.looked_dev, hdone, if_neg (by simp), rejectWrite_intComplete, State.looked_dev, hdone] at hexec
    exact ⟨_, hexec, seen_record_stray _⟩

end Sys2Proof.Machine
end
